-- ==== Sys2Proof/Word.lean ====
section
/-! DEFINITION. The words of the device (R5: bytes, 32-bit words, little-endian) and their plainest arithmetic. -/

set_option autoImplicit false

namespace Sys2Proof

/-- A 32-bit word: a register of the device or of an engine. -/
abbrev Word := BitVec 32

/-- A byte of memory. -/
abbrev Byte := BitVec 8

/-- A 48-bit accumulator of an engine (R45). -/
abbrev Acc := BitVec 48

/-- A 14-bit program word or program address of an engine (R45, R66). -/
abbrev PWord := BitVec 14

/-- The word of a natural number, modulo 2^32. -/
def word (n : Nat) : Word := BitVec.ofNat 32 n

/-- 1 for true, 0 for false. -/
def bit (b : Bool) : Nat := if b then 1 else 0

/-- The field of a natural number that starts at bit `lo` and has `w` bits. -/
def bitsOf (n lo w : Nat) : Nat := n / 2 ^ lo % 2 ^ w

end Sys2Proof
end

