-- ==== Sys2Proof/Syntax.lean ====
section
/-! DEFINITION. The commands of the device, one constructor of `Instr` for each row of the opcode table, and the operand
types they carry. Every operand is a fact the sender of the command states: which instance acts, which initiator asks, which
word is written, what the world outside the device did. -/

set_option autoImplicit false

namespace Sys2Proof

/-- A Yofiaz processor: engines E0.0-E3.7 as 0-31 (8 t + e), the Keep 32, CUP-A 33, CUP-B 34 (R20, R149). -/
abbrev Eng := Fin 35

/-- An initiator of accesses (R21). -/
inductive Init where
  | engine (i : Fin 32) | keep | loader | pcie | localBus | bridge | ethDma (p : Fin 6) | campMover | canMover
  | mapper | carMover | gateway | scrubber
deriving DecidableEq, Repr

/-- The requester port number of an initiator (R21). -/
def Init.rpn : Init → Nat
  | .engine i => i
  | .keep => 32
  | .loader => 32
  | .pcie => 33
  | .localBus => 34
  | .bridge => 35
  | .ethDma p => 36 + p
  | .campMover => 42
  | .canMover => 43
  | .mapper => 44
  | .carMover => 45
  | .gateway => 46
  | .scrubber => 47

/-- An error in a stored granule: a single flipped bit (data bits first, then check bits) or an uncorrectable one (R469). -/
inductive EccMark where
  | single (bit : Nat)
  | uncorrectable
deriving DecidableEq, Repr

/-- An upset of the granule at `addr` that the world brings about before an access finds it. -/
structure Upset where
  addr : Nat
  mark : EccMark
deriving DecidableEq, Repr

/-- A source register of the register ALU format: D when c = 0, A when c = 1 (R114). -/
inductive Src where
  | d (n : Fin 8)
  | a (n : Fin 8)
deriving DecidableEq, Repr

/-- An access or element size: .B, .H, .W (R68). -/
inductive Size where
  | b | h | w
deriving DecidableEq, Repr

/-- Addressing modes of the memory format (R68). `disp` carries the extension word and the EXT words before the
instruction, oldest first (R73). -/
inductive Mode where
  | ind
  | postInc
  | preDec
  | disp (x : List (BitVec 11)) (own : PWord)
deriving DecidableEq, Repr

/-- The source of an address/accumulator instruction: a register, or an immediate formed of the extension word and the EXT
words before the instruction (R124, R73). -/
inductive ASrc where
  | d (n : Fin 8)
  | a (n : Fin 8)
  | imm (x : List (BitVec 11)) (own : PWord)
deriving DecidableEq, Repr

/-- The 15 branch conditions in code order (R131). -/
inductive Cond where
  | bra | beq | bne | bcs | bcc | bmi | bpl | bvs | bvc | bhi | bls | bge | blt | bgt | ble
deriving DecidableEq, Repr

/-- Modes of the accumulator read (R129). -/
inductive AcrMode where
  | t | s | g | f
deriving DecidableEq, Repr

/-- A string instruction with its size and direction (true: decrement), as a repeat prefix carries it (R76, R139). -/
inductive StrOp where
  | movs (z : Size) (v : Bool)
  | cmps (z : Size) (v : Bool)
  | scas (z : Size) (v : Bool)
  | stos (z : Size) (v : Bool)
  | lods (d : Fin 8) (z : Size) (v : Bool)
  | crcs (n : Fin 4) (z : Size) (v rin inv : Bool)
deriving DecidableEq, Repr

/-- What follows a repeat prefix: a string instruction, a reserved word of the string groups, or any other word (R79). -/
inductive RepNext where
  | str (op : StrOp)
  | reservedString (w : PWord)
  | other
deriving DecidableEq, Repr

/-- The count operand of DO: a register or an immediate of 1-16 (R146). -/
inductive DoCount where
  | reg (d : Fin 8)
  | imm (c : Fin 16)
deriving DecidableEq, Repr

/-- A fabric access of 1-32 bytes (R465): a read of `len` bytes or a write of bytes. -/
inductive Access where
  | read (addr len : Nat)
  | write (addr : Nat) (data : List Byte)
deriving DecidableEq, Repr

/-- The byte address of an access. -/
def Access.addr : Access → Nat
  | .read a _ => a
  | .write a _ => a

/-- The number of bytes of an access. -/
def Access.len : Access → Nat
  | .read _ n => n
  | .write _ d => d.length

/-- Whether an access writes. -/
def Access.isWrite : Access → Bool
  | .read _ _ => false
  | .write _ _ => true

/-- Which transaction a FABRIC_TRANSACTION applies: the `k`-th outstanding one (an engine's load or posted store), or one
that an initiator presents now. -/
inductive TxnSource where
  | held (k : Nat)
  | direct (i : Init) (op : Access)
deriving DecidableEq, Repr

/-- The base address register a host request meets (R35, R36). -/
inductive PcieBar where
  | bar0
  | bar2
deriving DecidableEq, Repr

/-- A host configuration request (R34): a read of a configuration word, or a write of one of the endpoint's writable
parts. -/
inductive PcieCfg where
  | read (off : BitVec 12)
  | command (v : BitVec 16)
  | bar0 (v : Word)
  | bar2 (v : Word)
  | bar3 (v : Word)
  | msixControl (enable functionMask : Bool)
  | powerState (d3 : Bool)
  | aerClear (v : Word)
deriving DecidableEq, Repr

/-- How a relay of the star ends (R358): end sequence, code error, end of the guardian window, 264 code groups. -/
inductive RelayEnd where
  | endSeq | codeError | windowEnd | tooLong
deriving DecidableEq, Repr

/-- A CAN frame: identifier, extended, remote, FD, bit rate switched, error state indicator, DLC, data bytes (R382, R387). -/
structure CanFrame where
  id : Nat
  ext : Bool
  rmt : Bool
  fd : Bool
  brs : Bool
  esi : Bool
  dlc : Fin 16
  data : List Byte
deriving DecidableEq, Repr

/-- What the bus shows with a detected error, as ISO 11898-1 distinguishes the effect on the error counters (R395): an error in a
frame, after which an error flag is sent; a stuff error of a transmitter during arbitration whose recessive stuff bit was
overwritten; a bit error in the node's own active error flag or overload flag; a dominant bit right after a receiver's error
flag; a further run of dominant bits after a flag. -/
inductive CanErrAt where
  | frame | stuffArb | ownFlag | afterFlag | dominantRun
deriving DecidableEq, Repr

/-- The supply of a GP bank (R605): in its 1.8 V range, in its 3.3 V range, between 2.0 V and 3.0 V, below 1.5 V. -/
inductive GpSupply where
  | v18 | v33 | between | absent
deriving DecidableEq, Repr

/-- A window or poll entry of the bridge whose enable bit is written (R511-R513). -/
inductive BpbWin where
  | ob (w : Fin 16)
  | ib (w : Fin 8)
  | poll (k : Fin 64)
deriving DecidableEq, Repr

/-- What the field die samples of an encoder for an uplink frame (R521, R539): count, sample stamp, Z index passed since the last
frame, diagnostic result (0 good). -/
structure EncSample where
  count : BitVec 40
  stamp : Word
  z : Bool
  diag : BitVec 3
deriving DecidableEq, Repr

/-- What the field die samples of the world for an uplink frame (R521): counter value, encoders, switches SW0-SW11, field supply in
mV, die temperature in 0.1 C. -/
structure FldWorld where
  time : Word
  en0 : EncSample
  en1 : EncSample
  sw : BitVec 12
  mv : BitVec 16
  temp : BitVec 16
deriving DecidableEq, Repr

/-- The identity that the rotating slot of the uplink carries (R16, R17): lot, position and date words, and whether their CRC is
good. -/
structure FldIdent where
  lot : Word
  pos : Word
  date : Word
  good : Bool
deriving DecidableEq, Repr

/-- What BOOT meets (R584, R585): the images that the flash returns from slots 0 and 1 (none: it does not answer), engines, banks
and Cupola cores whose self-test fails, whether DRAM training succeeds and the identity fuses' CRC is good. -/
structure BootWorld where
  slot0 : Option (List Byte)
  slot1 : Option (List Byte)
  badEngines : List (Fin 32)
  badBanks : List (Fin 96)
  badCores : BitVec 2
  trained : Bool
  idGood : Bool
deriving DecidableEq, Repr

/-- What triggers a system reset (R590, R613): a low pulse on RESET_N of so many ns, a write of SYS_RST_CTL, the clock unit. -/
inductive ResetSrc where
  | pin (ns : Nat)
  | ctl (i : Init) (v : Word)
  | clock
deriving DecidableEq, Repr

/-- Why the Keep is reset (R590): a double fault, a failed update; the watchdog has a row of its own. -/
inductive KeepCause where
  | doubleFault | update
deriving DecidableEq, Repr

/-- A clock that is lost (R592, R593). -/
inductive ClockSrc where
  | crystal | pll0 | pll1 | pll2 | ddrPll | pcieRef | safe | field
deriving DecidableEq, Repr

/-- The commands of the device: one constructor for each row of the opcode table. -/
inductive Instr where
  /-- MOV (R114): MOV copies a D or A register into a D register and sets Z and N. -/
  | mov (e : Eng) (d : Fin 8) (src : Src)
  /-- ADD (R115): ADD adds a source into a D register with carry, overflow and optional saturation. -/
  | add (e : Eng) (d : Fin 8) (src : Src)
  /-- SUB (R115): SUB subtracts a source from a D register with borrow, overflow and optional saturation. -/
  | sub (e : Eng) (d : Fin 8) (src : Src)
  /-- CMP (R115): CMP sets the flags of a subtraction without writing a register. -/
  | cmp (e : Eng) (d : Fin 8) (src : Src)
  /-- AND (R114): AND forms the bitwise and of two D registers. -/
  | and (e : Eng) (d : Fin 8) (src : Src)
  /-- OR (R114): OR forms the bitwise or of two D registers. -/
  | or (e : Eng) (d : Fin 8) (src : Src)
  /-- XOR (R114): XOR forms the bitwise exclusive or of two D registers. -/
  | xor (e : Eng) (d : Fin 8) (src : Src)
  /-- NEG (R115): NEG negates a D register with overflow and optional saturation. -/
  | neg (e : Eng) (d : Fin 8) (src : Src)
  /-- EXTB (R114): EXTB sign-extends the low byte of a D register. -/
  | extb (e : Eng) (d : Fin 8) (src : Src)
  /-- EXTH (R114): EXTH sign-extends the low halfword of a D register. -/
  | exth (e : Eng) (d : Fin 8) (src : Src)
  /-- MUL (R116): MUL writes the low 32 bits of a signed product, saturating on overflow when SAT is 1. -/
  | mul (e : Eng) (d : Fin 8) (src : Src)
  /-- DIV (R117): DIV performs a signed divide into a register pair with the defined edge results and the divide-by-zero trap. -/
  | div (e : Eng) (d : Fin 8) (src : Src)
  /-- DIVU (R117): DIVU performs an unsigned divide into a register pair. -/
  | divu (e : Eng) (d : Fin 8) (src : Src)
  /-- SHLV (R118): SHLV shifts a D register left by a register count. -/
  | shlv (e : Eng) (d : Fin 8) (src : Src)
  /-- SHRV (R118): SHRV shifts a D register logically right by a register count. -/
  | shrv (e : Eng) (d : Fin 8) (src : Src)
  /-- SARV (R118): SARV shifts a D register arithmetically right by a register count. -/
  | sarv (e : Eng) (d : Fin 8) (src : Src)
  /-- SHL (R119): SHL shifts a D register left by an immediate count. -/
  | shl (e : Eng) (d : Fin 8) (k : Fin 32)
  /-- SHR (R119): SHR shifts a D register logically right by an immediate count. -/
  | shr (e : Eng) (d : Fin 8) (k : Fin 32)
  /-- SAR (R119): SAR shifts a D register arithmetically right by an immediate count. -/
  | sar (e : Eng) (d : Fin 8) (k : Fin 32)
  /-- ROL (R119): ROL rotates a D register left by an immediate count. -/
  | rol (e : Eng) (d : Fin 8) (k : Fin 32)
  /-- ROR (R119): ROR rotates a D register right by an immediate count. -/
  | ror (e : Eng) (d : Fin 8) (k : Fin 32)
  /-- BSET (R119): BSET reports a register bit in Z and sets the bit. -/
  | bset (e : Eng) (d : Fin 8) (k : Fin 32)
  /-- BCLR (R119): BCLR reports a register bit in Z and clears the bit. -/
  | bclr (e : Eng) (d : Fin 8) (k : Fin 32)
  /-- BTST (R119): BTST reports a register bit in Z. -/
  | btst (e : Eng) (d : Fin 8) (k : Fin 32)
  /-- ADDI (R120): ADDI adds an EXT-extended immediate to a D register. -/
  | addi (e : Eng) (d : Fin 8) (x : List (BitVec 11)) (imm : BitVec 6)
  /-- CMPI (R120): CMPI sets the flags of a D register minus an immediate. -/
  | cmpi (e : Eng) (d : Fin 8) (x : List (BitVec 11)) (imm : BitVec 6)
  /-- ANDI (R120): ANDI ands a D register with a sign-extended immediate. -/
  | andi (e : Eng) (d : Fin 8) (x : List (BitVec 11)) (imm : BitVec 6)
  /-- MOVI (R120): MOVI loads a sign-extended immediate into a D register. -/
  | movi (e : Eng) (d : Fin 8) (x : List (BitVec 11)) (imm : BitVec 6)
  /-- LD (R121): A load of byte, halfword or word issues its access with addressing-mode update, alignment and protection checks. -/
  | ld (e : Eng) (z : Size) (d : Fin 8) (a : Fin 8) (m : Mode)
  /-- LOAD_DATA_RETURN (R72): Returning load data ends the load stall and is written to the D register. -/
  | loadDataReturn (e : Eng)
  /-- ST (R121): A store of byte, halfword or word is posted to its target. -/
  | st (e : Eng) (z : Size) (d : Fin 8) (a : Fin 8) (m : Mode)
  /-- IMPRECISE_BUS_ERROR (R92): A store that completes with a bus error raises an imprecise bus error at the next boundary, merging later ones. -/
  | impreciseBusError (e : Eng)
  /-- MOVA (R124): MOVA loads an A register from a register or an immediate. -/
  | mova (e : Eng) (a : Fin 8) (src : ASrc)
  /-- ADDA (R124): ADDA adds a register or immediate to an A register modulo 2^32. -/
  | adda (e : Eng) (a : Fin 8) (src : ASrc)
  /-- SUBA (R124): SUBA subtracts a register from an A register modulo 2^32. -/
  | suba (e : Eng) (a : Fin 8) (src : Src)
  /-- CMPA (R125): CMPA sets the flags of an A register minus a register or immediate. -/
  | cmpa (e : Eng) (a : Fin 8) (src : ASrc)
  /-- LDI (R125): LDI loads a full 32-bit constant into a D register. -/
  | ldi (e : Eng) (d : Fin 8) (x : List (BitVec 11)) (own : PWord)
  /-- MAC (R126): MAC adds the signed 16-bit product of two D registers to an accumulator. -/
  | mac (e : Eng) (n : Fin 4) (r : Fin 8) (t : Fin 8)
  /-- CSUM (R127): CSUM adds both halfwords of a D register to an accumulator. -/
  | csum (e : Eng) (n : Fin 4) (r : Fin 8)
  /-- ACW (R128): ACW writes an accumulator or its guard bits from a D register. -/
  | acw (e : Eng) (g : Bool) (n : Fin 4) (r : Fin 8)
  /-- ACR (R129): ACR reads an accumulator into a D register as truncated, saturated, guard or folded value. -/
  | acr (e : Eng) (d : Fin 8) (m : AcrMode) (n : Fin 4)
  /-- MTC (R130): MTC writes a control register with its register-specific effects. -/
  | mtc (e : Eng) (y : Fin 16) (x : Fin 8)
  /-- MFC (R124): MFC reads a control register into a D register. -/
  | mfc (e : Eng) (x : Fin 8) (y : Fin 16)
  /-- BRANCH (R131): A conditional branch tests its condition and branches by its displacement. -/
  | branch (e : Eng) (c : Cond) (x : List (BitVec 11)) (disp : BitVec 7)
  /-- BSR (R132): BSR pushes the return address and branches. -/
  | bsr (e : Eng) (x : List (BitVec 11)) (disp : BitVec 7)
  /-- NOP (R134): NOP does nothing for one cycle. -/
  | nop (e : Eng)
  /-- RTS (R134): RTS pops the return address into the PC. -/
  | rts (e : Eng)
  /-- RETE (R96): RETE restores PC, PSW, GIE and loop state from the frame and releases it. -/
  | rete (e : Eng)
  /-- FENCE (R135): FENCE waits until every earlier fabric transaction of the engine has completed. -/
  | fence (e : Eng)
  /-- FENCE_COMPLETE (R135): The last outstanding transaction completing ends a waiting FENCE. -/
  | fenceComplete (e : Eng)
  /-- BRK (R136): BRK completes and traps to vector 9. -/
  | brk (e : Eng)
  /-- LEAVE (R87): LEAVE ends the innermost loop level. -/
  | leave (e : Eng)
  /-- JMP (R134): JMP sets the PC from an A register. -/
  | jmp (e : Eng) (a : Fin 8)
  /-- JSR (R134): JSR pushes the return address and jumps to an A register. -/
  | jsr (e : Eng) (a : Fin 8)
  /-- TRAP (R136): TRAP completes and traps to vector 16 + n. -/
  | trap (e : Eng) (n : Fin 8)
  /-- REP (R80): REP repeats the following string instruction while D7 is nonzero, one element group at a time. -/
  | rep (e : Eng) (next : RepNext)
  /-- REPE (R80): REPE repeats the following string instruction while equal. -/
  | repe (e : Eng) (next : RepNext)
  /-- REPNE (R80): REPNE repeats the following string instruction while not equal. -/
  | repne (e : Eng) (next : RepNext)
  /-- PFS (R151): PFS folds a D register into the Yofiaz-S program-flow signature. -/
  | pfs (e : Eng) (r : Fin 8)
  /-- WAIT (R100): WAIT completes at once if a masked event is pending, otherwise gates the pipeline. -/
  | wait (e : Eng) (mask : BitVec 8)
  /-- WAIT_WAKE (R100): A masked event becoming pending resumes a waiting engine 3 cycles later. -/
  | waitWake (e : Eng)
  /-- MOVS (R76): MOVS copies one element from A5 to A6 and steps both. -/
  | movs (e : Eng) (z : Size) (v : Bool)
  /-- CMPS (R140): CMPS compares the elements at A5 and A6 and steps both. -/
  | cmps (e : Eng) (z : Size) (v : Bool)
  /-- SCAS (R140): SCAS compares D6 with the element at A5 and steps A5. -/
  | scas (e : Eng) (z : Size) (v : Bool)
  /-- STOS (R76): STOS stores D6 as one element at A6 and steps A6. -/
  | stos (e : Eng) (z : Size) (v : Bool)
  /-- LODS (R76): LODS loads one element at A5 into a D register and steps A5. -/
  | lods (e : Eng) (d : Fin 8) (z : Size) (v : Bool)
  /-- CRCS (R141): CRCS folds the element at A5 into an accumulator CRC and steps A5. -/
  | crcs (e : Eng) (n : Fin 4) (z : Size) (v : Bool) (rin : Bool) (inv : Bool)
  /-- ROLV (R143): ROLV rotates a D register left by a register count. -/
  | rolv (e : Eng) (d : Fin 8) (r : Fin 8)
  /-- RORV (R143): RORV rotates a D register right by a register count. -/
  | rorv (e : Eng) (d : Fin 8) (r : Fin 8)
  /-- SRX (R144): SRX takes one 16-byte block from the engine's lane into tower SRAM. -/
  | srx (e : Eng) (d : Fin 8) (a : Fin 8)
  /-- STX (R144): STX hands one 16-byte block with its status to the lane. -/
  | stx (e : Eng) (d : Fin 8) (a : Fin 8)
  /-- STREAM_BLOCK_READY (R145): A lane block or buffer space becoming available ends the wait of an SRX or STX. -/
  | streamBlockReady (e : Eng)
  /-- DO (R146): DO sets up a zero-overhead loop level with a register or immediate count. -/
  | doLoop (e : Eng) (c : DoCount) (len : Fin 32)
  /-- EVENT_INTERRUPT (R94): An enabled pending event at an instruction or group boundary is taken through exception entry. -/
  | eventInterrupt (e : Eng)
  /-- TMR_EXPIRY (R64): The engine timer counting from 1 to 0 latches EVPEND.EV5. -/
  | tmrExpiry (e : Eng)
  /-- RESERVED_ENCODING (R67): An engine issues a word that the opcode map marks reserved and takes the illegal-instruction exception with no side effect. -/
  | reservedEncoding (e : Eng) (next : Fin 3) (w : PWord)
  /-- MPU_REGISTER_WRITE (R104): A Keep write of an MPU register sets it, refusing other initiators and reserved SIZE values. -/
  | mpuRegisterWrite (i : Init) (e : Fin 32) (off : Fin 18) (v : Word)
  /-- ENGINE_RUN (R162): A write of RUN := 1 starts a HALTED engine or withdraws a pending halt. -/
  | engineRun (i : Init) (e : Fin 32)
  /-- ENGINE_HALT_REQUEST (R163): A write of RUN := 0 requests the engine to stop at the next boundary. -/
  | engineHaltRequest (i : Init) (e : Fin 32)
  /-- ENGINE_HALT_COMPLETE (R163): The engine reaching its halt boundary with no transaction outstanding enters HALTED. -/
  | engineHaltComplete (e : Fin 32)
  /-- RST (R165): RST starts the partial reset sequence of an engine. -/
  | rst (i : Init) (e : Fin 32)
  /-- ENGINE_RESET_COMPLETE (R165): The reset sequence ends once outstanding transactions settle: state reset, epoch advanced, HALTED. -/
  | engineResetComplete (e : Fin 32)
  /-- ISO (R167): ISO isolates an engine at once, disconnecting it and gating its clock. -/
  | iso (i : Init) (e : Fin 32)
  /-- STEP (R163): STEP executes one instruction or element group from HALTED and halts again. -/
  | engineStep (i : Init) (e : Fin 32)
  /-- SNAP (R164): SNAP writes the engine's 192-byte state image to SNAPA. -/
  | snap (i : Init) (e : Fin 32)
  /-- SNAP_COMPLETE (R164): The state-image write ends, successfully or with SNAPERR. -/
  | snapComplete (e : Fin 32)
  /-- RESTORE (R164): RESTORE loads the engine state from the image at SNAPA. -/
  | restore (i : Init) (e : Fin 32)
  /-- RESTORE_COMPLETE (R164): The state-image load ends, successfully or with SNAPERR. -/
  | restoreComplete (e : Fin 32)
  /-- TEST (R168): TEST starts the engine built-in self-test. -/
  | engineTest (i : Init) (e : Fin 32)
  /-- ENGINE_TEST_COMPLETE (R168): The self-test ends: the engine passes through RESET to HALTED and TESTRES is written. -/
  | engineTestComplete (e : Fin 32) (pass : Bool)
  /-- CLKEN_WRITE (R166): A write of CLKEN gates or starts the engine clock per its state. -/
  | clkenWrite (i : Init) (e : Fin 32) (v : Word)
  /-- CLKEN_DELAYED_ACTION (R166): 4 cycles after CLKEN := 1, a RUN or action written with it is applied. -/
  | clkenDelayedAction (e : Fin 32)
  /-- PROGRAM_STORE_WRITE (R169): A load-port write to a program store is accepted only in RESET or HALTED. -/
  | programStoreWrite (i : Init) (addr : Nat) (data : List Byte)
  /-- PROGRAM_STORE_READ (R170): A load-port read returns the word, correcting a single-bit error or failing on an uncorrectable one. -/
  | programStoreRead (i : Init) (addr : Nat) (len : Nat) (upsets : List Upset)
  /-- LOADER_GO (R172): GO starts a program loader operation in PROG or COPY mode after checking parameters. -/
  | loaderGo (i : Init) (v : Word)
  /-- LOADER_ABORT (R174): ABORT stops a loader operation before its commit point or sets TOOLATE after it. -/
  | loaderAbort (i : Init) (units : Option Nat)
  /-- LOADER_COMPLETE (R174): A loader operation ends in DONE or ERROR, checks the CRC and rings its doorbell. -/
  | loaderComplete
  /-- LANE_INGRESS_FRAME (R179): A frame received on the ingress port of an active lane is cut into blocks for the primary and shadow. -/
  | laneIngressFrame (l : Fin 6) (first : Bool) (last : Bool) (chunk : List Byte) (err : Fin 3)
  /-- EGRESS_UNDERRUN (R182): The egress needing a byte not yet delivered ends the frame and counts UNDR. -/
  | egressUnderrun (l : Fin 6)
  /-- LANE_CTL_WRITE (R189): A write of ETH_LANEl_CTL attaches or detaches primary and shadow, refusing invalid engines. -/
  | laneCtlWrite (i : Init) (l : Fin 6) (v : Word)
  /-- LANE_SWAP (R187): A write of SWAP = 1 requests the lane to forward the shadow's copies, or is refused. -/
  | laneSwap (i : Init) (l : Fin 6)
  /-- LANE_SWAP_EFFECT (R187): The swap takes effect at the first block not yet in the egress buffer and exchanges PRI and SHD. -/
  | laneSwapEffect (l : Fin 6)
  /-- REGISTER_WRITE (R8): A write to a register or field that has no row of its own, applied per its access code and the RWQ, reserved-encoding and access-size rules. -/
  | registerWrite (i : Init) (addr : Nat) (size : Nat) (v : Word)
  /-- CLEARING_READ (R9): A read of an RC field returns its value and clears it; an event in the same cycle is kept. -/
  | clearingRead (i : Init) (addr : Nat) (size : Nat) (events : Word)
  /-- LATCHING_READ (R239): A read of a latching word such as ALM_TCn_NOW0, ALM_PTC0, ALM_LIN_CNT0, ALM_MNS_PHASE or ATT0 returns one word and latches the rest for the reading RPN. -/
  | latchingRead (i : Init) (addr : Nat) (size : Nat)
  /-- FABRIC_TRANSACTION (R466): A fabric transaction of 1 to 32 bytes is applied at its target as one indivisible unit. -/
  | fabricTransaction (t : TxnSource) (upsets : List Upset)
  /-- WRITE_COMPLETION (R467): A posted write completes when its target has applied it, which releases its tag. -/
  | writeCompletion (k : Nat)
  /-- FABRIC_TIMEOUT (R468): A transaction without a response for 100 us completes with a bus error and is counted, logged and reported to Vigil. -/
  | fabricTimeout (k : Nat)
  /-- PCIE_REQUEST (R35): A host memory request through BAR0 or BAR2 is decoded to the fabric and served; a bus error is handled per R37. -/
  | pcieRequest (bar : PcieBar) (op : Access)
  /-- MSIX_VECTOR_UNMASK (R39): Unmasking an MSI-X vector whose PBA bit is set sends the held message and clears the PBA bit. -/
  | msixVectorUnmask (v : Fin 32) (ctrl : Word)
  /-- HOST_APERTURE_WRITE (R40): A write of SYS_HOST_BPAP sets EN and BASE, ignoring a reserved BASE. -/
  | hostApertureWrite (i : Init) (v : Word)
  /-- LB_EXCHANGE_ACCESS (R42): An 8-bit or 16-bit local-bus access to the exchange region is carried out directly through port H. -/
  | lbExchangeAccess (addr : BitVec 24) (be : BitVec 2) (write : Bool) (d : BitVec 16)
  /-- LB_READ_FIRST_HALF (R42): The first half of a local-bus register read performs the 32-bit fabric read and holds bits [31:16]. -/
  | lbReadFirstHalf (addr : BitVec 24) (be : BitVec 2)
  /-- LB_READ_SECOND_HALF (R42): The second half of a local-bus register read returns the held bits, or a bus error without its matching first half. -/
  | lbReadSecondHalf (addr : BitVec 24) (be : BitVec 2)
  /-- LB_WRITE_FIRST_HALF (R42): The first half of a local-bus register write holds bits [15:0] without a fabric access. -/
  | lbWriteFirstHalf (addr : BitVec 24) (be : BitVec 2) (d : BitVec 16)
  /-- LB_WRITE_SECOND_HALF (R42): The second half of a local-bus register write performs the 32-bit fabric write. -/
  | lbWriteSecondHalf (addr : BitVec 24) (be : BitVec 2) (d : BitVec 16)
  /-- LB_STROBE_EARLY_RISE (R610): A strobe that rises before LB_RDY_N ends the bus cycle while a started internal access still completes. -/
  | lbStrobeEarlyRise (addr : BitVec 24) (be : BitVec 2) (write : Bool) (d : BitVec 16) (started : Bool)
  /-- CHANNEL_DECLARE (R209): CHANNEL_DECLARE validates a descriptor and places the channel, or defers it. -/
  | channelDeclare
  /-- DEFERRED_COMMIT (R209): CHANNEL_DECLARE with OBJ 0xFF places all deferred channels as one batch. -/
  | deferredCommit
  /-- CHANNEL_START (R212): CHANNEL_START starts a placed or stopped channel at its first cycle start. -/
  | channelStart
  /-- CHANNEL_RUNNING (R212): The channel's first cycle start at least 20 us after the command makes it RUNNING and sends the final response. -/
  | channelRunning (c : Fin 64)
  /-- CHANNEL_STOP (R212): CHANNEL_STOP sets ROLE STOP for the next cycle, optionally releasing the channel. -/
  | channelStop
  /-- CHANNEL_STOPPED (R212): At the end of the current cycle the engine halts and the channel becomes STOPPED. -/
  | channelStopped (c : Fin 64)
  /-- CHANNEL_MIGRATE (R214): CHANNEL_MIGRATE starts a migration of a running channel to a chosen target. -/
  | channelMigrate
  /-- MIGRATION_ABORT (R215): A migrate or update with ARG[7] aborts the open migration before its commit point or gets TOO_LATE. -/
  | migrationAbort
  /-- CHANNEL_UPDATE (R223): CHANNEL_UPDATE migrates a channel onto a target loaded with a new image. -/
  | channelUpdate
  /-- KEEP_UPDATE (R231): CHANNEL_UPDATE with OBJ 0xFF verifies a new Keep image into the inactive bank. -/
  | keepUpdate
  /-- BUFFER_DECLARE (R210): BUFFER_DECLARE places or releases a declared buffer. -/
  | bufferDeclare
  /-- RESERVE_SET (R213): RESERVE_SET copies PLM_RSV into the active reserve minimums. -/
  | reserveSet
  /-- SELFTEST (R230): SELFTEST clears and tests an engine or bank. -/
  | selftest
  /-- QUERY (R197): QUERY returns a channel state or the count of FAILED channels. -/
  | query
  /-- PLM_LX_POOL_WRITE (R204): A write of PLM_LXBASE or PLM_LXSIZE keeps the old values if the pair would become invalid. -/
  | plmLxPoolWrite (i : Init) (size : Bool) (v : Word)
  /-- MIGRATION_PREPARE_DONE (R214): The target is loaded, restored and protected, ending Prepare. -/
  | migrationPrepareDone (c : Fin 64)
  /-- STATE_COPY_START (R216): After the source's DONE, the Keep copies the state into the target, plainly or by hold. -/
  | stateCopyStart (c : Fin 64)
  /-- STATE_COPY_DONE (R214): The state copy completes and the target starts in role SHADOW. -/
  | stateCopyDone (c : Fin 64) (skipped : Nat)
  /-- SHADOW_COMPARE (R214): Each shadow cycle's SHASH and OCRC are compared, selecting the handover instant or a retry. -/
  | shadowCompare (c : Fin 64) (inStep : Bool)
  /-- SHADOW_LAG_TIMEOUT (R219): A target not in step within SHMAX cycles ends the migration with LAG. -/
  | shadowLagTimeout (c : Fin 64)
  /-- CONV_TIMEOUT (R223): A conversion routine that has not set DONE within 1 ms ends the update with CONV_FAIL. -/
  | convTimeout (c : Fin 64)
  /-- HANDOVER_COMMIT (R214): At H minus 5 us the Keep moves the cycle event, roles and rights from source to target. -/
  | handoverCommit (c : Fin 64)
  /-- MIGRATION_RELEASE (R214): After the target's first DONE as primary the source is halted and freed and OK is posted. -/
  | migrationRelease (c : Fin 64)
  /-- AUDIT_START (R224): The Keep copies a state snapshot to an audit engine and starts it in role AUDIT. -/
  | auditStart (c : Fin 64) (cycle : Word)
  /-- AUDIT_COMPARE (R224): The audit engine's results are compared with the primary's. -/
  | auditCompare (c : Fin 64)
  /-- AUDIT_VOTE (R226): A vote engine decides an audit mismatch by majority. -/
  | auditVote (c : Fin 64)
  /-- EMERGENCY_MIGRATION (R227): A failed primary's channel is restarted on a target from its last state. -/
  | emergencyMigration (c : Fin 64) (lost : Nat)
  /-- BANK_EVACUATION (R229): A retired bank's items are copied away by migrating every channel that uses them. -/
  | bankEvacuation (k : Fin 96)
  /-- KEEP_BANK_SWAP (R231): With nothing open, the Keep swaps program banks and the new firmware sets READY. -/
  | keepBankSwap (ready : Bool)
  /-- KEEP_FALLBACK (R231): READY not set within 50 us of a swap makes the mode controller swap back and post KEEP_FALLBACK. -/
  | keepFallback
  /-- RATE_WRITE (R235): A write of ALM_TCn_RATE sets the clock rate, clamping to the limit. -/
  | rateWrite (i : Init) (n : Fin 4) (v : Word)
  /-- CLOCK_STEP (R236): STEP applies STEPS and STEPNS to a time base at the next tick, or sets STEPERR. -/
  | clockStep (i : Init) (n : Fin 4)
  /-- CLOCK_SET (R236): SET loads SET0-SET2 into a time base as a step at the next tick. -/
  | clockSet (i : Init) (n : Fin 4)
  /-- SLEW_WRITE (R237): A write of ALM_TCn_SLEW starts or replaces an offset slew. -/
  | slewWrite (i : Init) (n : Fin 4) (v : Word)
  /-- SLEWSTOP (R237): SLEWSTOP ends a slew and keeps what was applied. -/
  | slewstop (i : Init) (n : Fin 4)
  /-- SLEW_COMPLETE (R237): The slew stops exactly when its whole amount has been applied. -/
  | slewComplete (n : Fin 4)
  /-- STEERING_ALIAS_WRITE (R300): A write to a port's steering alias acts on the time base when OWN is 1 and OPORT names the port. -/
  | steeringAliasWrite (i : Init) (p : Fin 6) (n : Fin 4) (off : Fin 16) (v : Word)
  /-- CROSS_STAMP (R243): A cross-stamp latches TC0-TC3 and the PTC in one tick and advances XS_SEQ. -/
  | crossStamp (i : Init)
  /-- ENCODER_RECORD (R247): An encoder record enters the angle and line bases and updates the estimator. -/
  | encoderRecord (n : Fin 2) (pos : Int) (z : Bool) (stamp : Int)
  /-- STANDSTILL_TIMEOUT (R248): No position change for STILL ms sets STILL and zeroes VEL and ACC. -/
  | standstillTimeout (n : Fin 2)
  /-- RECORD_TIMEOUT (R248): Records missing for 3 periods set RECERR and clear VALID. -/
  | recordTimeout (n : Fin 2)
  /-- REVSET_WRITE (R246): A write of ALM_ANGn_REVSET loads the revolution count at the next record. -/
  | revsetWrite (i : Init) (n : Fin 2) (v : Word)
  /-- LIN_LOAD (R249): LOAD presets LIN0 from SET0-SET1 at the next record. -/
  | linLoad (i : Init)
  /-- MAINS_ZERO_CROSSING (R250): A positive zero crossing updates MNS0 phase, cycle count and lock. -/
  | mainsZeroCrossing (stamp : Int)
  /-- MAINS_CROSSING_MISSING (R250): A crossing missing for 2 cycles clears LOCK and starts holdover. -/
  | mainsCrossingMissing
  /-- MAINS_HOLDOVER_END (R250): After 2 cycles of holdover the mains phase stops. -/
  | mainsHoldoverEnd
  /-- CALENDAR_ENABLE (R259): A write of EN := 1 arms a Calendar entry or refuses it with CFGERR. -/
  | calendarEnable (i : Init) (k : Fin 2048) (v : Word)
  /-- CALENDAR_DISABLE (R254): A write of EN := 0 disarms an entry or sets TOOLATE after its commit point. -/
  | calendarDisable (i : Init) (k : Fin 2048) (v : Word)
  /-- CALENDAR_COMMIT (R254): 2 us before its trigger a timed action is handed to its block with its time. -/
  | calendarCommit (k : Fin 2048)
  /-- CALENDAR_FIRE (R255): An entry whose trigger is reached fires, dispatches its event action and re-arms or disarms. -/
  | calendarFire (k : Fin 2048)
  /-- ANGLE_PREDICTION (R260): Every 1 us an armed ANG or MNS entry is converted into a predicted TC0 time. -/
  | anglePrediction (k : Fin 2048)
  /-- SOFTWARE_CAPTURE (R265): A write of ALM_CAP_SW captures TC0 into the log. -/
  | softwareCapture (i : Init) (v : Word)
  /-- CAPTURE_RD_WRITE (R266): A write of ALM_CAP_RD frees read entries, refusing a move past WR. -/
  | captureRdWrite (i : Init) (v : Word)
  /-- PORT_MODE_WRITE (R299): A write of CTL.MODE selects the interface and loads the stamp corrections. -/
  | portModeWrite (i : Init) (p : Fin 6) (v : Word)
  /-- PORT_RESET (R273): CTL.RST performs the port partial reset. -/
  | portReset (i : Init) (p : Fin 6)
  /-- ETH_BLKRST (R274): BLKRST resets all six ports, the lanes and the MDIO master. -/
  | ethBlkrst (i : Init)
  /-- LINK_CHANGE (R269): A link, speed or duplex change reported by PCS, in-band status or polling updates the port state. -/
  | linkChange (p : Fin 6) (up : Bool) (speed : Fin 4) (hdx : Bool)
  /-- PHY_POLL (R269): Every 10 ms an LSRC 1 port reads its PHY's Clause 22 registers. -/
  | phyPoll (p : Fin 6) (r1 : BitVec 16) (r4 : BitVec 16) (r5 : BitVec 16) (r9 : BitVec 16) (r10 : BitVec 16)
  /-- MDIO_TRANSACTION (R275): GO starts an MDIO transaction in request order. -/
  | mdioTransaction (i : Init) (v : Word)
  /-- MDIO_COMPLETE (R275): An MDIO transaction ends, delivering read data or NOACK. -/
  | mdioComplete (ack : Option (BitVec 16))
  /-- RING_CONFIG_WRITE (R276): A write of a queue's BASE or LEN resets HEAD and TAIL and clears ERR. -/
  | ringConfigWrite (i : Init) (p : Fin 6) (k : Fin 12) (len : Bool) (v : Word)
  /-- TAIL_WRITE (R276): A write of a queue's TAIL hands descriptors to the DMA. -/
  | tailWrite (i : Init) (p : Fin 6) (k : Fin 12) (v : Word)
  /-- DESCRIPTOR_FETCH (R278): The DMA fetches all descriptors of a frame and checks them. -/
  | descriptorFetch (p : Fin 6) (q : Fin 8)
  /-- TX_FRAME_SELECT (R288): At a frame boundary the MAC chooses the next eligible frame and starts it. -/
  | txFrameSelect (p : Fin 6)
  /-- PREEMPTION (R292): A preemptable frame is cut at its next permitted point for an express frame, a hold or a gate close. -/
  | preemption (p : Fin 6) (sent : Nat) (remain : Nat)
  /-- TX_UNDERRUN (R287): A cut-through frame missing data ends with an inverted FCS and raises THR. -/
  | txUnderrun (p : Fin 6) (sent : Nat)
  /-- TX_WRITEBACK (R279): A finished frame's descriptors are written back with its status and stamp. -/
  | txWriteback (p : Fin 6) (q : Fin 8)
  /-- TIMED_LAUNCH (R293): A timed frame's preamble starts so that its stamp equals its launch time. -/
  | timedLaunch (p : Fin 6) (q : Fin 8)
  /-- LAUNCH_HANDOVER (R295): A Calendar ETH_LAUNCH handover is held by its queue, replacing an unconsumed one. -/
  | launchHandover (p : Fin 6)
  /-- LAUNCH_LATE (R296): A timed frame that cannot start by its launch time plus LTOL completes LATE. -/
  | launchLate (p : Fin 6) (q : Fin 8)
  /-- TX_CANCEL (R297): CANCEL with GO cancels a queued frame before its preamble or reports TOO_LATE or NOTFOUND. -/
  | txCancel (i : Init) (p : Fin 6) (q : Fin 8) (v : Word)
  /-- GATE_WRITE (R290): A software write of GATE.STATES changes the gates at once. -/
  | gateWrite (i : Init) (p : Fin 6) (v : Word)
  /-- GATE_ACTION_HANDOVER (R290): A handed GATE action is held by the port, or discarded and counted at 16 pending. -/
  | gateActionHandover (p : Fin 6)
  /-- GATE_ACTION_APPLY (R290): At its trigger time a held GATE action sets the gate states and hold state. -/
  | gateActionApply (p : Fin 6)
  /-- RX_FRAME (R306): A received frame is stamped, checked, classified and sent to a queue, a lane or dropped. -/
  | rxFrame (p : Fin 6) (kind : Fin 5) (bs : List Byte) (aln : Bool) (full : Bool) (sfd : Int)
  /-- PAUSE_EXPIRY (R303): The pause time running out lets the paused queues start frames again. -/
  | pauseExpiry (p : Fin 6)
  /-- PREEMPT_VERIFY (R291): At each VTIME interval a verify mPacket is sent, and after VLIMIT attempts verification fails. -/
  | preemptVerify (p : Fin 6)
  /-- LPI_ENTRY (R304): IDLE us without a frame to send puts the transmit path into LPI. -/
  | lpiEntry (p : Fin 6)
  /-- DOWNSHIFT (R305): Low utilisation for HOLD seconds makes a service port renegotiate at 100 Mbit/s. -/
  | downshift (p : Fin 6)
  /-- UPSHIFT (R305): High utilisation for one second makes a downshifted port renegotiate at 1 Gbit/s. -/
  | upshift (p : Fin 6)
  /-- CTB_START (R325): START validates the node configuration and table and enters LISTEN. -/
  | ctbStart (i : Init)
  /-- CTB_HALT (R325): HALT requests the node to enter CONFIG after a frame in transmission. -/
  | ctbHalt (i : Init)
  /-- CTB_HALT_COMPLETE (R325): The frame in transmission ending puts the node in CONFIG. -/
  | ctbHaltComplete
  /-- CTB_RESTART (R325): RESTART takes a node from ALONE to LISTEN with ATTEMPT 0. -/
  | ctbRestart (i : Init)
  /-- CTB_BLKRST (R344): BLKRST performs the node partial reset. -/
  | ctbBlkrst (i : Init)
  /-- TABLE_VALIDATION_COMPLETE (R321): Validation of a schedule table ends with pass or the first violation code. -/
  | tableValidationComplete (star : Bool) (t : Fin 2)
  /-- SWITCH_ARM (R323): A CTB_SWITCH ARM write or Calendar CTB_SWITCH action arms a table switch and validates the target. -/
  | switchArm (i : Init) (v : Word)
  /-- SWITCH_CANCEL (R324): CANCEL disarms an armed switch, or reports TOOLATE. -/
  | switchCancel (i : Init)
  /-- CYCLE_START (R313): A new Campanile cycle begins: count advances, coldstart attempts count, TC1 is steered. -/
  | cycleStart
  /-- LISTEN_TIMEOUT (R325): LISTEN cycles without a valid frame start COLDSTART on a coldstart node. -/
  | listenTimeout
  /-- TX_BUFFER_FETCH (R331): 3 us before the action point the mover reads a transmit buffer with GEN checks. -/
  | txBufferFetch (k : Fin 1024)
  /-- SLOT_TRANSMIT (R330): At the action point the node sends its frame on all effective channels. -/
  | slotTransmit (k : Fin 1024)
  /-- CTB_FRAME_RECEIVE (R332): A received frame copy is checked per channel and committed, compared or used for echo and synchronisation. -/
  | ctbFrameReceive (c : Fin 2) (k : Fin 1024) (bs : List Byte) (code : Bool) (start stop : Int)
  /-- SLOT_WINDOW_END (R336): At a window end without commit the buffer's AGE and NULLSEEN update and leap silence counts advance. -/
  | slotWindowEnd (k : Fin 1024)
  /-- OFFSET_CORRECTION (R348): At the offset-correction segment the node computes OC and, in odd cycles, the rate correction. -/
  | offsetCorrection
  /-- LEAP_RELEASE (R341): A write of LEAPCFG.EN := 0 releases an owned leap slot and stops watching. -/
  | leapRelease (i : Init)
  /-- STAR_ENABLE (R359): Setting ENA or ENB validates the star table and enters OPEN, or sets CFGERR. -/
  | starEnable (i : Init) (v : Word)
  /-- STAR_DISABLE (R359): Clearing both ENA and ENB puts the star in OFF. -/
  | starDisable (i : Init)
  /-- STAR_START_SEQUENCE (R362): A start sequence on a branch is relayed, blocked or cut off by the guardian. -/
  | starStartSequence (c : Fin 2) (b : Fin 17) (pos : Int)
  /-- STAR_RELAY_END (R358): A relayed frame ends at its end sequence, a code error, the window end or 264 code groups. -/
  | starRelayEnd (c : Fin 2) (how : RelayEnd) (bs : List Byte) (start stop : Int)
  /-- STAR_CYCLE_END (R363): At each star cycle end violation counts update and branches are isolated or released, and leap locks freed. -/
  | starCycleEnd
  /-- STAR_OFFSET_CORRECTION (R360): The star applies its own offset and rate correction and may fall back to OPEN. -/
  | starOffsetCorrection
  /-- BRANCH_RELEASE (R363): A write of 1 to a branch bit of BFY_REL releases an isolated branch. -/
  | branchRelease (i : Init) (v : Word)
  /-- STAR_SWITCH_ARM (R368): A BFY_SWITCH arm or followed node switch arms a star table switch. -/
  | starSwitchArm (i : Init) (v : Word)
  /-- STAR_SWITCH_CANCEL (R368): A BFY_SWITCH cancel disarms a star switch or reports TOOLATE. -/
  | starSwitchCancel (i : Init)
  /-- BFY_BLKRST (R370): BLKRST performs the star partial reset. -/
  | bfyBlkrst (i : Init)
  /-- CAN_FRAME_RECEIVED (R382): A valid received CAN frame is filtered, routed and stored in a queue or cell, or rejected. -/
  | canFrameReceived (n : Fin 4) (f : CanFrame) (ago : Nat)
  /-- QUEUE_RETURN (R384): A write of QARET or QBRET returns elements of a receive queue. -/
  | queueReturn (i : Init) (n : Fin 4) (b : Bool) (v : Word)
  /-- CAN_TX_REQUEST (R388): A write of TXGO requests a transmit buffer or ends it with CFG. -/
  | canTxRequest (i : Init) (n : Fin 4) (v : Word)
  /-- CAN_TX_CANCEL (R391): A write of TXSTOP cancels a transmit request per its commit point. -/
  | canTxCancel (i : Init) (n : Fin 4) (v : Word)
  /-- CAN_TX_SELECT (R388): At the last intermission bit or bus idle the controller selects the winning pending buffer and starts an attempt. -/
  | canTxSelect (n : Fin 4)
  /-- CAN_TX_SUCCESS (R390): A successful frame sets RESULT SENT, TS and TXDONE. -/
  | canTxSuccess (n : Fin 4) (meas : Nat)
  /-- CAN_TX_ATTEMPT_FAILED (R390): An attempt that loses arbitration or meets an error retries or ends the request. -/
  | canTxAttemptFailed (n : Fin 4) (lost : Bool)
  /-- CAN_BUS_ERROR (R395): A detected bus error updates TEC, REC, error state and counters, possibly entering bus-off. -/
  | canBusError (n : Fin 4) (tx : Bool) (code : Fin 7) (fast : Bool) (pos : CanErrAt)
  /-- CAN_PROTOCOL_EXCEPTION (R398): A recessive res bit counts PXCNT and waits for integration, or is a form error. -/
  | canProtocolException (n : Fin 4)
  /-- BUSOFF_RECOVERY_COMPLETE (R397): 128 occurrences of 11 recessive bits end bus-off recovery and clear TEC and REC. -/
  | busoffRecoveryComplete (n : Fin 4)
  /-- CAN_HALT (R400): A write of HALT := 1 requests the controller to halt after the frame in progress. -/
  | canHalt (i : Init) (n : Fin 4) (v : Word)
  /-- CAN_HALTED (R400): The frame in progress ending halts the controller. -/
  | canHalted (n : Fin 4)
  /-- CAN_LEAVE_HALT (R400): A write of HALT := 0 validates the configuration and starts integration, or sets CFGERR. -/
  | canLeaveHalt (i : Init) (n : Fin 4) (v : Word)
  /-- CAN_BUS_INTEGRATED (R400): 11 recessive bits integrate the controller to the bus. -/
  | canBusIntegrated (n : Fin 4)
  /-- RX_LAYOUT_WRITE (R400): A write of CANn_RXL empties both queues and clears the cell flags. -/
  | rxLayoutWrite (i : Init) (n : Fin 4) (v : Word)
  /-- CAN_BLKRST (R402): BLKRST performs the CAN controller partial reset. -/
  | canBlkrst (i : Init) (n : Fin 4)
  /-- OUT (R412): OUT takes n bits of TXW to pins, directions or a W register. -/
  | carOut (c : Fin 8) (q : Fin 4)
  /-- IN (R413): IN places n bits from pins, a W register or a constant into RXW. -/
  | carIn (c : Fin 8) (q : Fin 4) (gp : BitVec 64)
  /-- SET (R414): SET writes an immediate to pins, directions or a W register. -/
  | carSet (c : Fin 8) (q : Fin 4)
  /-- CAR_WAIT (R415): WAIT stalls a sequencer until a pin level, pin edge, Calendar flag or handshake flag condition holds. -/
  | carWait (c : Fin 8) (q : Fin 4) (prev gp : BitVec 64)
  /-- CAR_WAIT_COMPLETE (R415): The awaited condition holding ends the WAIT and consumes a flag. -/
  | carWaitComplete (c : Fin 8) (q : Fin 4) (prev gp : BitVec 64)
  /-- AT (R416): AT forms a PTC target and stalls until the PTC reaches it minus ATLEAD, or completes late. -/
  | carAt (c : Fin 8) (q : Fin 4)
  /-- AT_TARGET_REACHED (R416): The PTC reaching the AT target minus ATLEAD ends the AT stall. -/
  | atTargetReached (c : Fin 8) (q : Fin 4) (gp : BitVec 64)
  /-- CAR_JMP (R417): JMP evaluates its condition, updating W0 or W1, and branches. -/
  | carJmp (c : Fin 8) (q : Fin 4) (gp : BitVec 64)
  /-- PULL (R418): PULL loads TXW from the transmit side, stalling while it is empty. -/
  | carPull (c : Fin 8) (q : Fin 4)
  /-- PULL_COMPLETE (R418): A word arriving on the transmit side completes a stalled PULL or Q-mode AT. -/
  | pullComplete (c : Fin 8) (q : Fin 4) (gp : BitVec 64)
  /-- PUSH (R418): PUSH writes RXW to the receive side, stalling while it is full. -/
  | carPush (c : Fin 8) (q : Fin 4)
  /-- PUSH_COMPLETE (R418): Space appearing on the receive side completes a stalled PUSH. -/
  | pushComplete (c : Fin 8) (q : Fin 4) (gp : BitVec 64)
  /-- CAR_MOV (R419): MOV copies a source through an operation to a sequencer destination. -/
  | carMov (c : Fin 8) (q : Fin 4) (gp : BitVec 64)
  /-- SIG (R420): SIG operates a handshake flag, requests a capture and rings the doorbell. -/
  | carSig (c : Fin 8) (q : Fin 4)
  /-- CAR_PROGRAM_WRITE (R422): A write to a Carillon program word, re-fetched by a stalled or idle sequencer. -/
  | carProgramWrite (i : Init) (c : Fin 8) (w : Fin 48) (v : Word)
  /-- TXF_WRITE (R423): A write of TXF appends to the transmit queue or fills the direct register. -/
  | txfWrite (i : Init) (c : Fin 8) (q : Fin 4) (v : Word)
  /-- RXF_READ (R423): A read of RXF removes and returns the oldest receive word. -/
  | rxfRead (i : Init) (c : Fin 8) (q : Fin 4)
  /-- CARILLON_MAP_WRITE (R405): A write of CAR_COM_MAPc sets a Carillon's pin window or is refused. -/
  | carillonMapWrite (i : Init) (c : Fin 8) (v : Word)
  /-- CAR_RUN (R427): RUN := 1 starts a sequencer at its PC. -/
  | carRun (i : Init) (c : Fin 8) (q : Fin 4)
  /-- CAR_STOP (R427): RUN := 0 stops a sequencer at once, abandoning any stall. -/
  | carStop (i : Init) (c : Fin 8) (q : Fin 4)
  /-- RESTART (R427): RESTART sets the sequencer PC to 0 and ends any stall. -/
  | carRestart (i : Init) (c : Fin 8) (q : Fin 4)
  /-- EXEC (R427): A write of EXEC executes one instruction on a stopped sequencer. -/
  | carExec (i : Init) (c : Fin 8) (q : Fin 4) (v : Word) (gp : BitVec 64)
  /-- CAR_BLKRST (R428): BLKRST performs the Carillon partial reset. -/
  | carBlkrst (i : Init) (c : Fin 8)
  /-- MOVER_GO (R426): TXGO or RXGO starts a sequencer mover direction. -/
  | moverGo (i : Init) (c : Fin 8) (q : Fin 4) (v : Word)
  /-- MOVER_STOP (R426): TXSTOP or RXSTOP ends a mover direction after the current word. -/
  | moverStop (i : Init) (c : Fin 8) (q : Fin 4) (v : Word)
  /-- MOVER_END (R426): A mover direction finishes its words or an error, restarts in RING mode, and rings. -/
  | moverEnd (c : Fin 8) (q : Fin 4) (rx : Bool)
  /-- GP_BANK_SUPPLY_CHANGE (R605): A GP bank supply entering or leaving its range sets its level and presence or floats its pins. -/
  | gpBankSupplyChange (b : Fin 2) (level : GpSupply)
  /-- SGM_SWAP (R432): SWAP requests a change of the active table set. -/
  | sgmSwap (i : Init)
  /-- SGM_SWAP_EFFECT (R432): With no run in progress the other set becomes active and the doorbell rings. -/
  | sgmSwapEffect
  /-- SGM_TRIG (R439): A write of SGM_TRIG triggers a list. -/
  | sgmTrig (i : Init) (v : Word)
  /-- TRIGGER_AREA_WRITE (R439): A write to word L of the trigger area triggers list L. -/
  | triggerAreaWrite (i : Init) (a : Nat) (d : List Byte)
  /-- LIST_RUN (R441): The mapper runs the next pending list: snapshot, entries, commits, doorbell and chain. -/
  | listRun
  /-- SGM_BLKRST (R445): BLKRST performs the mapper partial reset. -/
  | sgmBlkrst (i : Init)
  /-- MAILBOX_POST (R456): A write to a mailbox in the sender's page stores the word or is refused. -/
  | mailboxPost (i : Init) (page : Nat) (n : Fin 128) (v : Word)
  /-- MAILBOX_CONSUME (R457): A read of a mailbox in the receiver's page returns and clears the word and loads LASTST. -/
  | mailboxConsume (i : Init) (page : Nat) (n : Fin 128)
  /-- LVS_POST (R460): A write to a latest-value slot stores the word, marking a collision. -/
  | lvsPost (i : Init) (page : Nat) (n : Fin 64) (v : Word)
  /-- LVS_CONSUME (R461): A read of a latest-value slot returns and clears the word and copies COL. -/
  | lvsConsume (i : Init) (page : Nat) (n : Fin 64)
  /-- SEMAPHORE_TEST_AND_SET (R462): A read of a semaphore acquires it if free and returns its state. -/
  | semaphoreTestAndSet (i : Init) (page : Nat) (n : Fin 64)
  /-- SEMAPHORE_RELEASE (R463): A write by the holder frees a semaphore. -/
  | semaphoreRelease (i : Init) (page : Nat) (n : Fin 64)
  /-- SEMAPHORE_FORCE_RELEASE (R463): A Keep write of XCH_SEM_FREL frees any semaphore. -/
  | semaphoreForceRelease (i : Init) (n : Fin 64)
  /-- DOORBELL_RING (R454): A write of DB_RING sets a doorbell bit of any agent. -/
  | doorbellRing (i : Init) (page : Nat) (v : Word)
  /-- DOORBELL_CLEAR (R454): A W1C write to an agent's own DB_PEND clears doorbell bits. -/
  | doorbellClear (i : Init) (page : Nat) (v : Word) (events : Word)
  /-- DOORBELL_MASK_WRITE (R455): A write of DB_MASK changes which pending bits assert the agent's doorbell. -/
  | doorbellMaskWrite (i : Init) (page : Nat) (v : Word)
  /-- HOST_EPOCH_BUMP (R451): A write of XCH_HOSTRST.BUMP advances the host epoch. -/
  | hostEpochBump (i : Init)
  /-- ERROR_QUEUE_READ (R472): A read of MEM_ERRQ0 removes the oldest error entry and latches its address and stamp. -/
  | errorQueueRead (i : Init)
  /-- SCRUB_READ (R473): The scrubber reads and checks the next granule of its pass. -/
  | scrubRead (addr : Nat) (upsets : List Upset)
  /-- SCRUB_PASS_END (R473): A scrub period ends, counting the pass or setting LATE. -/
  | scrubPassEnd (ended : Bool)
  /-- BANK_POWER_REQUEST (R476): A write of a bank's PWR moves it to RET, OFF or towards ON. -/
  | bankPowerRequest (i : Init) (k : Fin 96) (v : Word)
  /-- BANK_WAKE_COMPLETE (R476): 1.5 us after a wake the bank returns to ON. -/
  | bankWakeComplete (k : Fin 96)
  /-- BANK_INIT_COMPLETE (R476): Power-up and zeroing of a bank end and it enters ON. -/
  | bankInitComplete (k : Fin 96)
  /-- AUTO_RETENTION (R477): A bank idle for MEM_RETIDLE cycles with AUTORET enters RET. -/
  | autoRetention (k : Fin 96)
  /-- BANK_TEST (R479): TEST starts a March C- test of a bank in ON. -/
  | bankTest (i : Init) (k : Fin 96)
  /-- BANK_TEST_COMPLETE (R479): A bank test ends: the bank is zeroed, returns to ON and TESTRES is written. -/
  | bankTestComplete (k : Fin 96) (pass : Bool)
  /-- BANK_RETIRE (R480): RETIRE powers a bank off into RETIRED after granted accesses complete. -/
  | bankRetire (i : Init) (k : Fin 96)
  /-- MRAM_WRITE_COMPLETE (R481): A posted MRAM granule write completes after 200 ns. -/
  | mramWriteComplete
  /-- DDR_TRAIN (R484): TRAIN starts DRAM training. -/
  | ddrTrain (i : Init)
  /-- DDR_TRAINING_COMPLETE (R484): Training ends with READY or TRAINERR. -/
  | ddrTrainingComplete (ok : Bool)
  /-- DDR_INIT (R485): INIT starts zeroing the DRAM in ascending order. -/
  | ddrInit (i : Init)
  /-- DDR_INIT_COMPLETE (R485): Zeroing of the installed size ends and INITDONE is set. -/
  | ddrInitComplete
  /-- DDR_REFRESH (R484): Every tREFI the controller issues an all-bank refresh. -/
  | ddrRefresh
  /-- DDR_ZQ_CALIBRATION (R484): Every 128 ms the controller issues ZQ short calibration. -/
  | ddrZqCalibration
  /-- DDR_DQS_TRACKING (R484): Every 1 ms the controller tracks read DQS drift. -/
  | ddrDqsTracking
  /-- DDR_SEGMENT_RETIRE (R486): A write of MEM_DDR_RSEGk retires a 1 MB DRAM segment or is refused. -/
  | ddrSegmentRetire (i : Init) (k : Fin 16) (v : Word)
  /-- OUTBOUND_ACCESS (R494): An outbound window access is decoded and enters the BPO queue, completing at once if posted. -/
  | outboundAccess (i : Init) (op : Access)
  /-- BUS_ACQUIRED (R495): The bridge obtains the far bus and starts the head access's far cycles. -/
  | busAcquired
  /-- FAR_ACKNOWLEDGE (R491): A far acknowledge ends a far cycle and completes the access or starts its next cycle. -/
  | farAcknowledge (d : List Byte)
  /-- FAR_BERR (R496): A far BERR ends the access with an error and a log entry. -/
  | farBerr
  /-- ACK_TIMEOUT (R495): No far acknowledge within ACKTMO ends the access with cause 2. -/
  | ackTimeout
  /-- OWN_TIMEOUT (R495): No bus ownership within OWNTMO ends the access with cause 3. -/
  | ownTimeout
  /-- LOCK_TIMEOUT (R498): A locked sequence open for LCKTMO ends with cause 5. -/
  | lockTimeout
  /-- PREFETCH_EXPIRY (R497): A prefetched block held 2 us or invalidated by a write is dropped and counted if unused. -/
  | prefetchExpiry (w : Fin 16)
  /-- BUS_CLEAR_IN (R495): BCLR or another request makes the bridge release the bus after the current access. -/
  | busClearIn (bclr : Bool)
  /-- HOLD_REQUEST_IN (R495): A hold request on P1 or P2 makes the bridge yield after the current cycle. -/
  | holdRequestIn
  /-- HOLD_REQUEST_END (R495): The end of a hold request lets the bridge reclaim the bus. -/
  | holdRequestEnd
  /-- BPB_ABORT (R499): GO aborts the head access before its commit point or reports TOO_LATE or IDLE. -/
  | bpbAbort (i : Init)
  /-- INBOUND_ACCESS (R500): A far access matching an inbound window is accepted and carried to memory. -/
  | inboundAccess (am : BitVec 6) (op : Access)
  /-- INBOUND_WRITE_COMPLETE (R501): A buffered inbound write completes at its target and rings the window's doorbell. -/
  | inboundWriteComplete
  /-- BUS_REQUEST_IN (R503): As system controller the device arbitrates a bus request and drives the grant chain. -/
  | busRequestIn (req : BitVec 4) (busy : Bool)
  /-- BUS_TIMER_EXPIRY (R503): As system controller the device asserts BERR on a data strobe unacknowledged for BTO. -/
  | busTimerExpiry
  /-- SYSRST (R504): CTL.SYSRST drives BB_SYSRESET_N for 200 ms. -/
  | sysrst (i : Init)
  /-- SYSRESET_PULSE_END (R504): The 200 ms SYSRESET pulse ends. -/
  | sysresetPulseEnd
  /-- SYSRESET_IN (R504): SYSRESET asserted by another board aborts the far cycle and releases the bus until deassertion. -/
  | sysresetIn (on : Bool)
  /-- POLL_DUE (R505): A poll entry falling due enters the queue ahead of waiting accesses. -/
  | pollDue (k : Fin 64)
  /-- IRQ_LINE_ASSERTED (R506): An armed interrupt line low for 3 samples is served by an IACK cycle and logged. -/
  | irqLineAsserted (l : Fin 8)
  /-- IRQ_REARM (R506): A write of ARM re-arms an interrupt line. -/
  | irqRearm (i : Init) (v : Word)
  /-- IACK_IN (R507): An IACK reaching the device is answered with its vector or passed on. -/
  | iackIn (l : Fin 8)
  /-- WINDOW_ENABLE (R513): Setting EN of a window or poll entry enables it or is refused with a code. -/
  | windowEnable (i : Init) (w : BpbWin) (v : Word)
  /-- LOG_RD_WRITE (R508): A write of an error- or vector-log RD index frees entries. -/
  | logRdWrite (i : Init) (vector : Bool) (v : Word)
  /-- BPB_BLKRST (R510): BLKRST performs the bridge partial reset. -/
  | bpbBlkrst (i : Init)
  /-- SAFETY_CYCLE_START (R519): At each 500 us safety cycle start EV1 fires, seal switches are read and status is posted. -/
  | safetyCycleStart
  /-- COMPUTATION_TICK (R519): The 250 us tick raises EV1 for computation 2. -/
  | computationTick
  /-- FIELD_LINK_FRAME_SEND (R520): Every 10 us each end sends a frame, with the transmit area in every fifth. -/
  | fieldLinkFrameSend (w : Option FldWorld)
  /-- FIELD_LINK_FRAME (R522): A received field-link frame is checked and its safety, encoder and identity content used. -/
  | fieldLinkFrame (up intact : Bool) (ident : Option FldIdent) (offset : Option Int)
  /-- FIELD_LINK_TIMEOUT (R523): No valid safety exchange for 150 us switches outputs off or raises HOLD cause 5. -/
  | fieldLinkTimeout (die : Bool)
  /-- LANE_STUCK (R523): A lane constant for 2 us drops the link and is a permanent fault. -/
  | laneStuck (l : Fin 4)
  /-- LINK_RETRAIN (R524): Every 1 ms after a loss the link tries to retrain. -/
  | linkRetrain
  /-- CHECKPOINT (R517): A write of MON_CHK compares PFSIG with the signature table. -/
  | checkpoint (core : Fin 2) (k : BitVec 6)
  /-- WATCHDOG_EXPIRY (R517): Checkpoint 0 or 63 missing by its deadline raises HOLD cause 2. -/
  | watchdogExpiry (k63 : Bool)
  /-- MON_MRA_WRITE (R517): A write of MON_MRA starts an MRAM read returned in MON_MRD. -/
  | monMraWrite (core : Fin 2) (v : Word)
  /-- MON_FAIL (R517): A nonzero write of MON_FAIL latches HOLD cause 11. -/
  | monFail (core : Fin 2) (v : Word)
  /-- INPUT_SAMPLE (R525): Every 10 us the field die samples the safe inputs and filters them. -/
  | inputSample (raw : BitVec 16)
  /-- DISCREPANCY_TIMEOUT (R530): A pair differing longer than DISC faults both inputs. -/
  | discrepancyTimeout (k : Fin 8)
  /-- TEST_PULSE_START (R526): A sensor supply is switched off for its test pulse. -/
  | testPulseStart (j : Fin 4)
  /-- TEST_DROP_SAMPLE (R527): At pulse start plus DROP the assigned inputs are checked for stuck-high and cross-shorts. -/
  | testDropSample (j : Fin 4) (raw : BitVec 16)
  /-- TEST_PULSE_END (R526): A sensor supply is switched on again after PW. -/
  | testPulseEnd (j : Fin 4)
  /-- SUPPLY_OVERLOAD (R526): A supply above 250 mA for 1 ms is switched off and flagged. -/
  | supplyOverload (j : Fin 4)
  /-- SUPPLY_RETRY (R526): Once a second an overloaded supply retries. -/
  | supplyRetry (j : Fin 4)
  /-- OUTPUT_READBACK (R532): Every 10 us output read-back detects stuck-on or short-circuit. -/
  | outputReadback (levels : BitVec 2)
  /-- OUTPUT_TEST_PULSE (R532): With OPT an on output is switched off for 200 us every 20 ms. -/
  | outputTestPulse (m : Fin 2) (high : Bool)
  /-- PARAMETER_CHECK (R543): In BOOT and every 10 s both copies of the selected set are read and judged. -/
  | parameterCheck
  /-- SEAL_LOOP_PULSE (R547): Every 4 s the seal watch pulses the loop and latches a break. -/
  | sealLoopPulse (returned : Bool)
  /-- VBAT_LOSS (R547): VBAT falling below 1.6 V latches VBAT-loss. -/
  | vbatLoss
  /-- PSET_LOAD (R550): PSET_LOAD stages, checks and writes a parameter set to both copies. -/
  | psetLoad
  /-- PSET_CONFIRM (R550): PSET_CONFIRM marks a set confirmed if its CRC matches. -/
  | psetConfirm
  /-- RUN_PERMIT (R550): RUN_PERMIT grants or withdraws the run permission. -/
  | runPermit
  /-- SEAL_ACK (R550): SEAL_ACK clears the seal-break latch. -/
  | sealAck
  /-- REACT_RESET (R550): REACT_RESET clears reaction, input, supply and output latches whose cause is gone. -/
  | reactReset
  /-- HOLD_ACK (R550): HOLD_ACK clears the Cupola HOLD latch once its cause is gone. -/
  | holdAck
  /-- FW_LOAD (R555): FW_LOAD copies, verifies and loads new firmware into the standby core. -/
  | fwLoad
  /-- FW_TAKEOVER (R556): FW_TAKEOVER copies the active state block to the standby core. -/
  | fwTakeover
  /-- TAKEOVER_SWITCH (R556): At the next cycle boundary the standby core becomes active. -/
  | takeoverSwitch
  /-- CUPOLA_QUERY (R550): QUERY returns the island's current status word. -/
  | cupolaQuery
  /-- ORDER_COPY (R552): The Keep carries out a COPY order into the safety area and replies. -/
  | orderCopy
  /-- ORDER_REPLY (R552): A reply in MBX125 closes the write window and starts verification. -/
  | orderReply
  /-- ORDER_TIMEOUT (R552): 50 ms without a reply closes the safety write window. -/
  | orderTimeout
  /-- STANDBY_SELF_TEST (R554): Every 10 minutes the standby core is self-tested. -/
  | standbySelfTest
  /-- STANDBY_TEST_COMPLETE (R554): The standby self-test ends, setting or clearing STBYRDY. -/
  | standbyTestComplete (pass : Bool)
  /-- CLOCK_CHECK (R557): Every 50 us CK_SAFE is compared with CK_FAB. -/
  | clockCheck (dev : BitVec 16)
  /-- FIELD_DIE_SELF_TEST (R557): Every 1 ms the field die tests supply, reference, ADC and counter. -/
  | fieldDieSelfTest (pass : Bool)
  /-- VIGIL_EVENT (R571): A reported error is counted against its resource and queued. -/
  | vigilEvent (ecode : Fin 16) (res : BitVec 16) (addr : Word) (detail : Word)
  /-- VIGIL_CLASSIFY (R564): Vigil classifies a queued event and starts its response. -/
  | vigilClassify
  /-- EVQ_READ (R574): A Keep read of VIG_EVQ0 removes the oldest event and latches its words. -/
  | evqRead (i : Init)
  /-- READMIT (R575): READMIT removes a resource from the retirement record in COMMISSION. -/
  | readmit (i : Init) (res : BitVec 16)
  /-- COMMISSION_REQUEST (R580): A mode request of COMMISSION is accepted or refused. -/
  | commissionRequest (i : Init) (key : BitVec 8)
  /-- RUN_REQUEST (R580): A mode request of RUN is accepted in COMMISSION when all conditions hold. -/
  | runRequest (i : Init) (key : BitVec 8)
  /-- BOOT_START (R585): Reset release starts BOOT: clocks, tests, image copy and verification. -/
  | bootStart (w : BootWorld)
  /-- BOOT_COMPLETE (R581): Boot completes and the mode controller chooses the next mode. -/
  | bootComplete (us : Word)
  /-- HANDSHAKE_TIMEOUT (R581): The field-die handshake failing for 150 ms ends it and raises HOLD cause 5. -/
  | handshakeTimeout
  /-- RECOVERY_GO (R589): SYS_RECOV GO verifies a recovery container and continues boot. -/
  | recoveryGo (i : Init) (len : BitVec 23) (trained : Bool)
  /-- PROG (R588): PROG programs a key slot from the staged hash. -/
  | keyProg (i : Init) (slot : Fin 4) (key : BitVec 8)
  /-- REVOKE (R588): REVOKE revokes a key slot. -/
  | keyRevoke (i : Init) (slot : Fin 4) (key : BitVec 8)
  /-- RBADV (R588): RBADV raises the rollback counter to the running image's SVN. -/
  | keyAdvance (i : Init) (key : BitVec 8)
  /-- KEY_OP_COMPLETE (R588): A fuse operation ends after at most 10 ms and clears BUSY. -/
  | keyOpComplete
  /-- POWER_ON_RESET (R590): All supplies in range for 2 ms with PORESET_N high release power-on reset into BOOT. -/
  | powerOnReset
  /-- SYSTEM_RESET (R590): RESET_N, SYSRST or clock failure resets the logic die into BOOT. -/
  | systemReset (src : ResetSrc)
  /-- PCIE_RESET (R590): PERST_N, hot reset or link-down resets the endpoint and advances the host epoch. -/
  | pcieReset
  /-- KEEP_RESET (R590): A Keep double fault, watchdog expiry or failed update resets the Keep. -/
  | keepReset (c : KeepCause)
  /-- KWD (R591): A Keep write of SYS_KWD services the Keep watchdog. -/
  | kwd (i : Init)
  /-- KEEP_WATCHDOG_EXPIRY (R591): No SYS_KWD write for 10 ms resets the Keep. -/
  | keepWatchdogExpiry
  /-- TOWER_RESET (R591): A write of SYS_TW_RST resets the named towers or is refused. -/
  | towerReset (i : Init) (v : Word)
  /-- FIELD_DIE_RESET (R606): VF24 leaving or re-entering its range resets the field die and switches outputs off. -/
  | fieldDieReset (inRange : Bool)
  /-- SUPPLY_LOSS (R595): A monitored supply leaving its range signals the MRAM and holds the logic die in reset. -/
  | supplyLoss (rails : BitVec 8)
  /-- CLOCK_FAILURE (R593): Crystal or PLL loss is detected and leads to a system reset. -/
  | clockFailure (c : ClockSrc)
  /-- DOMAIN_OFF_REQUEST (R596): A PWR_PD_CTL off request switches a domain off or is refused. -/
  | domainOffRequest (i : Init) (d : Fin 6)
  /-- DOMAIN_ON_REQUEST (R596): A PWR_PD_CTL on request powers a domain up. -/
  | domainOnRequest (i : Init) (d : Fin 6)
  /-- DOMAIN_SWITCH_COMPLETE (R596): A domain finishes switching and its registers, banks and engines take their initial states. -/
  | domainSwitchComplete (d : Fin 6)
  /-- EXTEST (R614): The JTAG EXTEST instruction drives pins from the boundary register while reset is held. -/
  | jtagExtest (held : Bool) (capture : List Bool) (update : List Bool)
  /-- SAMPLE_PRELOAD (R614): The JTAG SAMPLE/PRELOAD instruction samples and preloads the boundary register. -/
  | jtagSamplePreload (capture : List Bool) (update : List Bool)
  /-- IDCODE (R614): The JTAG IDCODE instruction selects the identification register. -/
  | jtagIdcode
  /-- HIGHZ (R614): The JTAG HIGHZ instruction floats the outputs while reset is held. -/
  | jtagHighz (held : Bool)
  /-- CLAMP (R614): The JTAG CLAMP instruction holds the outputs from the boundary register while reset is held. -/
  | jtagClamp (held : Bool)
  /-- BYPASS (R614): The JTAG BYPASS instruction selects the one-bit bypass register. -/
  | jtagBypass
  /-- CODE_GROUP_ALIGNMENT (R311): A Campanile receive pair of the node or of a star branch gains or loses code-group alignment, which updates CTB_STAT.SYNCA/SYNCB or BFY_BRb_STAT.SYNC. -/
  | codeGroupAlignment (star : Bool) (n : Fin 17) (on : Bool)
  /-- PCIE_LINK_UP (R44): The PCIe link completes training, after reset release or after a link-down, and the endpoint begins answering configuration requests. -/
  | pcieLinkUp (speed : Fin 3) (x2 : Bool)
  /-- PCIE_CONFIGURATION_REQUEST (R34): A host configuration request reads or writes the endpoint's configuration space, such as the BARs, MSI-X Enable and Function Mask, or the power state. -/
  | pcieConfigurationRequest (r : PcieCfg)
  /-- INVALID_WORD (R421): A Carillon sequencer decodes an OP of 0xA-0xF, a reserved field value or a nonzero must-be-zero field and halts with ERRC 1. -/
  | invalidWord (c : Fin 8) (q : Fin 4)
  /-- LPI_RECEIVED (R304): The link partner starts or stops signalling low-power idle, which sets or clears ETHp_STAT.LPIRX. -/
  | lpiReceived (p : Fin 6) (on : Bool)
  /-- LPI_WAKE (R304): The transmit path leaves LPI by itself once a timed frame, or a gate opening by a handed action, comes within TW + 2 us. -/
  | lpiWake (p : Fin 6)
  /-- TIMED_FRAME_FETCH (R294): TXCFG.TLEAD before its launch time, the DMA fetches a timed frame's data into the transmit FIFO as space allows. -/
  | timedFrameFetch (p : Fin 6) (q : Fin 8)
deriving DecidableEq, Repr

end Sys2Proof
end

