-- ==== Sys2Proof/Decode.lean ====
section
/-! DEFINITION. The decoding of a word by the bits of the opcode table.
Choices of the model: log entries 99. -/

set_option autoImplicit false

namespace Sys2Proof

/-- The command that a word spells: the table gives no row any bits, so no word spells a command. -/
def decodeTableWord (_nbits _w : Nat) : Option Instr := none

end Sys2Proof
end

