-- ==== Sys2Proof/Config.lean ====
section
/-! DEFINITION. What an implementation fixes and the specification leaves open: identity fuses, and the free values. Every
constant is opaque: no proof can see its value.
Choices of the model: log entries 24, 25, 26, 53. -/

set_option autoImplicit false

namespace Sys2Proof.Config

/-- Temperature grade fuse, SYS_PART_ID.GRADE (R13, R14). -/
opaque grade : BitVec 4

/-- Logic die identity fuses SYS_LD_LOT, SYS_LD_POS, SYS_LD_DATE (R13, R14); the reserved bits are masked where they are
read. -/
opaque ldLot : Word
opaque ldPos : Word
opaque ldDate : Word

/-- Spare column pairs in use, per bank: tower banks 0-63, central banks 64-95, exchange banks 96-97 (R478). -/
opaque spares : Nat → Nat

/-- The free value of number `n`: the value an event leaves where the specification does not state it. -/
opaque freeWord : Nat → Word

/-- A free yes or no. -/
opaque freeBool : Nat → Bool

/-- Word `w` of a program store whose content a test has destroyed (R168), by the number of the event. -/
opaque freeProg : Nat → Nat → PWord

/-- The syndrome code of an error (R472: a code of the implementation, nonzero), before it is made nonzero. -/
opaque syndrome : Nat → Nat → Nat

/-- Word `k` of the SHA-256 digest of bytes (R587 step 2): FIPS 180-4, not written out here. -/
opaque digest : List Byte → Nat → Word

/-- Whether the ECDSA P-256 signature of a container verifies (R587 step 4): FIPS 186-4, not written out here. -/
opaque signatureValid : List Byte → Bool

/-- Word `w` of the key hash fused into slot `k` at factory test (R588). -/
opaque factoryHash : Nat → Nat → Word

end Sys2Proof.Config
end

