-- ==== Sys2Proof/Machine/Cells.lean ====
section
/-! DEFINITION. Sparse tables in one canonical form (memory, register words, per-instance records), bit fields of register
words, byte order, and the CRC and T32 helpers that several blocks use. -/

set_option autoImplicit false

namespace Sys2Proof.Machine

/-! ### Sparse tables -/

/-- A sparse table: (key, value) pairs. Its canonical form (`Tbl.wf`) has strictly rising keys and no value equal to what an
unlisted key reads as. -/
abbrev Tbl (α : Type) := List (Nat × α)

/-- What key `k` reads as: its entry, or the default `d k` where none is listed. -/
def Tbl.get {α : Type} (d : Nat → α) : Tbl α → Nat → α
  | [], k => d k
  | (k', v) :: t, k => if k' = k then v else Tbl.get d t k

/-- Drops every entry of key `k`. -/
def Tbl.drop {α : Type} : Tbl α → Nat → Tbl α
  | [], _ => []
  | (k', v) :: t, k => if k' = k then Tbl.drop t k else (k', v) :: Tbl.drop t k

/-- Puts value `v` at key `k`, in key order. -/
def Tbl.ins {α : Type} : Tbl α → Nat → α → Tbl α
  | [], k, v => [(k, v)]
  | (k', v') :: t, k, v =>
    if k < k' then (k, v) :: (k', v') :: t
    else if k' = k then (k, v) :: t
    else (k', v') :: Tbl.ins t k v

/-- Writes value `v` at key `k`; writing the default removes the entry. -/
def Tbl.set {α : Type} [DecidableEq α] (d : Nat → α) (t : Tbl α) (k : Nat) (v : α) : Tbl α :=
  if v = d k then t.drop k else t.ins k v

/-- Removes every entry whose key `p` selects: those keys read their default again. -/
def Tbl.clear {α : Type} (p : Nat → Bool) (t : Tbl α) : Tbl α := t.filter fun e => !p e.1

/-- The canonical form: keys strictly rising, no listed value equal to the default. -/
abbrev Tbl.wf {α : Type} (d : Nat → α) (t : Tbl α) : Prop :=
  t.Pairwise (fun a b => a.1 < b.1) ∧ ∀ e ∈ t, e.2 ≠ d e.1

/-! ### Bit fields of a register word -/

/-- A field of a register: its lowest bit and its width. -/
structure Fld where
  lo : Nat
  width : Nat
deriving DecidableEq, Repr

/-- The bits of a field, in place. -/
def Fld.mask (f : Fld) : Word := BitVec.ofNat 32 ((2 ^ f.width - 1) * 2 ^ f.lo)

/-- The value of a field. -/
def Fld.get (f : Fld) (w : Word) : Nat := bitsOf w.toNat f.lo f.width

/-- The word with field `f` set to `v` (its low bits), every other bit kept. -/
def Fld.put (f : Fld) (w : Word) (v : Nat) : Word :=
  (w &&& ~~~f.mask) ||| BitVec.ofNat 32 (v % 2 ^ f.width * 2 ^ f.lo)

/-! ### Rows of the register map -/

/-- One register (or array of registers) of an offset table: base address, up to three dimensions (count, stride), reset
value and its step per first index, and the bits with access RW, RWQ, W1C, RC, and those that read 0 (WO, W1S). -/
structure RegRow where
  base : Nat
  n1 : Nat
  s1 : Nat
  n2 : Nat
  s2 : Nat
  n3 : Nat
  s3 : Nat
  rst : Nat
  rinc : Nat
  rw : Nat
  rwq : Nat
  w1c : Nat
  rc : Nat
  wo : Nat
deriving DecidableEq, Repr

/-- Whether the row lists the register at address `a`. -/
def RegRow.holds (r : RegRow) (a : Nat) : Bool :=
  let o := a - r.base
  Nat.ble r.base a && Nat.blt (o / r.s1) r.n1 && Nat.blt (o % r.s1 / r.s2) r.n2 &&
    Nat.blt (o % r.s1 % r.s2 / r.s3) r.n3 && (o % r.s1 % r.s2 % r.s3 == 0)

/-- The reset value of the row's register at `a`. -/
def RegRow.resetAt (r : RegRow) (a : Nat) : Word := BitVec.ofNat 32 (r.rst + (a - r.base) / r.s1 * r.rinc)

/-! ### Bytes and words (R5) -/

/-- The `n` bytes of a number, lowest first. -/
def toBytes (v : Nat) : Nat → List Byte
  | 0 => []
  | n + 1 => BitVec.ofNat 8 v :: toBytes (v / 256) n

/-- The number that bytes spell, lowest first. -/
def ofBytes : List Byte → Nat
  | [] => 0
  | b :: t => b.toNat + 256 * ofBytes t

/-- The value of a signed field of `w` bits. -/
def signedOf (n w : Nat) : Int := if n < 2 ^ (w - 1) then (n : Int) else (n : Int) - 2 ^ w

/-- A number as a two's-complement 32-bit word. -/
def wordOfInt (x : Int) : Word := BitVec.ofInt 32 x

/-! ### CRC-32C in the algorithm of CRCS with INV = 1 (R141, R171) -/

/-- One bit of the reflected CRC with polynomial `p`. -/
def crcBit (p c : Word) : Word := if c.getLsbD 0 then (c >>> 1) ^^^ p else c >>> 1

/-- One byte folded into a reflected CRC. -/
def crcByte (p : Word) (c : Word) (b : Byte) : Word :=
  let x := c ^^^ (b.zeroExtend 32)
  crcBit p (crcBit p (crcBit p (crcBit p (crcBit p (crcBit p (crcBit p (crcBit p x)))))))

/-- The CRC-32C polynomial, bit-reflected. -/
def polyC : Word := 0x82F63B78#32

/-- CRC-32C over bytes, initial value and final XOR 0xFFFF_FFFF. -/
def crc32c (bs : List Byte) : Word := ~~~(bs.foldl (crcByte polyC) (~~~(0#32)))

/-- The reversal of the 8 bits of a byte. -/
def revByte (b : Byte) : Byte :=
  BitVec.ofNat 8 (bitsOf b.toNat 0 1 * 128 + bitsOf b.toNat 1 1 * 64 + bitsOf b.toNat 2 1 * 32 + bitsOf b.toNat 3 1 * 16 +
    bitsOf b.toNat 4 1 * 8 + bitsOf b.toNat 5 1 * 4 + bitsOf b.toNat 6 1 * 2 + bitsOf b.toNat 7 1)

/-! ### Counters -/

/-- A counter of `w` bits that saturates (R9). -/
def satAdd (w n k : Nat) : Nat := min (n + k) (2 ^ w - 1)

end Sys2Proof.Machine
end

