-- ==== Sys2Proof/Machine/Regs.lean ====
section
/-! DEFINITION. The register map of the device: the address of every register (R30 and the offset tables of the chapters), the
places of their fields, and one row per register with its reset value and its access masks (R7, R8). -/

set_option autoImplicit false

namespace Sys2Proof.Machine

/-! ### SYS -/

/-- SYS_PART_ID (00, R14). -/
abbrev SYS_PART_ID : Nat := 0x60000000

/-- SYS_LD_LOT (00, R14). -/
abbrev SYS_LD_LOT : Nat := 0x60000004

/-- SYS_LD_POS (00, R14). -/
abbrev SYS_LD_POS : Nat := 0x60000008

/-- SYS_LD_DATE (00, R14). -/
abbrev SYS_LD_DATE : Nat := 0x6000000C

/-- SYS_ID_STAT (00, R14). -/
abbrev SYS_ID_STAT : Nat := 0x60000010

/-- SYS_HOST_BPAP (01, R39). -/
abbrev SYS_HOST_BPAP : Nat := 0x60000040

/-- SYS_Ete_MPU_CTL (02, R103). -/
abbrev SYS_E_MPU_CTL (te : Nat) : Nat := 0x60001100 + 0x100 * te

/-- SYS_Ete_MPUn_BASE (02, R103). -/
abbrev SYS_E_MPU_BASE (te : Nat) (n : Nat) : Nat := 0x60001108 + 0x100 * te + 8 * n

/-- SYS_Ete_MPUn_ATTR (02, R103). -/
abbrev SYS_E_MPU_ATTR (te : Nat) (n : Nat) : Nat := 0x6000110C + 0x100 * te + 8 * n

/-- SYS_Ete_CTL (04, R161). -/
abbrev SYS_E_CTL (te : Nat) : Nat := 0x60001080 + 0x100 * te

/-- SYS_Ete_STAT (04, R161). -/
abbrev SYS_E_STAT (te : Nat) : Nat := 0x60001084 + 0x100 * te

/-- SYS_Ete_PC (04, R161). -/
abbrev SYS_E_PC (te : Nat) : Nat := 0x60001088 + 0x100 * te

/-- SYS_Ete_EXC (04, R161). -/
abbrev SYS_E_EXC (te : Nat) : Nat := 0x6000108C + 0x100 * te

/-- SYS_Ete_EPOCH (04, R161). -/
abbrev SYS_E_EPOCH (te : Nat) : Nat := 0x60001090 + 0x100 * te

/-- SYS_Ete_ECC (04, R161). -/
abbrev SYS_E_ECC (te : Nat) : Nat := 0x60001094 + 0x100 * te

/-- SYS_Ete_SNAPA (04, R161). -/
abbrev SYS_E_SNAPA (te : Nat) : Nat := 0x60001098 + 0x100 * te

/-- SYS_LDR_SRC (04, R171). -/
abbrev SYS_LDR_SRC : Nat := 0x60000F00

/-- SYS_LDR_DST (04, R171). -/
abbrev SYS_LDR_DST : Nat := 0x60000F04

/-- SYS_LDR_LEN (04, R171). -/
abbrev SYS_LDR_LEN : Nat := 0x60000F08

/-- SYS_LDR_CTL (04, R171). -/
abbrev SYS_LDR_CTL : Nat := 0x60000F0C

/-- SYS_LDR_STAT (04, R171). -/
abbrev SYS_LDR_STAT : Nat := 0x60000F10

/-- SYS_LDR_CRC (04, R171). -/
abbrev SYS_LDR_CRC : Nat := 0x60000F14

/-- SYS_LDR_RCRC (04, R171). -/
abbrev SYS_LDR_RCRC : Nat := 0x60000F18

/-- SYS_MODE (18, R583). -/
abbrev SYS_MODE : Nat := 0x60000100

/-- SYS_MODE_REQ (18, R583). -/
abbrev SYS_MODE_REQ : Nat := 0x60000104

/-- SYS_MODE_RES (18, R583). -/
abbrev SYS_MODE_RES : Nat := 0x60000108

/-- SYS_MODE_EVT (18, R583). -/
abbrev SYS_MODE_EVT : Nat := 0x6000010C

/-- SYS_HOLDPOL (18, R583). -/
abbrev SYS_HOLDPOL : Nat := 0x60000110

/-- SYS_BOOT_STAT (18, R620). -/
abbrev SYS_BOOT_STAT : Nat := 0x60000120

/-- SYS_BOOT_TIME (18, R620). -/
abbrev SYS_BOOT_TIME : Nat := 0x60000124

/-- SYS_BOOTCNT (18, R620). -/
abbrev SYS_BOOTCNT : Nat := 0x60000128

/-- SYS_RECOV (18, R620). -/
abbrev SYS_RECOV : Nat := 0x6000012C

/-- SYS_KEY_STAT (18, R620). -/
abbrev SYS_KEY_STAT : Nat := 0x60000140

/-- SYS_KEY_CTL (18, R620). -/
abbrev SYS_KEY_CTL : Nat := 0x60000144

/-- SYS_KEY_HASHk (18, R620). -/
abbrev SYS_KEY_HASH (k : Nat) : Nat := 0x60000160 + 4 * k

/-- SYS_RST_CTL (18, R591). -/
abbrev SYS_RST_CTL : Nat := 0x60000130

/-- SYS_RST_CAUSE (18, R591). -/
abbrev SYS_RST_CAUSE : Nat := 0x60000134

/-- SYS_TW_RST (18, R591). -/
abbrev SYS_TW_RST : Nat := 0x60000138

/-- SYS_KWD (18, R591). -/
abbrev SYS_KWD : Nat := 0x6000013C


/-! ### VIG -/

/-- VIG_CTL (17, R576). -/
abbrev VIG_CTL : Nat := 0x60010000

/-- VIG_STAT (17, R576). -/
abbrev VIG_STAT : Nat := 0x60010004

/-- VIG_DEGR (17, R576). -/
abbrev VIG_DEGR : Nat := 0x60010008

/-- VIG_HOLDC (17, R576). -/
abbrev VIG_HOLDC : Nat := 0x6001000C

/-- VIG_EVQ0 (17, R576). -/
abbrev VIG_EVQ0 : Nat := 0x60010010

/-- VIG_EVQ1 (17, R576). -/
abbrev VIG_EVQ1 : Nat := 0x60010014

/-- VIG_EVQ2 (17, R576). -/
abbrev VIG_EVQ2 : Nat := 0x60010018

/-- VIG_EVQ3 (17, R576). -/
abbrev VIG_EVQ3 : Nat := 0x6001001C

/-- VIG_EVQ_LOST (17, R576). -/
abbrev VIG_EVQ_LOST : Nat := 0x60010020

/-- VIG_LOGSEQ (17, R576). -/
abbrev VIG_LOGSEQ : Nat := 0x60010024

/-- VIG_LOGLOST (17, R576). -/
abbrev VIG_LOGLOST : Nat := 0x60010028

/-- VIG_EVT (17, R576). -/
abbrev VIG_EVT : Nat := 0x6001002C

/-- VIG_RSEL (17, R576). -/
abbrev VIG_RSEL : Nat := 0x60010030

/-- VIG_RINFO (17, R576). -/
abbrev VIG_RINFO : Nat := 0x60010034

/-- VIG_READMIT (17, R576). -/
abbrev VIG_READMIT : Nat := 0x60010038

/-- VIG_READMIT_STAT (17, R576). -/
abbrev VIG_READMIT_STAT : Nat := 0x6001003C

/-- VIG_RET_ENG (17, R576). -/
abbrev VIG_RET_ENG : Nat := 0x60010040

/-- VIG_RET_TBj (17, R576). -/
abbrev VIG_RET_TB (j : Nat) : Nat := 0x60010044 + 4 * j

/-- VIG_RET_CB (17, R576). -/
abbrev VIG_RET_CB : Nat := 0x6001004C

/-- VIG_RET_MISC (17, R576). -/
abbrev VIG_RET_MISC : Nat := 0x60010050

/-- VIG_RET_CAR (17, R576). -/
abbrev VIG_RET_CAR : Nat := 0x60010054


/-! ### PLM -/

/-- PLM_ID (05, R199). -/
abbrev PLM_ID : Nat := 0x60020000

/-- PLM_STAT (05, R199). -/
abbrev PLM_STAT : Nat := 0x60020004

/-- PLM_CFG (05, R199). -/
abbrev PLM_CFG : Nat := 0x60020008

/-- PLM_RSV (05, R199). -/
abbrev PLM_RSV : Nat := 0x6002000C

/-- PLM_RSVSTAT (05, R199). -/
abbrev PLM_RSVSTAT : Nat := 0x60020010

/-- PLM_LXBASE (05, R199). -/
abbrev PLM_LXBASE : Nat := 0x60020014

/-- PLM_LXSIZE (05, R199). -/
abbrev PLM_LXSIZE : Nat := 0x60020018

/-- PLM_KIMGA (05, R199). -/
abbrev PLM_KIMGA : Nat := 0x6002001C

/-- PLM_KIMGL (05, R199). -/
abbrev PLM_KIMGL : Nat := 0x60020020

/-- PLM_KVER (05, R199). -/
abbrev PLM_KVER : Nat := 0x60020024

/-- PLM_CNT_MIG (05, R199). -/
abbrev PLM_CNT_MIG : Nat := 0x60020028

/-- PLM_CNT_AUD (05, R199). -/
abbrev PLM_CNT_AUD : Nat := 0x6002002C

/-- PLM_CNT_AUDF (05, R199). -/
abbrev PLM_CNT_AUDF : Nat := 0x60020030

/-- PLM_CNT_SKIP (05, R199). -/
abbrev PLM_CNT_SKIP : Nat := 0x60020034

/-- PLM_ENGn (05, R199). -/
abbrev PLM_ENG (n : Nat) : Nat := 0x60020100 + 4 * n

/-- PLM_TBANKm (05, R199). -/
abbrev PLM_TBANK (m : Nat) : Nat := 0x60020200 + 4 * m

/-- PLM_CBANKb (05, R199). -/
abbrev PLM_CBANK (b : Nat) : Nat := 0x60020300 + 4 * b

/-- PLM_DESCc (05, R199). -/
abbrev PLM_DESC (c : Nat) (w : Nat) : Nat := 0x60021000 + 0x80 * c + 4 * w

/-- PLM_RESc (05, R199). -/
abbrev PLM_RES (c : Nat) (w : Nat) : Nat := 0x60023000 + 0x40 * c + 4 * w

/-- PLM_BDECLu (05, R199). -/
abbrev PLM_BDECL (u : Nat) (w : Nat) : Nat := 0x60024000 + 8 * u + 4 * w

/-- PLM_BRESu (05, R199). -/
abbrev PLM_BRES (u : Nat) (w : Nat) : Nat := 0x60024800 + 8 * u + 4 * w


/-! ### ALM -/

/-- ALM_CTL (06, R268). -/
abbrev ALM_CTL : Nat := 0x60040000

/-- ALM_STAT (06, R268). -/
abbrev ALM_STAT : Nat := 0x60040004

/-- ALM_TCn_CTL (06, R268). -/
abbrev ALM_TC_CTL (n : Nat) : Nat := 0x60040100 + 0x40 * n

/-- ALM_TCn_STAT (06, R268). -/
abbrev ALM_TC_STAT (n : Nat) : Nat := 0x60040104 + 0x40 * n

/-- ALM_TCn_NOW0 (06, R268). -/
abbrev ALM_TC_NOW0 (n : Nat) : Nat := 0x60040108 + 0x40 * n

/-- ALM_TCn_NOW1 (06, R268). -/
abbrev ALM_TC_NOW1 (n : Nat) : Nat := 0x6004010C + 0x40 * n

/-- ALM_TCn_NOW2 (06, R268). -/
abbrev ALM_TC_NOW2 (n : Nat) : Nat := 0x60040110 + 0x40 * n

/-- ALM_TCn_T32 (06, R268). -/
abbrev ALM_TC_T32 (n : Nat) : Nat := 0x60040114 + 0x40 * n

/-- ALM_TCn_RATE (06, R268). -/
abbrev ALM_TC_RATE (n : Nat) : Nat := 0x60040118 + 0x40 * n

/-- ALM_TCn_STEPNS (06, R268). -/
abbrev ALM_TC_STEPNS (n : Nat) : Nat := 0x6004011C + 0x40 * n

/-- ALM_TCn_STEPS (06, R268). -/
abbrev ALM_TC_STEPS (n : Nat) : Nat := 0x60040120 + 0x40 * n

/-- ALM_TCn_SLEW (06, R268). -/
abbrev ALM_TC_SLEW (n : Nat) : Nat := 0x60040124 + 0x40 * n

/-- ALM_TCn_SET0 (06, R268). -/
abbrev ALM_TC_SET0 (n : Nat) : Nat := 0x60040128 + 0x40 * n

/-- ALM_TCn_SET1 (06, R268). -/
abbrev ALM_TC_SET1 (n : Nat) : Nat := 0x6004012C + 0x40 * n

/-- ALM_TCn_SET2 (06, R268). -/
abbrev ALM_TC_SET2 (n : Nat) : Nat := 0x60040130 + 0x40 * n

/-- ALM_PTC0 (06, R268). -/
abbrev ALM_PTC0 : Nat := 0x60040200

/-- ALM_PTC1 (06, R268). -/
abbrev ALM_PTC1 : Nat := 0x60040204

/-- ALM_PTCORG0 (06, R268). -/
abbrev ALM_PTCORG0 : Nat := 0x60040208

/-- ALM_PTCORG1 (06, R268). -/
abbrev ALM_PTCORG1 : Nat := 0x6004020C

/-- ALM_PTCORG2 (06, R268). -/
abbrev ALM_PTCORG2 : Nat := 0x60040210

/-- ALM_XS_CTL (06, R268). -/
abbrev ALM_XS_CTL : Nat := 0x60040300

/-- ALM_XS_SEQ (06, R268). -/
abbrev ALM_XS_SEQ : Nat := 0x60040304

/-- ALM_XS_PTC0 (06, R268). -/
abbrev ALM_XS_PTC0 : Nat := 0x60040308

/-- ALM_XS_PTC1 (06, R268). -/
abbrev ALM_XS_PTC1 : Nat := 0x6004030C

/-- ALM_XS_TCn_0 (06, R268). -/
abbrev ALM_XS_TC_0 (n : Nat) : Nat := 0x60040310 + 0x10 * n

/-- ALM_XS_TCn_1 (06, R268). -/
abbrev ALM_XS_TC_1 (n : Nat) : Nat := 0x60040314 + 0x10 * n

/-- ALM_XS_TCn_2 (06, R268). -/
abbrev ALM_XS_TC_2 (n : Nat) : Nat := 0x60040318 + 0x10 * n

/-- ALM_ANGn_CTL (06, R268). -/
abbrev ALM_ANG_CTL (n : Nat) : Nat := 0x60040400 + 0x40 * n

/-- ALM_ANGn_CPR (06, R268). -/
abbrev ALM_ANG_CPR (n : Nat) : Nat := 0x60040404 + 0x40 * n

/-- ALM_ANGn_ZOFS (06, R268). -/
abbrev ALM_ANG_ZOFS (n : Nat) : Nat := 0x60040408 + 0x40 * n

/-- ALM_ANGn_VMIN (06, R268). -/
abbrev ALM_ANG_VMIN (n : Nat) : Nat := 0x6004040C + 0x40 * n

/-- ALM_ANGn_ANG (06, R268). -/
abbrev ALM_ANG_ANG (n : Nat) : Nat := 0x60040410 + 0x40 * n

/-- ALM_ANGn_REV (06, R268). -/
abbrev ALM_ANG_REV (n : Nat) : Nat := 0x60040414 + 0x40 * n

/-- ALM_ANGn_VEL (06, R268). -/
abbrev ALM_ANG_VEL (n : Nat) : Nat := 0x60040418 + 0x40 * n

/-- ALM_ANGn_ACC (06, R268). -/
abbrev ALM_ANG_ACC (n : Nat) : Nat := 0x6004041C + 0x40 * n

/-- ALM_ANGn_STAT (06, R268). -/
abbrev ALM_ANG_STAT (n : Nat) : Nat := 0x60040420 + 0x40 * n

/-- ALM_ANGn_REVSET (06, R268). -/
abbrev ALM_ANG_REVSET (n : Nat) : Nat := 0x60040424 + 0x40 * n

/-- ALM_ANGn_TSTAMP (06, R268). -/
abbrev ALM_ANG_TSTAMP (n : Nat) : Nat := 0x60040428 + 0x40 * n

/-- ALM_LIN_CTL (06, R268). -/
abbrev ALM_LIN_CTL : Nat := 0x60040480

/-- ALM_LIN_CNT0 (06, R268). -/
abbrev ALM_LIN_CNT0 : Nat := 0x60040484

/-- ALM_LIN_CNT1 (06, R268). -/
abbrev ALM_LIN_CNT1 : Nat := 0x60040488

/-- ALM_LIN_SET0 (06, R268). -/
abbrev ALM_LIN_SET0 : Nat := 0x6004048C

/-- ALM_LIN_SET1 (06, R268). -/
abbrev ALM_LIN_SET1 : Nat := 0x60040490

/-- ALM_LIN_STAT (06, R268). -/
abbrev ALM_LIN_STAT : Nat := 0x60040494

/-- ALM_LIN_TSTAMP (06, R268). -/
abbrev ALM_LIN_TSTAMP : Nat := 0x60040498

/-- ALM_MNS_CTL (06, R268). -/
abbrev ALM_MNS_CTL : Nat := 0x600404C0

/-- ALM_MNS_STAT (06, R268). -/
abbrev ALM_MNS_STAT : Nat := 0x600404C4

/-- ALM_MNS_PHASE (06, R268). -/
abbrev ALM_MNS_PHASE : Nat := 0x600404C8

/-- ALM_MNS_CYC (06, R268). -/
abbrev ALM_MNS_CYC : Nat := 0x600404CC

/-- ALM_MNS_TZC (06, R268). -/
abbrev ALM_MNS_TZC : Nat := 0x600404D0

/-- CAL_STAT (06, R268). -/
abbrev CAL_STAT : Nat := 0x60040600

/-- CAL_FIRED (06, R268). -/
abbrev CAL_FIRED : Nat := 0x60040604

/-- CAL_LATE (06, R268). -/
abbrev CAL_LATE : Nat := 0x60040608

/-- ALM_CAP_CTL (06, R268). -/
abbrev ALM_CAP_CTL : Nat := 0x60040700

/-- ALM_CAP_WR (06, R268). -/
abbrev ALM_CAP_WR : Nat := 0x60040704

/-- ALM_CAP_RD (06, R268). -/
abbrev ALM_CAP_RD : Nat := 0x60040708

/-- ALM_CAP_LOST (06, R268). -/
abbrev ALM_CAP_LOST : Nat := 0x6004070C

/-- ALM_CAP_FL0 (06, R268). -/
abbrev ALM_CAP_FL0 : Nat := 0x60040710

/-- ALM_CAP_FL1 (06, R268). -/
abbrev ALM_CAP_FL1 : Nat := 0x60040714

/-- ALM_CAP_FL2 (06, R268). -/
abbrev ALM_CAP_FL2 : Nat := 0x60040718

/-- ALM_CAP_SW (06, R268). -/
abbrev ALM_CAP_SW : Nat := 0x6004071C

/-- CAL_W (06, R251). -/
abbrev CAL_W (k : Nat) (w : Nat) : Nat := 0x60050000 + 0x20 * k + 4 * w

/-- ALM_CAPLOG (06, R265). -/
abbrev ALM_CAPLOG (k : Nat) (w : Nat) : Nat := 0x60048000 + 0x10 * k + 4 * w


/-! ### CAR -/

/-- CARc_CTL (11, R429). -/
abbrev CAR_CTL (c : Nat) : Nat := 0x60060000 + 0x1000 * c

/-- CARc_PINOUT (11, R429). -/
abbrev CAR_PINOUT (c : Nat) : Nat := 0x60060004 + 0x1000 * c

/-- CARc_PINDIR (11, R429). -/
abbrev CAR_PINDIR (c : Nat) : Nat := 0x60060008 + 0x1000 * c

/-- CARc_PININ (11, R429). -/
abbrev CAR_PININ (c : Nat) : Nat := 0x6006000C + 0x1000 * c

/-- CARc_HFLAG (11, R429). -/
abbrev CAR_HFLAG (c : Nat) : Nat := 0x60060010 + 0x1000 * c

/-- CARc_PROGw (11, R429). -/
abbrev CAR_PROG (c : Nat) (w : Nat) : Nat := 0x60060100 + 0x1000 * c + 4 * w

/-- CARc_SEQs_CFG (11, R429). -/
abbrev CAR_SEQ_CFG (c : Nat) (s : Nat) : Nat := 0x60060200 + 0x1000 * c + 0x80 * s

/-- CARc_SEQs_OMASK (11, R429). -/
abbrev CAR_SEQ_OMASK (c : Nat) (s : Nat) : Nat := 0x60060204 + 0x1000 * c + 0x80 * s

/-- CARc_SEQs_IMASK (11, R429). -/
abbrev CAR_SEQ_IMASK (c : Nat) (s : Nat) : Nat := 0x60060208 + 0x1000 * c + 0x80 * s

/-- CARc_SEQs_SMASK (11, R429). -/
abbrev CAR_SEQ_SMASK (c : Nat) (s : Nat) : Nat := 0x6006020C + 0x1000 * c + 0x80 * s

/-- CARc_SEQs_STAT (11, R429). -/
abbrev CAR_SEQ_STAT (c : Nat) (s : Nat) : Nat := 0x60060210 + 0x1000 * c + 0x80 * s

/-- CARc_SEQs_EXEC (11, R429). -/
abbrev CAR_SEQ_EXEC (c : Nat) (s : Nat) : Nat := 0x60060214 + 0x1000 * c + 0x80 * s

/-- CARc_SEQs_W0 (11, R429). -/
abbrev CAR_SEQ_W0 (c : Nat) (s : Nat) : Nat := 0x60060218 + 0x1000 * c + 0x80 * s

/-- CARc_SEQs_W1 (11, R429). -/
abbrev CAR_SEQ_W1 (c : Nat) (s : Nat) : Nat := 0x6006021C + 0x1000 * c + 0x80 * s

/-- CARc_SEQs_W2 (11, R429). -/
abbrev CAR_SEQ_W2 (c : Nat) (s : Nat) : Nat := 0x60060220 + 0x1000 * c + 0x80 * s

/-- CARc_SEQs_W3 (11, R429). -/
abbrev CAR_SEQ_W3 (c : Nat) (s : Nat) : Nat := 0x60060224 + 0x1000 * c + 0x80 * s

/-- CARc_SEQs_TXW (11, R429). -/
abbrev CAR_SEQ_TXW (c : Nat) (s : Nat) : Nat := 0x60060228 + 0x1000 * c + 0x80 * s

/-- CARc_SEQs_RXW (11, R429). -/
abbrev CAR_SEQ_RXW (c : Nat) (s : Nat) : Nat := 0x6006022C + 0x1000 * c + 0x80 * s

/-- CARc_SEQs_PTR (11, R429). -/
abbrev CAR_SEQ_PTR (c : Nat) (s : Nat) : Nat := 0x60060230 + 0x1000 * c + 0x80 * s

/-- CARc_SEQs_TXF (11, R429). -/
abbrev CAR_SEQ_TXF (c : Nat) (s : Nat) : Nat := 0x60060234 + 0x1000 * c + 0x80 * s

/-- CARc_SEQs_RXF (11, R429). -/
abbrev CAR_SEQ_RXF (c : Nat) (s : Nat) : Nat := 0x60060238 + 0x1000 * c + 0x80 * s

/-- CARc_SEQs_QMARK (11, R429). -/
abbrev CAR_SEQ_QMARK (c : Nat) (s : Nat) : Nat := 0x6006023C + 0x1000 * c + 0x80 * s

/-- CARc_SEQs_EVT (11, R429). -/
abbrev CAR_SEQ_EVT (c : Nat) (s : Nat) : Nat := 0x60060240 + 0x1000 * c + 0x80 * s

/-- CARc_SEQs_ATT0 (11, R429). -/
abbrev CAR_SEQ_ATT0 (c : Nat) (s : Nat) : Nat := 0x60060244 + 0x1000 * c + 0x80 * s

/-- CARc_SEQs_ATT1 (11, R429). -/
abbrev CAR_SEQ_ATT1 (c : Nat) (s : Nat) : Nat := 0x60060248 + 0x1000 * c + 0x80 * s

/-- CARc_SEQs_ATLATE (11, R429). -/
abbrev CAR_SEQ_ATLATE (c : Nat) (s : Nat) : Nat := 0x6006024C + 0x1000 * c + 0x80 * s

/-- CARc_SEQs_MVTXA (11, R429). -/
abbrev CAR_SEQ_MVTXA (c : Nat) (s : Nat) : Nat := 0x60060250 + 0x1000 * c + 0x80 * s

/-- CARc_SEQs_MVTXN (11, R429). -/
abbrev CAR_SEQ_MVTXN (c : Nat) (s : Nat) : Nat := 0x60060254 + 0x1000 * c + 0x80 * s

/-- CARc_SEQs_MVRXA (11, R429). -/
abbrev CAR_SEQ_MVRXA (c : Nat) (s : Nat) : Nat := 0x60060258 + 0x1000 * c + 0x80 * s

/-- CARc_SEQs_MVRXN (11, R429). -/
abbrev CAR_SEQ_MVRXN (c : Nat) (s : Nat) : Nat := 0x6006025C + 0x1000 * c + 0x80 * s

/-- CARc_SEQs_MVCTL (11, R429). -/
abbrev CAR_SEQ_MVCTL (c : Nat) (s : Nat) : Nat := 0x60060260 + 0x1000 * c + 0x80 * s

/-- CARc_SEQs_MVSTAT (11, R429). -/
abbrev CAR_SEQ_MVSTAT (c : Nat) (s : Nat) : Nat := 0x60060264 + 0x1000 * c + 0x80 * s

/-- CAR_COM_MAPc (11, R430). -/
abbrev CAR_COM_MAP (c : Nat) : Nat := 0x60068000 + 4 * c

/-- CAR_COM_STAT (11, R430). -/
abbrev CAR_COM_STAT : Nat := 0x60068020

/-- CAR_COM_BANK (11, R430). -/
abbrev CAR_COM_BANK : Nat := 0x60068024

/-- CAR_COM_PIN0 (11, R430). -/
abbrev CAR_COM_PIN0 : Nat := 0x60068028

/-- CAR_COM_PIN1 (11, R430). -/
abbrev CAR_COM_PIN1 : Nat := 0x6006802C


/-! ### ETH -/

/-- ETH_LANEl_CTL (04, R188). -/
abbrev ETH_LANE_CTL (l : Nat) : Nat := 0x60088400 + 0x40 * l

/-- ETH_LANEl_STAT (04, R188). -/
abbrev ETH_LANE_STAT (l : Nat) : Nat := 0x60088404 + 0x40 * l

/-- ETH_LANEl_RXTS (04, R188). -/
abbrev ETH_LANE_RXTS (l : Nat) : Nat := 0x60088408 + 0x40 * l

/-- ETH_LANEl_RXTSID (04, R188). -/
abbrev ETH_LANE_RXTSID (l : Nat) : Nat := 0x6008840C + 0x40 * l

/-- ETH_LANEl_FWD (04, R188). -/
abbrev ETH_LANE_FWD (l : Nat) : Nat := 0x60088410 + 0x40 * l

/-- ETH_LANEl_CUT (04, R188). -/
abbrev ETH_LANE_CUT (l : Nat) : Nat := 0x60088414 + 0x40 * l

/-- ETH_LANEl_OVR (04, R188). -/
abbrev ETH_LANE_OVR (l : Nat) : Nat := 0x60088418 + 0x40 * l

/-- ETH_LANEl_SEQERR (04, R188). -/
abbrev ETH_LANE_SEQERR (l : Nat) : Nat := 0x6008841C + 0x40 * l

/-- ETH_LANEl_UNDR (04, R188). -/
abbrev ETH_LANE_UNDR (l : Nat) : Nat := 0x60088420 + 0x40 * l

/-- ETH_LANEl_DROP (04, R188). -/
abbrev ETH_LANE_DROP (l : Nat) : Nat := 0x60088424 + 0x40 * l

/-- ETH_LANEl_CMPP (04, R188). -/
abbrev ETH_LANE_CMPP (l : Nat) : Nat := 0x60088428 + 0x40 * l

/-- ETH_LANEl_CMPS (04, R188). -/
abbrev ETH_LANE_CMPS (l : Nat) : Nat := 0x6008842C + 0x40 * l

/-- ETHp_CTL (07, R272). -/
abbrev ETH_CTL (p : Nat) : Nat := 0x60080000 + 0x1000 * p

/-- ETHp_STAT (07, R272). -/
abbrev ETH_STAT (p : Nat) : Nat := 0x60080004 + 0x1000 * p

/-- ETHp_TSCFG (07, R272). -/
abbrev ETH_TSCFG (p : Nat) : Nat := 0x60080008 + 0x1000 * p

/-- ETHp_RXCFG (07, R272). -/
abbrev ETH_RXCFG (p : Nat) : Nat := 0x6008000C + 0x1000 * p

/-- ETHp_PAUSE (07, R272). -/
abbrev ETH_PAUSE (p : Nat) : Nat := 0x60080010 + 0x1000 * p

/-- ETHp_EEE (07, R272). -/
abbrev ETH_EEE (p : Nat) : Nat := 0x60080014 + 0x1000 * p

/-- ETHp_DSCFG (07, R272). -/
abbrev ETH_DSCFG (p : Nat) : Nat := 0x60080018 + 0x1000 * p

/-- ETHp_TXCFG (07, R272). -/
abbrev ETH_TXCFG (p : Nat) : Nat := 0x6008001C + 0x1000 * p

/-- ETHp_CORRs (07, R272). -/
abbrev ETH_CORR (p : Nat) (s : Nat) : Nat := 0x60080100 + 0x1000 * p + 4 * s

/-- ETHp_GATE (07, R272). -/
abbrev ETH_GATE (p : Nat) : Nat := 0x60080500 + 0x1000 * p

/-- ETHp_PRE_CFG (07, R272). -/
abbrev ETH_PRE_CFG (p : Nat) : Nat := 0x60080504 + 0x1000 * p

/-- ETHp_PRE_STAT (07, R272). -/
abbrev ETH_PRE_STAT (p : Nat) : Nat := 0x60080508 + 0x1000 * p

/-- ETH_COM_CTL (07, R274). -/
abbrev ETH_COM_CTL : Nat := 0x60088000

/-- ETH_COM_SVC (07, R274). -/
abbrev ETH_COM_SVC : Nat := 0x60088004

/-- ETH_COM_MDIO_CTL (07, R274). -/
abbrev ETH_COM_MDIO_CTL : Nat := 0x60088010

/-- ETH_COM_MDIO_DATA (07, R274). -/
abbrev ETH_COM_MDIO_DATA : Nat := 0x60088014

/-- ETHp_TXQq_CFG (07, R284). -/
abbrev ETH_TXQ_CFG (p : Nat) (q : Nat) : Nat := 0x60080200 + 0x1000 * p + 0x40 * q

/-- ETHp_TXQq_BASE (07, R284). -/
abbrev ETH_TXQ_BASE (p : Nat) (q : Nat) : Nat := 0x60080204 + 0x1000 * p + 0x40 * q

/-- ETHp_TXQq_LEN (07, R284). -/
abbrev ETH_TXQ_LEN (p : Nat) (q : Nat) : Nat := 0x60080208 + 0x1000 * p + 0x40 * q

/-- ETHp_TXQq_HEAD (07, R284). -/
abbrev ETH_TXQ_HEAD (p : Nat) (q : Nat) : Nat := 0x6008020C + 0x1000 * p + 0x40 * q

/-- ETHp_TXQq_TAIL (07, R284). -/
abbrev ETH_TXQ_TAIL (p : Nat) (q : Nat) : Nat := 0x60080210 + 0x1000 * p + 0x40 * q

/-- ETHp_TXQq_STAT (07, R284). -/
abbrev ETH_TXQ_STAT (p : Nat) (q : Nat) : Nat := 0x60080214 + 0x1000 * p + 0x40 * q

/-- ETHp_TXQq_LTOL (07, R284). -/
abbrev ETH_TXQ_LTOL (p : Nat) (q : Nat) : Nat := 0x60080218 + 0x1000 * p + 0x40 * q

/-- ETHp_TXQq_CANCEL (07, R284). -/
abbrev ETH_TXQ_CANCEL (p : Nat) (q : Nat) : Nat := 0x6008021C + 0x1000 * p + 0x40 * q

/-- ETHp_TXQq_CSTAT (07, R284). -/
abbrev ETH_TXQ_CSTAT (p : Nat) (q : Nat) : Nat := 0x60080220 + 0x1000 * p + 0x40 * q

/-- ETHp_RXOK (07, R308). -/
abbrev ETH_RXOK (p : Nat) : Nat := 0x60080800 + 0x1000 * p

/-- ETHp_RXOCT (07, R308). -/
abbrev ETH_RXOCT (p : Nat) : Nat := 0x60080804 + 0x1000 * p

/-- ETHp_RXFCS (07, R308). -/
abbrev ETH_RXFCS (p : Nat) : Nat := 0x60080808 + 0x1000 * p

/-- ETHp_RXALN (07, R308). -/
abbrev ETH_RXALN (p : Nat) : Nat := 0x6008080C + 0x1000 * p

/-- ETHp_RXRUNT (07, R308). -/
abbrev ETH_RXRUNT (p : Nat) : Nat := 0x60080810 + 0x1000 * p

/-- ETHp_RXOVS (07, R308). -/
abbrev ETH_RXOVS (p : Nat) : Nat := 0x60080814 + 0x1000 * p

/-- ETHp_RXCLSD (07, R308). -/
abbrev ETH_RXCLSD (p : Nat) : Nat := 0x60080818 + 0x1000 * p

/-- ETHp_RXNOBUF (07, R308). -/
abbrev ETH_RXNOBUF (p : Nat) : Nat := 0x6008081C + 0x1000 * p

/-- ETHp_RXOVF (07, R308). -/
abbrev ETH_RXOVF (p : Nat) : Nat := 0x60080820 + 0x1000 * p

/-- ETHp_RXPAUSE (07, R308). -/
abbrev ETH_RXPAUSE (p : Nat) : Nat := 0x60080824 + 0x1000 * p

/-- ETHp_RXCTLX (07, R308). -/
abbrev ETH_RXCTLX (p : Nat) : Nat := 0x60080828 + 0x1000 * p

/-- ETHp_RXASMERR (07, R308). -/
abbrev ETH_RXASMERR (p : Nat) : Nat := 0x6008082C + 0x1000 * p

/-- ETHp_TXOK (07, R308). -/
abbrev ETH_TXOK (p : Nat) : Nat := 0x60080830 + 0x1000 * p

/-- ETHp_TXOCT (07, R308). -/
abbrev ETH_TXOCT (p : Nat) : Nat := 0x60080834 + 0x1000 * p

/-- ETHp_TXUNDR (07, R308). -/
abbrev ETH_TXUNDR (p : Nat) : Nat := 0x60080838 + 0x1000 * p

/-- ETHp_TXLATE (07, R308). -/
abbrev ETH_TXLATE (p : Nat) : Nat := 0x6008083C + 0x1000 * p

/-- ETHp_TXCXL (07, R308). -/
abbrev ETH_TXCXL (p : Nat) : Nat := 0x60080840 + 0x1000 * p

/-- ETHp_TXOVRUN (07, R308). -/
abbrev ETH_TXOVRUN (p : Nat) : Nat := 0x60080844 + 0x1000 * p

/-- ETHp_TXFRAG (07, R308). -/
abbrev ETH_TXFRAG (p : Nat) : Nat := 0x60080848 + 0x1000 * p

/-- ETHp_TXBUSERR (07, R308). -/
abbrev ETH_TXBUSERR (p : Nat) : Nat := 0x6008084C + 0x1000 * p

/-- ETHp_CALMISS (07, R308). -/
abbrev ETH_CALMISS (p : Nat) : Nat := 0x60080850 + 0x1000 * p

/-- ETHp_VERFAIL (07, R308). -/
abbrev ETH_VERFAIL (p : Nat) : Nat := 0x60080854 + 0x1000 * p

/-- ETHp_LPIENT (07, R308). -/
abbrev ETH_LPIENT (p : Nat) : Nat := 0x60080858 + 0x1000 * p

/-- ETHp_DSHIFT (07, R308). -/
abbrev ETH_DSHIFT (p : Nat) : Nat := 0x6008085C + 0x1000 * p

/-- ETHp_TXDESC (07, R308). -/
abbrev ETH_TXDESC (p : Nat) : Nat := 0x60080860 + 0x1000 * p

/-- ETHp_RXQr_CFG (07, R285). -/
abbrev ETH_RXQ_CFG (p : Nat) (r : Nat) : Nat := 0x60080400 + 0x1000 * p + 0x40 * r

/-- ETHp_RXQr_BASE (07, R285). -/
abbrev ETH_RXQ_BASE (p : Nat) (r : Nat) : Nat := 0x60080404 + 0x1000 * p + 0x40 * r

/-- ETHp_RXQr_LEN (07, R285). -/
abbrev ETH_RXQ_LEN (p : Nat) (r : Nat) : Nat := 0x60080408 + 0x1000 * p + 0x40 * r

/-- ETHp_RXQr_HEAD (07, R285). -/
abbrev ETH_RXQ_HEAD (p : Nat) (r : Nat) : Nat := 0x6008040C + 0x1000 * p + 0x40 * r

/-- ETHp_RXQr_TAIL (07, R285). -/
abbrev ETH_RXQ_TAIL (p : Nat) (r : Nat) : Nat := 0x60080410 + 0x1000 * p + 0x40 * r

/-- ETHp_RXQr_STAT (07, R285). -/
abbrev ETH_RXQ_STAT (p : Nat) (r : Nat) : Nat := 0x60080414 + 0x1000 * p + 0x40 * r

/-- ETH_RULE (07, R307). -/
abbrev ETH_RULE (p : Nat) (k : Nat) (w : Nat) : Nat := 0x60080600 + 0x1000 * p + 0x10 * k + 4 * w


/-! ### CTB -/

/-- CTB_CTL (08, R343). -/
abbrev CTB_CTL : Nat := 0x600C0000

/-- CTB_STAT (08, R343). -/
abbrev CTB_STAT : Nat := 0x600C0004

/-- CTB_NODE (08, R343). -/
abbrev CTB_NODE : Nat := 0x600C0008

/-- CTB_TIMING (08, R343). -/
abbrev CTB_TIMING : Nat := 0x600C000C

/-- CTB_SEG (08, R343). -/
abbrev CTB_SEG : Nat := 0x600C0010

/-- CTB_SGAP (08, R343). -/
abbrev CTB_SGAP : Nat := 0x600C0014

/-- CTB_STARTUP (08, R343). -/
abbrev CTB_STARTUP : Nat := 0x600C0018

/-- CTB_LEAPCFG (08, R343). -/
abbrev CTB_LEAPCFG : Nat := 0x600C001C

/-- CTB_EVT (08, R343). -/
abbrev CTB_EVT : Nat := 0x600C0020

/-- CTB_TSCFG (08, R343). -/
abbrev CTB_TSCFG : Nat := 0x600C0024

/-- CTB_SWITCH (08, R343). -/
abbrev CTB_SWITCH : Nat := 0x600C0028

/-- CTB_CYCNUM (08, R343). -/
abbrev CTB_CYCNUM : Nat := 0x600C002C

/-- CTB_CYCPOS (08, R343). -/
abbrev CTB_CYCPOS : Nat := 0x600C0030

/-- CTB_CFGERR (08, R343). -/
abbrev CTB_CFGERR : Nat := 0x600C0034

/-- CTB_LEAPCi (08, R343). -/
abbrev CTB_LEAPC (i : Nat) : Nat := 0x600C0040 + 4 * i

/-- CTB_LEAPSTAT (08, R343). -/
abbrev CTB_LEAPSTAT : Nat := 0x600C0060

/-- CTB_x_RXOK (08, R343). -/
abbrev CTB_CH_RXOK (x : Nat) : Nat := 0x600C0100 + 0x40 * x

/-- CTB_x_RXCODE (08, R343). -/
abbrev CTB_CH_RXCODE (x : Nat) : Nat := 0x600C0104 + 0x40 * x

/-- CTB_x_RXHCRC (08, R343). -/
abbrev CTB_CH_RXHCRC (x : Nat) : Nat := 0x600C0108 + 0x40 * x

/-- CTB_x_RXFCRC (08, R343). -/
abbrev CTB_CH_RXFCRC (x : Nat) : Nat := 0x600C010C + 0x40 * x

/-- CTB_x_RXSLOT (08, R343). -/
abbrev CTB_CH_RXSLOT (x : Nat) : Nat := 0x600C0110 + 0x40 * x

/-- CTB_x_CHLOSS (08, R343). -/
abbrev CTB_CH_CHLOSS (x : Nat) : Nat := 0x600C0114 + 0x40 * x

/-- CTB_x_ECHOMISS (08, R343). -/
abbrev CTB_CH_ECHOMISS (x : Nat) : Nat := 0x600C0118 + 0x40 * x

/-- CTB_x_TXOK (08, R343). -/
abbrev CTB_CH_TXOK (x : Nat) : Nat := 0x600C011C + 0x40 * x

/-- CTB_DISAGREE (08, R343). -/
abbrev CTB_DISAGREE : Nat := 0x600C0180

/-- CTB_TBLERR (08, R343). -/
abbrev CTB_TBLERR : Nat := 0x600C0184

/-- CTB_TXINCONS (08, R343). -/
abbrev CTB_TXINCONS : Nat := 0x600C0188

/-- CTB_TXNULL (08, R343). -/
abbrev CTB_TXNULL : Nat := 0x600C018C

/-- CTB_LEAPCLM (08, R343). -/
abbrev CTB_LEAPCLM : Nat := 0x600C0190

/-- CTB_LEAPLOST (08, R343). -/
abbrev CTB_LEAPLOST : Nat := 0x600C0194

/-- CTB_SWITCH_CNT (08, R343). -/
abbrev CTB_SWITCH_CNT : Nat := 0x600C0198

/-- CTB_STARTS (08, R343). -/
abbrev CTB_STARTS : Nat := 0x600C019C

/-- CTB_SYNCCFG (09, R355). -/
abbrev CTB_SYNCCFG : Nat := 0x600C0038

/-- CTB_SYNCSTAT (09, R355). -/
abbrev CTB_SYNCSTAT : Nat := 0x600C0064

/-- CTB_OFSCORR (09, R355). -/
abbrev CTB_OFSCORR : Nat := 0x600C0068

/-- CTB_RATECORR (09, R355). -/
abbrev CTB_RATECORR : Nat := 0x600C006C

/-- CTB_TC1CFG (09, R355). -/
abbrev CTB_TC1CFG : Nat := 0x600C0070

/-- CTB_GTPHASE (09, R355). -/
abbrev CTB_GTPHASE : Nat := 0x600C0074

/-- CTB_SYNCDLYn (09, R355). -/
abbrev CTB_SYNCDLY (n : Nat) : Nat := 0x600C0080 + 4 * n

/-- CTB_DEVk (09, R355). -/
abbrev CTB_DEV (k : Nat) : Nat := 0x600C00C0 + 4 * k

/-- CTB_OCSAT (09, R355). -/
abbrev CTB_OCSAT : Nat := 0x600C01A0

/-- CTB_RCSAT (09, R355). -/
abbrev CTB_RCSAT : Nat := 0x600C01A4

/-- CTB_SYNCLOSS (09, R355). -/
abbrev CTB_SYNCLOSS : Nat := 0x600C01A8

/-- CTB_DEVREJ (09, R355). -/
abbrev CTB_DEVREJ : Nat := 0x600C01AC

/-- CTB_TBL (08, R320). -/
abbrev CTB_TBL (t : Nat) (e : Nat) (w : Nat) : Nat := 0x600C8000 + 0x4000 * t + 0x10 * e + 4 * w


/-! ### BFY -/

/-- BFY_CTL (09, R369). -/
abbrev BFY_CTL : Nat := 0x600D0000

/-- BFY_STAT (09, R369). -/
abbrev BFY_STAT : Nat := 0x600D0004

/-- BFY_PORTMAP (09, R369). -/
abbrev BFY_PORTMAP : Nat := 0x600D0008

/-- BFY_GUARD (09, R369). -/
abbrev BFY_GUARD : Nat := 0x600D000C

/-- BFY_EVT (09, R369). -/
abbrev BFY_EVT : Nat := 0x600D0010

/-- BFY_SWITCH (09, R369). -/
abbrev BFY_SWITCH : Nat := 0x600D0014

/-- BFY_ISO (09, R369). -/
abbrev BFY_ISO : Nat := 0x600D0018

/-- BFY_REL (09, R369). -/
abbrev BFY_REL : Nat := 0x600D001C

/-- BFY_CFGERR (09, R369). -/
abbrev BFY_CFGERR : Nat := 0x600D0020

/-- BFY_CYCPOS (09, R369). -/
abbrev BFY_CYCPOS : Nat := 0x600D0024

/-- BFY_OFSCORR (09, R369). -/
abbrev BFY_OFSCORR : Nat := 0x600D0028

/-- BFY_RATECORR (09, R369). -/
abbrev BFY_RATECORR : Nat := 0x600D002C

/-- BFY_LOSS (09, R369). -/
abbrev BFY_LOSS : Nat := 0x600D0040

/-- BFY_ADOPT (09, R369). -/
abbrev BFY_ADOPT : Nat := 0x600D0044

/-- BFY_SWITCH_CNT (09, R369). -/
abbrev BFY_SWITCH_CNT : Nat := 0x600D0048

/-- BFY_BRb_CFG (09, R369). -/
abbrev BFY_BR_CFG (b : Nat) : Nat := 0x600D0100 + 0x20 * b

/-- BFY_BRb_RELAY (09, R369). -/
abbrev BFY_BR_RELAY (b : Nat) : Nat := 0x600D0104 + 0x20 * b

/-- BFY_BRb_CUT (09, R369). -/
abbrev BFY_BR_CUT (b : Nat) : Nat := 0x600D0108 + 0x20 * b

/-- BFY_BRb_TRUNC (09, R369). -/
abbrev BFY_BR_TRUNC (b : Nat) : Nat := 0x600D010C + 0x20 * b

/-- BFY_BRb_BLOCK (09, R369). -/
abbrev BFY_BR_BLOCK (b : Nat) : Nat := 0x600D0110 + 0x20 * b

/-- BFY_BRb_BRCODE (09, R369). -/
abbrev BFY_BR_BRCODE (b : Nat) : Nat := 0x600D0114 + 0x20 * b

/-- BFY_BRb_ISOCNT (09, R369). -/
abbrev BFY_BR_ISOCNT (b : Nat) : Nat := 0x600D0118 + 0x20 * b

/-- BFY_BRb_STAT (09, R369). -/
abbrev BFY_BR_STAT (b : Nat) : Nat := 0x600D011C + 0x20 * b

/-- BFY_TBL (09, R366). -/
abbrev BFY_TBL (t : Nat) (e : Nat) (w : Nat) : Nat := 0x600D8000 + 0x4000 * t + 0x10 * e + 4 * w


/-! ### CAN -/

/-- CANn_CTL (10, R403). -/
abbrev CAN_CTL (n : Nat) : Nat := 0x600E0000 + 0x1000 * n

/-- CANn_STAT (10, R403). -/
abbrev CAN_STAT (n : Nat) : Nat := 0x600E0004 + 0x1000 * n

/-- CANn_TNOM (10, R403). -/
abbrev CAN_TNOM (n : Nat) : Nat := 0x600E0008 + 0x1000 * n

/-- CANn_TFAST (10, R403). -/
abbrev CAN_TFAST (n : Nat) : Nat := 0x600E000C + 0x1000 * n

/-- CANn_SSP (10, R403). -/
abbrev CAN_SSP (n : Nat) : Nat := 0x600E0010 + 0x1000 * n

/-- CANn_RAMBASE (10, R403). -/
abbrev CAN_RAMBASE (n : Nat) : Nat := 0x600E0014 + 0x1000 * n

/-- CANn_RXL (10, R403). -/
abbrev CAN_RXL (n : Nat) : Nat := 0x600E0018 + 0x1000 * n

/-- CANn_ACC (10, R403). -/
abbrev CAN_ACC (n : Nat) : Nat := 0x600E001C + 0x1000 * n

/-- CANn_TSCFG (10, R403). -/
abbrev CAN_TSCFG (n : Nat) : Nat := 0x600E0020 + 0x1000 * n

/-- CANn_EVS (10, R403). -/
abbrev CAN_EVS (n : Nat) : Nat := 0x600E0024 + 0x1000 * n

/-- CANn_EVM (10, R403). -/
abbrev CAN_EVM (n : Nat) : Nat := 0x600E0028 + 0x1000 * n

/-- CANn_EVT (10, R403). -/
abbrev CAN_EVT (n : Nat) : Nat := 0x600E002C + 0x1000 * n

/-- CANn_ERR (10, R403). -/
abbrev CAN_ERR (n : Nat) : Nat := 0x600E0030 + 0x1000 * n

/-- CANn_LASTERR (10, R403). -/
abbrev CAN_LASTERR (n : Nat) : Nat := 0x600E0034 + 0x1000 * n

/-- CANn_MARK (10, R403). -/
abbrev CAN_MARK (n : Nat) : Nat := 0x600E0038 + 0x1000 * n

/-- CANn_RXSEQ (10, R403). -/
abbrev CAN_RXSEQ (n : Nat) : Nat := 0x600E003C + 0x1000 * n

/-- CANn_QAST (10, R403). -/
abbrev CAN_QAST (n : Nat) : Nat := 0x600E0040 + 0x1000 * n

/-- CANn_QARET (10, R403). -/
abbrev CAN_QARET (n : Nat) : Nat := 0x600E0044 + 0x1000 * n

/-- CANn_QBST (10, R403). -/
abbrev CAN_QBST (n : Nat) : Nat := 0x600E0048 + 0x1000 * n

/-- CANn_QBRET (10, R403). -/
abbrev CAN_QBRET (n : Nat) : Nat := 0x600E004C + 0x1000 * n

/-- CANn_CELLNEW0 (10, R403). -/
abbrev CAN_CELLNEW0 (n : Nat) : Nat := 0x600E0050 + 0x1000 * n

/-- CANn_CELLNEW1 (10, R403). -/
abbrev CAN_CELLNEW1 (n : Nat) : Nat := 0x600E0054 + 0x1000 * n

/-- CANn_TXGO (10, R403). -/
abbrev CAN_TXGO (n : Nat) : Nat := 0x600E0060 + 0x1000 * n

/-- CANn_TXSTOP (10, R403). -/
abbrev CAN_TXSTOP (n : Nat) : Nat := 0x600E0064 + 0x1000 * n

/-- CANn_TXDONE (10, R403). -/
abbrev CAN_TXDONE (n : Nat) : Nat := 0x600E0068 + 0x1000 * n

/-- CANn_TXFAIL (10, R403). -/
abbrev CAN_TXFAIL (n : Nat) : Nat := 0x600E006C + 0x1000 * n

/-- CANn_ROUTEk (10, R403). -/
abbrev CAN_ROUTE (n : Nat) (k : Nat) : Nat := 0x600E0070 + 0x1000 * n + 4 * k

/-- CANn_RXOK (10, R403). -/
abbrev CAN_RXOK (n : Nat) : Nat := 0x600E0080 + 0x1000 * n

/-- CANn_TXFRM (10, R403). -/
abbrev CAN_TXFRM (n : Nat) : Nat := 0x600E0084 + 0x1000 * n

/-- CANn_QALOST (10, R403). -/
abbrev CAN_QALOST (n : Nat) : Nat := 0x600E0088 + 0x1000 * n

/-- CANn_QBLOST (10, R403). -/
abbrev CAN_QBLOST (n : Nat) : Nat := 0x600E008C + 0x1000 * n

/-- CANn_TRNCNT (10, R403). -/
abbrev CAN_TRNCNT (n : Nat) : Nat := 0x600E0090 + 0x1000 * n

/-- CANn_RXDROP (10, R403). -/
abbrev CAN_RXDROP (n : Nat) : Nat := 0x600E0094 + 0x1000 * n

/-- CANn_ERRCNT (10, R403). -/
abbrev CAN_ERRCNT (n : Nat) : Nat := 0x600E0098 + 0x1000 * n

/-- CANn_PXCNT (10, R403). -/
abbrev CAN_PXCNT (n : Nat) : Nat := 0x600E009C + 0x1000 * n

/-- CANn_BOCNT (10, R403). -/
abbrev CAN_BOCNT (n : Nat) : Nat := 0x600E00A0 + 0x1000 * n

/-- CANn_CELLOVR (10, R403). -/
abbrev CAN_CELLOVR (n : Nat) : Nat := 0x600E00A4 + 0x1000 * n


/-! ### XCH -/

/-- XCH_Aa_MBXn (13, R453). -/
abbrev XCH_A_MBX (a : Nat) (n : Nat) : Nat := 0x60100000 + 0x800 * a + 4 * n

/-- XCH_Aa_LVSn (13, R453). -/
abbrev XCH_A_LVS (a : Nat) (n : Nat) : Nat := 0x60100200 + 0x800 * a + 4 * n

/-- XCH_Aa_SEMn (13, R453). -/
abbrev XCH_A_SEM (a : Nat) (n : Nat) : Nat := 0x60100300 + 0x800 * a + 4 * n

/-- XCH_Aa_DB_PEND (13, R453). -/
abbrev XCH_A_DB_PEND (a : Nat) : Nat := 0x60100400 + 0x800 * a

/-- XCH_Aa_DB_MASK (13, R453). -/
abbrev XCH_A_DB_MASK (a : Nat) : Nat := 0x60100404 + 0x800 * a

/-- XCH_Aa_DB_RING (13, R453). -/
abbrev XCH_A_DB_RING (a : Nat) : Nat := 0x60100408 + 0x800 * a

/-- XCH_Aa_LASTST (13, R453). -/
abbrev XCH_A_LASTST (a : Nat) : Nat := 0x6010040C + 0x800 * a

/-- XCH_Aa_RXFULLj (13, R453). -/
abbrev XCH_A_RXFULL (a : Nat) (j : Nat) : Nat := 0x60100410 + 0x800 * a + 4 * j

/-- XCH_Aa_TXFULLj (13, R453). -/
abbrev XCH_A_TXFULL (a : Nat) (j : Nat) : Nat := 0x60100420 + 0x800 * a + 4 * j

/-- XCH_Aa_LVSRXj (13, R453). -/
abbrev XCH_A_LVSRX (a : Nat) (j : Nat) : Nat := 0x60100430 + 0x800 * a + 4 * j

/-- XCH_Aa_EPOCH (13, R453). -/
abbrev XCH_A_EPOCH (a : Nat) : Nat := 0x60100438 + 0x800 * a

/-- XCH_MBXn_CFG (13, R453). -/
abbrev XCH_MBX_CFG (n : Nat) : Nat := 0x60118000 + 4 * n

/-- XCH_MBXn_STAT (13, R453). -/
abbrev XCH_MBX_STAT (n : Nat) : Nat := 0x60118200 + 4 * n

/-- XCH_MBXn_PEEK (13, R453). -/
abbrev XCH_MBX_PEEK (n : Nat) : Nat := 0x60118400 + 4 * n

/-- XCH_LVSn_CFG (13, R453). -/
abbrev XCH_LVS_CFG (n : Nat) : Nat := 0x60118600 + 4 * n

/-- XCH_LVSn_STAT (13, R453). -/
abbrev XCH_LVS_STAT (n : Nat) : Nat := 0x60118700 + 4 * n

/-- XCH_LVSn_PEEK (13, R453). -/
abbrev XCH_LVS_PEEK (n : Nat) : Nat := 0x60118800 + 4 * n

/-- XCH_SEMn_STAT (13, R453). -/
abbrev XCH_SEM_STAT (n : Nat) : Nat := 0x60118900 + 4 * n

/-- XCH_SEM_FREL (13, R453). -/
abbrev XCH_SEM_FREL : Nat := 0x60118A00

/-- XCH_EPOCHa (13, R453). -/
abbrev XCH_EPOCH (a : Nat) : Nat := 0x60118A10 + 4 * a

/-- XCH_HOSTRST (13, R453). -/
abbrev XCH_HOSTRST : Nat := 0x60118B00

/-- XCH_MBXREJ (13, R453). -/
abbrev XCH_MBXREJ : Nat := 0x60118B04

/-- XCH_LVSCOL (13, R453). -/
abbrev XCH_LVSCOL : Nat := 0x60118B08


/-! ### BPB -/

/-- BPB_CTL (15, R511). -/
abbrev BPB_CTL : Nat := 0x60120000

/-- BPB_STAT (15, R511). -/
abbrev BPB_STAT : Nat := 0x60120004

/-- BPB_TIM0 (15, R511). -/
abbrev BPB_TIM0 : Nat := 0x60120008

/-- BPB_TIM1 (15, R511). -/
abbrev BPB_TIM1 : Nat := 0x6012000C

/-- BPB_ARB (15, R511). -/
abbrev BPB_ARB : Nat := 0x60120010

/-- BPB_IRQCTL (15, R511). -/
abbrev BPB_IRQCTL : Nat := 0x60120014

/-- BPB_IRQVEC (15, R511). -/
abbrev BPB_IRQVEC : Nat := 0x60120018

/-- BPB_ABORT (15, R511). -/
abbrev BPB_ABORT : Nat := 0x6012001C

/-- BPB_EVT (15, R511). -/
abbrev BPB_EVT : Nat := 0x60120020

/-- BPB_ELOG_WR (15, R511). -/
abbrev BPB_ELOG_WR : Nat := 0x60120024

/-- BPB_ELOG_RD (15, R511). -/
abbrev BPB_ELOG_RD : Nat := 0x60120028

/-- BPB_ELOG_LOST (15, R511). -/
abbrev BPB_ELOG_LOST : Nat := 0x6012002C

/-- BPB_VLOG_WR (15, R511). -/
abbrev BPB_VLOG_WR : Nat := 0x60120030

/-- BPB_VLOG_RD (15, R511). -/
abbrev BPB_VLOG_RD : Nat := 0x60120034

/-- BPB_VLOG_LOST (15, R511). -/
abbrev BPB_VLOG_LOST : Nat := 0x60120038

/-- BPB_OBCNT (15, R511). -/
abbrev BPB_OBCNT : Nat := 0x60120040

/-- BPB_INCNT (15, R511). -/
abbrev BPB_INCNT : Nat := 0x60120044

/-- BPB_PFDISC (15, R511). -/
abbrev BPB_PFDISC : Nat := 0x60120048

/-- BPB_PFADDR (15, R511). -/
abbrev BPB_PFADDR : Nat := 0x6012004C

/-- BPB_PWLOST (15, R511). -/
abbrev BPB_PWLOST : Nat := 0x60120050

/-- BPB_YIELD (15, R511). -/
abbrev BPB_YIELD : Nat := 0x60120054

/-- BPB_OBw_BASE (15, R511). -/
abbrev BPB_OB_BASE (w : Nat) : Nat := 0x60120100 + 0x10 * w

/-- BPB_OBw_FAR (15, R511). -/
abbrev BPB_OB_FAR (w : Nat) : Nat := 0x60120104 + 0x10 * w

/-- BPB_OBw_ATTR (15, R511). -/
abbrev BPB_OB_ATTR (w : Nat) : Nat := 0x60120108 + 0x10 * w

/-- BPB_IBw_FAR (15, R511). -/
abbrev BPB_IB_FAR (w : Nat) : Nat := 0x60120200 + 0x10 * w

/-- BPB_IBw_TGT (15, R511). -/
abbrev BPB_IB_TGT (w : Nat) : Nat := 0x60120204 + 0x10 * w

/-- BPB_IBw_ATTR (15, R511). -/
abbrev BPB_IB_ATTR (w : Nat) : Nat := 0x60120208 + 0x10 * w

/-- BPB_POLL (15, R512). -/
abbrev BPB_POLL (k : Nat) (w : Nat) : Nat := 0x60120400 + 0x20 * k + 4 * w

/-- BPB_ELOG (15, R509). -/
abbrev BPB_ELOG (k : Nat) (w : Nat) : Nat := 0x60120C00 + 0x10 * k + 4 * w

/-- BPB_VLOG (15, R509). -/
abbrev BPB_VLOG (k : Nat) (w : Nat) : Nat := 0x60120D00 + 0x10 * k + 4 * w


/-! ### SGM -/

/-- SGM_CTL (12, R446). -/
abbrev SGM_CTL : Nat := 0x60140000

/-- SGM_STAT (12, R446). -/
abbrev SGM_STAT : Nat := 0x60140004

/-- SGM_TBASE0 (12, R446). -/
abbrev SGM_TBASE0 : Nat := 0x60140008

/-- SGM_TBASE1 (12, R446). -/
abbrev SGM_TBASE1 : Nat := 0x6014000C

/-- SGM_TWBASE (12, R446). -/
abbrev SGM_TWBASE : Nat := 0x60140010

/-- SGM_TRIG (12, R446). -/
abbrev SGM_TRIG : Nat := 0x60140014

/-- SGM_EVT (12, R446). -/
abbrev SGM_EVT : Nat := 0x60140018

/-- SGM_ERR (12, R446). -/
abbrev SGM_ERR : Nat := 0x6014001C

/-- SGM_RUNS (12, R446). -/
abbrev SGM_RUNS : Nat := 0x60140020

/-- SGM_ENTS (12, R446). -/
abbrev SGM_ENTS : Nat := 0x60140024

/-- SGM_MERGE (12, R446). -/
abbrev SGM_MERGE : Nat := 0x60140028

/-- SGM_ABORT (12, R446). -/
abbrev SGM_ABORT : Nat := 0x6014002C

/-- SGM_SKIPENT (12, R446). -/
abbrev SGM_SKIPENT : Nat := 0x60140030

/-- SGM_DBUSY (12, R446). -/
abbrev SGM_DBUSY : Nat := 0x60140034

/-- SGM_SATCNT (12, R446). -/
abbrev SGM_SATCNT : Nat := 0x60140038

/-- SGM_DISTRIG (12, R446). -/
abbrev SGM_DISTRIG : Nat := 0x6014003C

/-- SGM_PENDk (12, R446). -/
abbrev SGM_PEND (k : Nat) : Nat := 0x60140100 + 4 * k

/-- SGM_SATk (12, R446). -/
abbrev SGM_SAT (k : Nat) : Nat := 0x60141000 + 4 * k


/-! ### MEM -/

/-- MEM_FAB_TMO (14, R488). -/
abbrev MEM_FAB_TMO : Nat := 0x60160000

/-- MEM_FAB_TMOADDR (14, R488). -/
abbrev MEM_FAB_TMOADDR : Nat := 0x60160004

/-- MEM_FAB_TMORPN (14, R488). -/
abbrev MEM_FAB_TMORPN : Nat := 0x60160008

/-- MEM_ERRQ0 (14, R488). -/
abbrev MEM_ERRQ0 : Nat := 0x60160010

/-- MEM_ERRQ1 (14, R488). -/
abbrev MEM_ERRQ1 : Nat := 0x60160014

/-- MEM_ERRQ2 (14, R488). -/
abbrev MEM_ERRQ2 : Nat := 0x60160018

/-- MEM_ERRQ_LOST (14, R488). -/
abbrev MEM_ERRQ_LOST : Nat := 0x6016001C

/-- MEM_SCRUB_CTL (14, R488). -/
abbrev MEM_SCRUB_CTL : Nat := 0x60160020

/-- MEM_SCRUB_STAT (14, R488). -/
abbrev MEM_SCRUB_STAT : Nat := 0x60160024

/-- MEM_SCRUB_PASS (14, R488). -/
abbrev MEM_SCRUB_PASS : Nat := 0x60160028

/-- MEM_RETIDLE (14, R488). -/
abbrev MEM_RETIDLE : Nat := 0x60160030

/-- MEM_TBm_CTL (14, R488). -/
abbrev MEM_TB_CTL (m : Nat) : Nat := 0x60161000 + 0x10 * m

/-- MEM_TBm_STAT (14, R488). -/
abbrev MEM_TB_STAT (m : Nat) : Nat := 0x60161004 + 0x10 * m

/-- MEM_TBm_ECC (14, R488). -/
abbrev MEM_TB_ECC (m : Nat) : Nat := 0x60161008 + 0x10 * m

/-- MEM_CBb_CTL (14, R488). -/
abbrev MEM_CB_CTL (b : Nat) : Nat := 0x60161400 + 0x10 * b

/-- MEM_CBb_STAT (14, R488). -/
abbrev MEM_CB_STAT (b : Nat) : Nat := 0x60161404 + 0x10 * b

/-- MEM_CBb_ECC (14, R488). -/
abbrev MEM_CB_ECC (b : Nat) : Nat := 0x60161408 + 0x10 * b

/-- MEM_XBk_STAT (14, R488). -/
abbrev MEM_XB_STAT (k : Nat) : Nat := 0x60161604 + 0x10 * k

/-- MEM_XBk_ECC (14, R488). -/
abbrev MEM_XB_ECC (k : Nat) : Nat := 0x60161608 + 0x10 * k

/-- MEM_MRk_ECC (14, R488). -/
abbrev MEM_MR_ECC (k : Nat) : Nat := 0x60161708 + 0x10 * k

/-- MEM_DDR_CTL (14, R488). -/
abbrev MEM_DDR_CTL : Nat := 0x60162000

/-- MEM_DDR_STAT (14, R488). -/
abbrev MEM_DDR_STAT : Nat := 0x60162004

/-- MEM_DDR_CFG (14, R488). -/
abbrev MEM_DDR_CFG : Nat := 0x60162008

/-- MEM_DDR_TIM0 (14, R488). -/
abbrev MEM_DDR_TIM0 : Nat := 0x6016200C

/-- MEM_DDR_TIM1 (14, R488). -/
abbrev MEM_DDR_TIM1 : Nat := 0x60162010

/-- MEM_DDR_TIM2 (14, R488). -/
abbrev MEM_DDR_TIM2 : Nat := 0x60162014

/-- MEM_DDR_INITPTR (14, R488). -/
abbrev MEM_DDR_INITPTR : Nat := 0x60162018

/-- MEM_DDR_ECC (14, R488). -/
abbrev MEM_DDR_ECC : Nat := 0x6016201C

/-- MEM_DDR_RSEGk (14, R488). -/
abbrev MEM_DDR_RSEG (k : Nat) : Nat := 0x60162040 + 4 * k


/-! ### CUP -/

/-- CUP_STAT (16, R560). -/
abbrev CUP_STAT : Nat := 0x60180000

/-- CUP_SW (16, R560). -/
abbrev CUP_SW : Nat := 0x60180004

/-- CUP_SI (16, R560). -/
abbrev CUP_SI : Nat := 0x60180008

/-- CUP_SO (16, R560). -/
abbrev CUP_SO : Nat := 0x6018000C

/-- CUP_REACT (16, R560). -/
abbrev CUP_REACT : Nat := 0x60180010

/-- CUP_PSCRC (16, R560). -/
abbrev CUP_PSCRC : Nat := 0x60180014

/-- CUP_PSSEQ (16, R560). -/
abbrev CUP_PSSEQ : Nat := 0x60180018

/-- CUP_FWVER (16, R560). -/
abbrev CUP_FWVER : Nat := 0x6018001C

/-- CUP_AXn_POSL (16, R560). -/
abbrev CUP_AX_POSL (n : Nat) : Nat := 0x60180020 + 0x10 * n

/-- CUP_AXn_POSH (16, R560). -/
abbrev CUP_AX_POSH (n : Nat) : Nat := 0x60180024 + 0x10 * n

/-- CUP_AXn_VEL (16, R560). -/
abbrev CUP_AX_VEL (n : Nat) : Nat := 0x60180028 + 0x10 * n

/-- CUP_AXn_STAT (16, R560). -/
abbrev CUP_AX_STAT (n : Nat) : Nat := 0x6018002C + 0x10 * n

/-- CUP_CYCLE (16, R560). -/
abbrev CUP_CYCLE : Nat := 0x60180040

/-- CUP_TESTCYC (16, R560). -/
abbrev CUP_TESTCYC : Nat := 0x60180044


/-! ### FLD -/

/-- FLD_FD_LOT (00, R15). -/
abbrev FLD_FD_LOT : Nat := 0x601A0000

/-- FLD_FD_POS (00, R15). -/
abbrev FLD_FD_POS : Nat := 0x601A0004

/-- FLD_FD_DATE (00, R15). -/
abbrev FLD_FD_DATE : Nat := 0x601A0008

/-- FLD_FD_IDSTAT (00, R15). -/
abbrev FLD_FD_IDSTAT : Nat := 0x601A000C

/-- FLD_LINK (16, R561). -/
abbrev FLD_LINK : Nat := 0x601A0010

/-- FLD_BADFRM (16, R561). -/
abbrev FLD_BADFRM : Nat := 0x601A0014

/-- FLD_LOSS (16, R561). -/
abbrev FLD_LOSS : Nat := 0x601A0018

/-- FLD_ENV (16, R561). -/
abbrev FLD_ENV : Nat := 0x601A001C

/-- FLD_ENn_CFG (16, R561). -/
abbrev FLD_EN_CFG (n : Nat) : Nat := 0x601A0020 + 0x10 * n

/-- FLD_ENn_CPR (16, R561). -/
abbrev FLD_EN_CPR (n : Nat) : Nat := 0x601A0024 + 0x10 * n

/-- FLD_ENn_ABS (16, R561). -/
abbrev FLD_EN_ABS (n : Nat) : Nat := 0x601A0028 + 0x10 * n


/-! ### PWR -/

/-- PWR_PD_CTL (18, R597). -/
abbrev PWR_PD_CTL : Nat := 0x601C0000

/-- PWR_PD_STAT (18, R597). -/
abbrev PWR_PD_STAT : Nat := 0x601C0004

/-- PWR_CLK_STAT (18, R597). -/
abbrev PWR_CLK_STAT : Nat := 0x601C0008

/-- PWR_SUPPLY (18, R597). -/
abbrev PWR_SUPPLY : Nat := 0x601C000C


/-! ### Fields of the registers, as the field tables give them -/

def SYS_PART_ID_PART : Fld := ⟨0, 16⟩
def SYS_PART_ID_SREV : Fld := ⟨16, 4⟩
def SYS_PART_ID_GRADE : Fld := ⟨20, 4⟩
def SYS_PART_ID_FAMILY : Fld := ⟨24, 8⟩
def SYS_LD_LOT_LOT : Fld := ⟨0, 24⟩
def SYS_LD_LOT_WAFER : Fld := ⟨24, 5⟩
def SYS_LD_POS_DIE_X : Fld := ⟨0, 8⟩
def SYS_LD_POS_DIE_Y : Fld := ⟨8, 8⟩
def SYS_LD_POS_TEST_SITE : Fld := ⟨16, 4⟩
def SYS_LD_POS_DIE_REV : Fld := ⟨20, 4⟩
def SYS_LD_DATE_WEEK : Fld := ⟨0, 8⟩
def SYS_LD_DATE_YEAR : Fld := ⟨8, 8⟩
def SYS_ID_STAT_LD_CRC_ERR : Fld := ⟨0, 1⟩
def SYS_HOST_BPAP_EN : Fld := ⟨0, 1⟩
def SYS_HOST_BPAP_BASE : Fld := ⟨24, 8⟩
def SYS_E_MPU_CTL_EN : Fld := ⟨0, 1⟩
def SYS_E_MPU_BASE_BASE : Fld := ⟨5, 27⟩
def SYS_E_MPU_ATTR_EN : Fld := ⟨0, 1⟩
def SYS_E_MPU_ATTR_RD : Fld := ⟨1, 1⟩
def SYS_E_MPU_ATTR_WR : Fld := ⟨2, 1⟩
def SYS_E_MPU_ATTR_SIZE : Fld := ⟨8, 5⟩
def SYS_E_CTL_RUN : Fld := ⟨0, 1⟩
def SYS_E_CTL_RST : Fld := ⟨1, 1⟩
def SYS_E_CTL_CLKEN : Fld := ⟨2, 1⟩
def SYS_E_CTL_ISO : Fld := ⟨3, 1⟩
def SYS_E_CTL_STEP : Fld := ⟨4, 1⟩
def SYS_E_CTL_SNAP : Fld := ⟨5, 1⟩
def SYS_E_CTL_RESTORE : Fld := ⟨6, 1⟩
def SYS_E_CTL_TEST : Fld := ⟨7, 1⟩
def SYS_E_STAT_STATE : Fld := ⟨0, 3⟩
def SYS_E_STAT_GATED : Fld := ⟨3, 1⟩
def SYS_E_STAT_LANE : Fld := ⟨4, 1⟩
def SYS_E_STAT_BUSY : Fld := ⟨5, 1⟩
def SYS_E_STAT_TESTRES : Fld := ⟨6, 2⟩
def SYS_E_STAT_ACTERR : Fld := ⟨8, 1⟩
def SYS_E_STAT_SNAPERR : Fld := ⟨9, 1⟩
def SYS_E_STAT_OUTST : Fld := ⟨10, 3⟩
def SYS_E_PC_PC : Fld := ⟨0, 14⟩
def SYS_E_EXC_LASTVEC : Fld := ⟨0, 5⟩
def SYS_E_EXC_DFLT : Fld := ⟨5, 1⟩
def SYS_E_EXC_EXCCNT : Fld := ⟨16, 16⟩
def SYS_E_EPOCH_EPOCH : Fld := ⟨0, 16⟩
def SYS_E_ECC_CORR : Fld := ⟨0, 16⟩
def SYS_E_ECC_UNCORR : Fld := ⟨16, 16⟩
def SYS_E_SNAPA_ADDR : Fld := ⟨6, 26⟩
def SYS_LDR_SRC_SRC : Fld := ⟨5, 27⟩
def SYS_LDR_DST_DST : Fld := ⟨0, 32⟩
def SYS_LDR_LEN_LEN : Fld := ⟨0, 24⟩
def SYS_LDR_CTL_GO : Fld := ⟨0, 1⟩
def SYS_LDR_CTL_ABORT : Fld := ⟨1, 1⟩
def SYS_LDR_CTL_MODE : Fld := ⟨2, 1⟩
def SYS_LDR_CTL_CRCCHK : Fld := ⟨3, 1⟩
def SYS_LDR_CTL_DBEN : Fld := ⟨4, 1⟩
def SYS_LDR_CTL_DBBIT : Fld := ⟨5, 5⟩
def SYS_LDR_STAT_STATE : Fld := ⟨0, 2⟩
def SYS_LDR_STAT_ABORTED : Fld := ⟨2, 1⟩
def SYS_LDR_STAT_TOOLATE : Fld := ⟨3, 1⟩
def SYS_LDR_STAT_ERRC : Fld := ⟨4, 4⟩
def SYS_MODE_MODE : Fld := ⟨0, 3⟩
def SYS_MODE_DEGREQ : Fld := ⟨3, 1⟩
def SYS_MODE_HOLDREQ : Fld := ⟨4, 1⟩
def SYS_MODE_TCNT : Fld := ⟨8, 8⟩
def SYS_MODE_LASTEV : Fld := ⟨16, 4⟩
def SYS_MODE_REQ_REQ : Fld := ⟨0, 2⟩
def SYS_MODE_REQ_KEY : Fld := ⟨8, 8⟩
def SYS_MODE_RES_RES : Fld := ⟨0, 2⟩
def SYS_MODE_RES_RMODE : Fld := ⟨2, 1⟩
def SYS_MODE_RES_RPERM : Fld := ⟨3, 1⟩
def SYS_MODE_RES_RSET : Fld := ⟨4, 1⟩
def SYS_MODE_RES_RSEAL : Fld := ⟨5, 1⟩
def SYS_MODE_RES_RHOLD : Fld := ⟨6, 1⟩
def SYS_MODE_RES_RSW : Fld := ⟨7, 1⟩
def SYS_MODE_RES_RKEEP : Fld := ⟨8, 1⟩
def SYS_MODE_EVT_DBAGENT : Fld := ⟨0, 6⟩
def SYS_MODE_EVT_DBBIT : Fld := ⟨6, 5⟩
def SYS_MODE_EVT_DBEN : Fld := ⟨11, 1⟩
def SYS_HOLDPOL_POL : Fld := ⟨0, 16⟩
def SYS_BOOT_STAT_STAGE : Fld := ⟨0, 4⟩
def SYS_BOOT_STAT_SRC : Fld := ⟨4, 2⟩
def SYS_BOOT_STAT_ERR0 : Fld := ⟨8, 4⟩
def SYS_BOOT_STAT_ERR1 : Fld := ⟨12, 4⟩
def SYS_BOOT_STAT_ERRR : Fld := ⟨16, 4⟩
def SYS_BOOT_STAT_FAIL : Fld := ⟨20, 1⟩
def SYS_RECOV_LEN : Fld := ⟨0, 23⟩
def SYS_RECOV_GO : Fld := ⟨31, 1⟩
def VIG_CTL_NPERM : Fld := ⟨0, 4⟩
def VIG_CTL_WIN : Fld := ⟨4, 12⟩
def VIG_CTL_CETHR : Fld := ⟨16, 8⟩
def VIG_CTL_CEWIN : Fld := ⟨24, 8⟩
def VIG_STAT_DEGREQ : Fld := ⟨0, 1⟩
def VIG_STAT_HOLDREQ : Fld := ⟨1, 1⟩
def VIG_STAT_RRERR : Fld := ⟨2, 1⟩
def VIG_STAT_RRFULL : Fld := ⟨3, 1⟩
def VIG_STAT_LOGERR : Fld := ⟨4, 1⟩
def VIG_STAT_PAUSED : Fld := ⟨5, 1⟩
def VIG_STAT_QLEV : Fld := ⟨8, 7⟩
def VIG_HOLDC_CAUSE : Fld := ⟨0, 4⟩
def VIG_EVT_DBAGENT : Fld := ⟨0, 6⟩
def VIG_EVT_DBBIT : Fld := ⟨6, 5⟩
def VIG_EVT_DBEN : Fld := ⟨11, 1⟩
def VIG_RSEL_RES : Fld := ⟨0, 16⟩
def VIG_RINFO_STATE : Fld := ⟨0, 3⟩
def VIG_RINFO_WCNT : Fld := ⟨4, 4⟩
def VIG_RINFO_CECNT : Fld := ⟨8, 8⟩
def VIG_RINFO_TOTAL : Fld := ⟨16, 16⟩
def VIG_READMIT_RES : Fld := ⟨0, 16⟩
def VIG_READMIT_GO : Fld := ⟨31, 1⟩
def VIG_READMIT_STAT_RES : Fld := ⟨0, 2⟩
def PLM_STAT_READY : Fld := ⟨0, 1⟩
def PLM_STAT_BANK : Fld := ⟨1, 1⟩
def PLM_STAT_SWAP : Fld := ⟨2, 1⟩
def PLM_STAT_FALLBACK : Fld := ⟨3, 1⟩
def PLM_STAT_CMDQ : Fld := ⟨4, 4⟩
def PLM_STAT_RSPQ : Fld := ⟨8, 6⟩
def PLM_STAT_SHORT : Fld := ⟨14, 1⟩
def PLM_STAT_OPEN : Fld := ⟨15, 1⟩
def PLM_STAT_NDECL : Fld := ⟨16, 8⟩
def PLM_STAT_NRUN : Fld := ⟨24, 8⟩
def PLM_CFG_RSPDB : Fld := ⟨0, 5⟩
def PLM_CFG_ACKDB : Fld := ⟨5, 5⟩
def PLM_CFG_SHCYC : Fld := ⟨10, 4⟩
def PLM_CFG_SHMAX : Fld := ⟨14, 6⟩
def PLM_CFG_AUDEN : Fld := ⟨20, 1⟩
def PLM_ENG_CH : Fld := ⟨0, 6⟩
def PLM_ENG_ROLE : Fld := ⟨6, 3⟩
def PLM_ENG_LOADED : Fld := ⟨9, 1⟩
def PLM_TBANK_USE : Fld := ⟨0, 2⟩
def PLM_TBANK_FREE : Fld := ⟨2, 13⟩
def PLM_TBANK_KEEP : Fld := ⟨15, 1⟩
def PLM_CBANK_USE : Fld := ⟨0, 2⟩
def PLM_CBANK_FREE : Fld := ⟨2, 13⟩
def PLM_CBANK_KEEP : Fld := ⟨15, 1⟩
def ALM_CTL_CKSTEER : Fld := ⟨0, 1⟩
def ALM_STAT_CKLOCK : Fld := ⟨0, 1⟩
def ALM_STAT_PTCLOCK : Fld := ⟨1, 1⟩
def ALM_STAT_FLDLOCK : Fld := ⟨2, 1⟩
def ALM_STAT_FLDERR : Fld := ⟨16, 16⟩
def ALM_TC_CTL_OWN : Fld := ⟨0, 2⟩
def ALM_TC_CTL_OPORT : Fld := ⟨2, 3⟩
def ALM_TC_CTL_STEP : Fld := ⟨5, 1⟩
def ALM_TC_CTL_SET : Fld := ⟨6, 1⟩
def ALM_TC_CTL_SLEWSTOP : Fld := ⟨7, 1⟩
def ALM_TC_CTL_SLEWR : Fld := ⟨8, 4⟩
def ALM_TC_STAT_SLEWING : Fld := ⟨0, 1⟩
def ALM_TC_STAT_STEPF : Fld := ⟨1, 1⟩
def ALM_TC_STAT_STEPERR : Fld := ⟨2, 1⟩
def ALM_TC_STAT_RATELIM : Fld := ⟨3, 1⟩
def ALM_TC_STAT_EPOCH : Fld := ⟨16, 16⟩
def ALM_XS_CTL_GO : Fld := ⟨0, 1⟩
def ALM_ANG_CTL_EN : Fld := ⟨0, 1⟩
def ALM_ANG_CTL_DIRINV : Fld := ⟨1, 1⟩
def ALM_ANG_CTL_ZREF : Fld := ⟨2, 2⟩
def ALM_ANG_CTL_WIN : Fld := ⟨4, 5⟩
def ALM_ANG_CTL_LEAD : Fld := ⟨9, 9⟩
def ALM_ANG_CTL_STILL : Fld := ⟨18, 8⟩
def ALM_ANG_CPR_CPR : Fld := ⟨0, 28⟩
def ALM_ANG_STAT_VALID : Fld := ⟨0, 1⟩
def ALM_ANG_STAT_STILL : Fld := ⟨1, 1⟩
def ALM_ANG_STAT_DIR : Fld := ⟨2, 1⟩
def ALM_ANG_STAT_ZSEEN : Fld := ⟨3, 1⟩
def ALM_ANG_STAT_RECERR : Fld := ⟨4, 1⟩
def ALM_LIN_CTL_EN : Fld := ⟨0, 1⟩
def ALM_LIN_CTL_SRC : Fld := ⟨1, 1⟩
def ALM_LIN_CTL_DIRINV : Fld := ⟨2, 1⟩
def ALM_LIN_CTL_LOAD : Fld := ⟨3, 1⟩
def ALM_LIN_CTL_DIV : Fld := ⟨8, 8⟩
def ALM_LIN_SET1_HI : Fld := ⟨0, 16⟩
def ALM_LIN_STAT_VALID : Fld := ⟨0, 1⟩
def ALM_LIN_STAT_RECERR : Fld := ⟨1, 1⟩
def ALM_MNS_CTL_EN : Fld := ⟨0, 1⟩
def ALM_MNS_CTL_LEAD : Fld := ⟨1, 9⟩
def ALM_MNS_STAT_LOCK : Fld := ⟨0, 1⟩
def ALM_MNS_STAT_HOLD : Fld := ⟨1, 1⟩
def ALM_MNS_STAT_LOCKCNT : Fld := ⟨4, 4⟩
def ALM_MNS_STAT_FREQ : Fld := ⟨16, 16⟩
def CAL_STAT_ARMED : Fld := ⟨0, 12⟩
def CAL_STAT_PRED : Fld := ⟨16, 9⟩
def CAL_STAT_PREDFULL : Fld := ⟨25, 1⟩
def ALM_CAP_CTL_EN : Fld := ⟨0, 1⟩
def ALM_CAP_CTL_DBEN : Fld := ⟨1, 1⟩
def ALM_CAP_CTL_DBAGENT : Fld := ⟨2, 6⟩
def ALM_CAP_CTL_DBBIT : Fld := ⟨8, 5⟩
def ALM_CAP_CTL_LEVEL : Fld := ⟨16, 9⟩
def ALM_CAP_RD_RD : Fld := ⟨0, 9⟩
def ALM_CAP_SW_TAG : Fld := ⟨0, 8⟩
def CAR_CTL_RUN : Fld := ⟨0, 4⟩
def CAR_CTL_RESTART : Fld := ⟨4, 4⟩
def CAR_CTL_BLKRST : Fld := ⟨8, 1⟩
def CAR_HFLAG_HF : Fld := ⟨0, 4⟩
def CAR_PROG_W : Fld := ⟨0, 20⟩
def CAR_SEQ_CFG_DIRECT : Fld := ⟨0, 1⟩
def CAR_SEQ_CFG_QMODE : Fld := ⟨1, 2⟩
def CAR_SEQ_CFG_TXMSB : Fld := ⟨3, 1⟩
def CAR_SEQ_CFG_RXMSB : Fld := ⟨4, 1⟩
def CAR_SEQ_CFG_ATLEAD : Fld := ⟨5, 3⟩
def CAR_SEQ_CFG_TSCALE : Fld := ⟨8, 2⟩
def CAR_SEQ_CFG_JPIN : Fld := ⟨10, 5⟩
def CAR_SEQ_STAT_STATE : Fld := ⟨0, 2⟩
def CAR_SEQ_STAT_CAUSE : Fld := ⟨2, 3⟩
def CAR_SEQ_STAT_PC : Fld := ⟨5, 6⟩
def CAR_SEQ_STAT_ERRC : Fld := ⟨11, 3⟩
def CAR_SEQ_STAT_LATE : Fld := ⟨14, 1⟩
def CAR_SEQ_STAT_CFOVR : Fld := ⟨15, 1⟩
def CAR_SEQ_STAT_OVW : Fld := ⟨16, 1⟩
def CAR_SEQ_STAT_CF : Fld := ⟨17, 1⟩
def CAR_SEQ_STAT_TXL : Fld := ⟨18, 4⟩
def CAR_SEQ_STAT_RXL : Fld := ⟨22, 4⟩
def CAR_SEQ_EVT_DBAGENT : Fld := ⟨0, 6⟩
def CAR_SEQ_EVT_DBBIT : Fld := ⟨6, 5⟩
def CAR_SEQ_EVT_DBEN : Fld := ⟨11, 1⟩
def CAR_SEQ_EVT_EVEN : Fld := ⟨12, 1⟩
def CAR_SEQ_EVT_EVENG : Fld := ⟨13, 5⟩
def CAR_SEQ_MVTXA_ADDR : Fld := ⟨0, 32⟩
def CAR_SEQ_MVTXN_N : Fld := ⟨0, 16⟩
def CAR_SEQ_MVRXA_ADDR : Fld := ⟨0, 32⟩
def CAR_SEQ_MVRXN_N : Fld := ⟨0, 16⟩
def CAR_SEQ_MVCTL_TXGO : Fld := ⟨0, 1⟩
def CAR_SEQ_MVCTL_RXGO : Fld := ⟨1, 1⟩
def CAR_SEQ_MVCTL_TXSTOP : Fld := ⟨2, 1⟩
def CAR_SEQ_MVCTL_RXSTOP : Fld := ⟨3, 1⟩
def CAR_SEQ_MVCTL_TXRING : Fld := ⟨4, 1⟩
def CAR_SEQ_MVCTL_RXRING : Fld := ⟨5, 1⟩
def CAR_SEQ_MVCTL_TXERR : Fld := ⟨6, 1⟩
def CAR_SEQ_MVCTL_RXERR : Fld := ⟨7, 1⟩
def ETH_LANE_CTL_PRI : Fld := ⟨0, 5⟩
def ETH_LANE_CTL_PRIEN : Fld := ⟨5, 1⟩
def ETH_LANE_CTL_SHD : Fld := ⟨8, 5⟩
def ETH_LANE_CTL_SHDEN : Fld := ⟨13, 1⟩
def ETH_LANE_CTL_SWAP : Fld := ⟨16, 1⟩
def ETH_LANE_CTL_DBEN : Fld := ⟨17, 1⟩
def ETH_LANE_CTL_TXHOLD : Fld := ⟨18, 2⟩
def ETH_LANE_CTL_NOENG : Fld := ⟨20, 1⟩
def ETH_LANE_CTL_TXQ : Fld := ⟨24, 3⟩
def ETH_LANE_CTL_DBBIT : Fld := ⟨27, 5⟩
def ETH_LANE_STAT_STATE : Fld := ⟨0, 2⟩
def ETH_LANE_STAT_INFRM : Fld := ⟨2, 1⟩
def ETH_LANE_STAT_SHDLAG : Fld := ⟨3, 1⟩
def ETH_LANE_STAT_SWAPREF : Fld := ⟨4, 1⟩
def ETH_LANE_STAT_CFGERR : Fld := ⟨5, 1⟩
def ETH_LANE_STAT_REMOTE : Fld := ⟨6, 1⟩
def ETH_LANE_STAT_TXLVL : Fld := ⟨16, 8⟩
def ETH_LANE_RXTSID_CLK : Fld := ⟨0, 2⟩
def ETH_LANE_RXTSID_FSEQ : Fld := ⟨8, 6⟩
def ETH_CTL_EN : Fld := ⟨0, 1⟩
def ETH_CTL_RST : Fld := ⟨1, 1⟩
def ETH_CTL_MODE : Fld := ⟨2, 3⟩
def ETH_CTL_RGIDTX : Fld := ⟨5, 1⟩
def ETH_CTL_RGIDRX : Fld := ⟨6, 1⟩
def ETH_CTL_LSRC : Fld := ⟨7, 1⟩
def ETH_CTL_PHYAD : Fld := ⟨8, 5⟩
def ETH_STAT_LINK : Fld := ⟨0, 1⟩
def ETH_STAT_SPEED : Fld := ⟨1, 2⟩
def ETH_STAT_HDX : Fld := ⟨3, 1⟩
def ETH_STAT_IDLE : Fld := ⟨4, 1⟩
def ETH_STAT_LPITX : Fld := ⟨5, 1⟩
def ETH_STAT_LPIRX : Fld := ⟨6, 1⟩
def ETH_STAT_DSHIFT : Fld := ⟨7, 1⟩
def ETH_STAT_LPEND : Fld := ⟨8, 7⟩
def ETH_STAT_LFULL : Fld := ⟨15, 1⟩
def ETH_TSCFG_CLK : Fld := ⟨0, 2⟩
def ETH_RXCFG_DEFQ : Fld := ⟨0, 2⟩
def ETH_RXCFG_MISS : Fld := ⟨2, 1⟩
def ETH_RXCFG_DEFPCP : Fld := ⟨3, 3⟩
def ETH_RXCFG_MAXFRM : Fld := ⟨16, 14⟩
def ETH_PAUSE_HMASK : Fld := ⟨0, 8⟩
def ETH_PAUSE_ACTIVE : Fld := ⟨8, 1⟩
def ETH_PAUSE_QREM : Fld := ⟨16, 16⟩
def ETH_EEE_EN : Fld := ⟨0, 1⟩
def ETH_EEE_IDLE : Fld := ⟨8, 8⟩
def ETH_EEE_TW1000 : Fld := ⟨16, 8⟩
def ETH_EEE_TW100 : Fld := ⟨24, 8⟩
def ETH_DSCFG_EN : Fld := ⟨0, 1⟩
def ETH_DSCFG_DSTHR : Fld := ⟨8, 7⟩
def ETH_DSCFG_UPTHR : Fld := ⟨16, 7⟩
def ETH_DSCFG_HOLD : Fld := ⟨24, 8⟩
def ETH_TXCFG_TLEAD : Fld := ⟨0, 10⟩
def ETH_CORR_ING : Fld := ⟨0, 16⟩
def ETH_CORR_EGR : Fld := ⟨16, 16⟩
def ETH_GATE_STATES : Fld := ⟨0, 8⟩
def ETH_GATE_HOLD : Fld := ⟨8, 1⟩
def ETH_GATE_NPEND : Fld := ⟨12, 5⟩
def ETH_PRE_CFG_EN : Fld := ⟨0, 1⟩
def ETH_PRE_CFG_VDIS : Fld := ⟨1, 1⟩
def ETH_PRE_CFG_PMASK : Fld := ⟨2, 8⟩
def ETH_PRE_CFG_ADDFRAG : Fld := ⟨10, 2⟩
def ETH_PRE_CFG_VTIME : Fld := ⟨16, 8⟩
def ETH_PRE_CFG_VLIMIT : Fld := ⟨24, 3⟩
def ETH_PRE_STAT_VSTAT : Fld := ⟨0, 3⟩
def ETH_PRE_STAT_ACTIVE : Fld := ⟨3, 1⟩
def ETH_COM_CTL_BLKRST : Fld := ⟨0, 1⟩
def ETH_COM_SVC_SVC : Fld := ⟨0, 6⟩
def ETH_COM_MDIO_CTL_PHYAD : Fld := ⟨0, 5⟩
def ETH_COM_MDIO_CTL_REGAD : Fld := ⟨5, 5⟩
def ETH_COM_MDIO_CTL_OP : Fld := ⟨10, 2⟩
def ETH_COM_MDIO_CTL_C45 : Fld := ⟨12, 1⟩
def ETH_COM_MDIO_CTL_GO : Fld := ⟨13, 1⟩
def ETH_COM_MDIO_CTL_NOACK : Fld := ⟨14, 1⟩
def ETH_COM_MDIO_CTL_DIV : Fld := ⟨16, 6⟩
def ETH_COM_MDIO_DATA_DATA : Fld := ⟨0, 16⟩
def ETH_TXQ_CFG_EN : Fld := ⟨0, 1⟩
def ETH_TXQ_CFG_EVMODE : Fld := ⟨1, 1⟩
def ETH_TXQ_CFG_EVEN : Fld := ⟨2, 1⟩
def ETH_TXQ_CFG_EVENG : Fld := ⟨3, 5⟩
def ETH_TXQ_CFG_DBEN : Fld := ⟨8, 1⟩
def ETH_TXQ_CFG_DBAGENT : Fld := ⟨9, 6⟩
def ETH_TXQ_CFG_DBBIT : Fld := ⟨15, 5⟩
def ETH_TXQ_CFG_THR : Fld := ⟨20, 8⟩
def ETH_TXQ_BASE_BASE : Fld := ⟨5, 27⟩
def ETH_TXQ_LEN_LEN : Fld := ⟨0, 13⟩
def ETH_TXQ_HEAD_HEAD : Fld := ⟨0, 12⟩
def ETH_TXQ_TAIL_TAIL : Fld := ⟨0, 12⟩
def ETH_TXQ_STAT_IDLE : Fld := ⟨0, 1⟩
def ETH_TXQ_STAT_ERR : Fld := ⟨1, 1⟩
def ETH_TXQ_STAT_ERRC : Fld := ⟨2, 2⟩
def ETH_TXQ_STAT_WCAL : Fld := ⟨4, 1⟩
def ETH_TXQ_STAT_WLT : Fld := ⟨5, 1⟩
def ETH_TXQ_STAT_GATE : Fld := ⟨6, 1⟩
def ETH_TXQ_STAT_PAUSED : Fld := ⟨7, 1⟩
def ETH_TXQ_STAT_PMAC : Fld := ⟨8, 1⟩
def ETH_TXQ_STAT_LPEND : Fld := ⟨9, 7⟩
def ETH_TXQ_CANCEL_IDX : Fld := ⟨0, 12⟩
def ETH_TXQ_CANCEL_GO : Fld := ⟨31, 1⟩
def ETH_TXQ_CSTAT_CSTAT : Fld := ⟨0, 2⟩
def ETH_RXQ_CFG_EN : Fld := ⟨0, 1⟩
def ETH_RXQ_CFG_EVMODE : Fld := ⟨1, 1⟩
def ETH_RXQ_CFG_EVEN : Fld := ⟨2, 1⟩
def ETH_RXQ_CFG_EVENG : Fld := ⟨3, 5⟩
def ETH_RXQ_CFG_DBEN : Fld := ⟨8, 1⟩
def ETH_RXQ_CFG_DBAGENT : Fld := ⟨9, 6⟩
def ETH_RXQ_CFG_DBBIT : Fld := ⟨15, 5⟩
def ETH_RXQ_BASE_BASE : Fld := ⟨5, 27⟩
def ETH_RXQ_LEN_LEN : Fld := ⟨0, 13⟩
def ETH_RXQ_HEAD_HEAD : Fld := ⟨0, 12⟩
def ETH_RXQ_TAIL_TAIL : Fld := ⟨0, 12⟩
def ETH_RXQ_STAT_IDLE : Fld := ⟨0, 1⟩
def ETH_RXQ_STAT_ERR : Fld := ⟨1, 1⟩
def ETH_RXQ_STAT_ERRC : Fld := ⟨2, 2⟩
def CTB_CTL_START : Fld := ⟨0, 1⟩
def CTB_CTL_HALT : Fld := ⟨1, 1⟩
def CTB_CTL_RESTART : Fld := ⟨2, 1⟩
def CTB_CTL_BLKRST : Fld := ⟨3, 1⟩
def CTB_STAT_STATE : Fld := ⟨0, 3⟩
def CTB_STAT_ALONE : Fld := ⟨3, 1⟩
def CTB_STAT_ECHOLOSS : Fld := ⟨4, 1⟩
def CTB_STAT_CFGERR : Fld := ⟨5, 1⟩
def CTB_STAT_SYNCA : Fld := ⟨6, 1⟩
def CTB_STAT_SYNCB : Fld := ⟨7, 1⟩
def CTB_STAT_ATTEMPT : Fld := ⟨8, 5⟩
def CTB_STAT_TBL : Fld := ⟨13, 1⟩
def CTB_STAT_ARMED : Fld := ⟨14, 1⟩
def CTB_STAT_LEAPOWN : Fld := ⟨15, 1⟩
def CTB_NODE_NODEID : Fld := ⟨0, 4⟩
def CTB_NODE_SYNCN : Fld := ⟨4, 1⟩
def CTB_NODE_CSN : Fld := ⟨5, 1⟩
def CTB_NODE_CHAEN : Fld := ⟨6, 1⟩
def CTB_NODE_CHBEN : Fld := ⟨7, 1⟩
def CTB_NODE_TBLSEL : Fld := ⟨8, 1⟩
def CTB_TIMING_MTLEN : Fld := ⟨0, 11⟩
def CTB_TIMING_CYCLEN : Fld := ⟨16, 14⟩
def CTB_SEG_NIT : Fld := ⟨0, 14⟩
def CTB_SEG_APO : Fld := ⟨16, 10⟩
def CTB_SGAP_GAP : Fld := ⟨0, 11⟩
def CTB_STARTUP_CSMAX : Fld := ⟨0, 5⟩
def CTB_STARTUP_LISTEN : Fld := ⟨8, 4⟩
def CTB_STARTUP_INTCYC : Fld := ⟨12, 4⟩
def CTB_STARTUP_ECHOMAX : Fld := ⟨16, 4⟩
def CTB_LEAPCFG_K : Fld := ⟨0, 8⟩
def CTB_LEAPCFG_EN : Fld := ⟨8, 1⟩
def CTB_EVT_DBAGENT : Fld := ⟨0, 6⟩
def CTB_EVT_CYCBIT : Fld := ⟨6, 5⟩
def CTB_EVT_STBIT : Fld := ⟨11, 5⟩
def CTB_EVT_CYCEN : Fld := ⟨16, 1⟩
def CTB_EVT_STEN : Fld := ⟨17, 1⟩
def CTB_TSCFG_CLK : Fld := ⟨0, 2⟩
def CTB_SWITCH_TBL : Fld := ⟨0, 1⟩
def CTB_SWITCH_CYC : Fld := ⟨8, 6⟩
def CTB_SWITCH_ARM : Fld := ⟨16, 1⟩
def CTB_SWITCH_CANCEL : Fld := ⟨17, 1⟩
def CTB_SWITCH_DONE : Fld := ⟨18, 1⟩
def CTB_SWITCH_TOOLATE : Fld := ⟨19, 1⟩
def CTB_CYCPOS_MT : Fld := ⟨0, 14⟩
def CTB_CYCPOS_UT : Fld := ⟨16, 11⟩
def CTB_CYCPOS_VALID : Fld := ⟨31, 1⟩
def CTB_CFGERR_ENTRY : Fld := ⟨0, 10⟩
def CTB_CFGERR_GLOBAL : Fld := ⟨10, 1⟩
def CTB_CFGERR_TBL : Fld := ⟨11, 1⟩
def CTB_CFGERR_CODE : Fld := ⟨12, 4⟩
def CTB_LEAPC_SLOTID : Fld := ⟨0, 10⟩
def CTB_LEAPC_VALID : Fld := ⟨15, 1⟩
def CTB_LEAPSTAT_SLOTID : Fld := ⟨0, 10⟩
def CTB_LEAPSTAT_STATE : Fld := ⟨10, 3⟩
def CTB_LEAPSTAT_CAND : Fld := ⟨13, 3⟩
def CTB_LEAPSTAT_SILENT : Fld := ⟨16, 8⟩
def CTB_SYNCCFG_OCLIM : Fld := ⟨0, 12⟩
def CTB_SYNCCFG_RCLIM : Fld := ⟨12, 10⟩
def CTB_SYNCCFG_RCSHIFT : Fld := ⟨22, 2⟩
def CTB_SYNCCFG_LOSTCYC : Fld := ⟨24, 4⟩
def CTB_SYNCSTAT_NVAL : Fld := ⟨0, 4⟩
def CTB_SYNCSTAT_NUSED : Fld := ⟨4, 4⟩
def CTB_SYNCSTAT_OCSATF : Fld := ⟨8, 1⟩
def CTB_SYNCSTAT_RCSATF : Fld := ⟨9, 1⟩
def CTB_SYNCSTAT_LOSTC : Fld := ⟨12, 4⟩
def CTB_SYNCSTAT_TC1LOCK : Fld := ⟨16, 1⟩
def CTB_TC1CFG_EN : Fld := ⟨0, 1⟩
def CTB_TC1CFG_GTSTEP : Fld := ⟨8, 16⟩
def CTB_SYNCDLY_DLY : Fld := ⟨0, 11⟩
def CTB_DEV_DEV : Fld := ⟨0, 16⟩
def CTB_DEV_NODE : Fld := ⟨16, 4⟩
def CTB_DEV_VALID : Fld := ⟨20, 1⟩
def CTB_DEV_USED : Fld := ⟨21, 1⟩
def BFY_CTL_ENA : Fld := ⟨0, 1⟩
def BFY_CTL_ENB : Fld := ⟨1, 1⟩
def BFY_CTL_SWFOLLOW : Fld := ⟨2, 1⟩
def BFY_CTL_BLKRST : Fld := ⟨3, 1⟩
def BFY_CTL_TBLSEL : Fld := ⟨4, 1⟩
def BFY_STAT_STATE : Fld := ⟨0, 2⟩
def BFY_STAT_TBL : Fld := ⟨2, 1⟩
def BFY_STAT_ARMED : Fld := ⟨3, 1⟩
def BFY_STAT_CFGERR : Fld := ⟨4, 1⟩
def BFY_STAT_CYC : Fld := ⟨8, 6⟩
def BFY_PORTMAP_MAP : Fld := ⟨0, 32⟩
def BFY_GUARD_TOL : Fld := ⟨0, 7⟩
def BFY_GUARD_N : Fld := ⟨8, 4⟩
def BFY_GUARD_ISOQ : Fld := ⟨12, 4⟩
def BFY_GUARD_M : Fld := ⟨16, 8⟩
def BFY_EVT_DBAGENT : Fld := ⟨0, 6⟩
def BFY_EVT_STBIT : Fld := ⟨6, 5⟩
def BFY_EVT_STEN : Fld := ⟨11, 1⟩
def BFY_SWITCH_TBL : Fld := ⟨0, 1⟩
def BFY_SWITCH_CYC : Fld := ⟨8, 6⟩
def BFY_SWITCH_ARM : Fld := ⟨16, 1⟩
def BFY_SWITCH_CANCEL : Fld := ⟨17, 1⟩
def BFY_SWITCH_DONE : Fld := ⟨18, 1⟩
def BFY_SWITCH_TOOLATE : Fld := ⟨19, 1⟩
def BFY_REL_REL : Fld := ⟨0, 17⟩
def BFY_BR_CFG_DLY : Fld := ⟨0, 11⟩
def BFY_BR_STAT_VIOL : Fld := ⟨0, 4⟩
def BFY_BR_STAT_QUIET : Fld := ⟨4, 4⟩
def BFY_BR_STAT_ISO : Fld := ⟨8, 1⟩
def BFY_BR_STAT_SYNC : Fld := ⟨9, 1⟩
def BFY_BR_STAT_CH : Fld := ⟨10, 2⟩
def CAN_CTL_HALT : Fld := ⟨0, 1⟩
def CAN_CTL_FD : Fld := ⟨1, 1⟩
def CAN_CTL_SWITCH : Fld := ⟨2, 1⟩
def CAN_CTL_ONCE : Fld := ⟨3, 1⟩
def CAN_CTL_LISTEN : Fld := ⟨4, 1⟩
def CAN_CTL_LOOP : Fld := ⟨5, 1⟩
def CAN_CTL_PXFORM : Fld := ⟨6, 1⟩
def CAN_CTL_AUTOREC : Fld := ⟨7, 1⟩
def CAN_CTL_BLKRST : Fld := ⟨8, 1⟩
def CAN_STAT_HALTED : Fld := ⟨0, 1⟩
def CAN_STAT_BUSY : Fld := ⟨1, 1⟩
def CAN_STAT_TXING : Fld := ⟨2, 1⟩
def CAN_STAT_BOREC : Fld := ⟨3, 1⟩
def CAN_STAT_CFGERR : Fld := ⟨4, 1⟩
def CAN_STAT_CFGC : Fld := ⟨5, 3⟩
def CAN_TNOM_SEG1 : Fld := ⟨0, 8⟩
def CAN_TNOM_SEG2 : Fld := ⟨8, 7⟩
def CAN_TNOM_SJW : Fld := ⟨15, 7⟩
def CAN_TNOM_PRESC : Fld := ⟨22, 9⟩
def CAN_TFAST_SEG1 : Fld := ⟨0, 5⟩
def CAN_TFAST_SEG2 : Fld := ⟨5, 4⟩
def CAN_TFAST_SJW : Fld := ⟨9, 4⟩
def CAN_TFAST_PRESC : Fld := ⟨13, 5⟩
def CAN_SSP_EN : Fld := ⟨0, 1⟩
def CAN_SSP_OFS : Fld := ⟨1, 7⟩
def CAN_SSP_WIN : Fld := ⟨8, 7⟩
def CAN_SSP_MEAS : Fld := ⟨16, 7⟩
def CAN_RAMBASE_ADDR : Fld := ⟨14, 18⟩
def CAN_RXL_QALEN : Fld := ⟨0, 7⟩
def CAN_RXL_QBLEN : Fld := ⟨8, 7⟩
def CAN_RXL_CELLS : Fld := ⟨16, 7⟩
def CAN_RXL_SIZE : Fld := ⟨24, 3⟩
def CAN_ACC_NSHORT : Fld := ⟨0, 8⟩
def CAN_ACC_NLONG : Fld := ⟨8, 7⟩
def CAN_ACC_MISSS : Fld := ⟨16, 3⟩
def CAN_ACC_MISSL : Fld := ⟨20, 3⟩
def CAN_ACC_NORMTS : Fld := ⟨23, 1⟩
def CAN_ACC_NORMTL : Fld := ⟨24, 1⟩
def CAN_TSCFG_CLK : Fld := ⟨0, 2⟩
def CAN_EVS_QA : Fld := ⟨0, 1⟩
def CAN_EVS_QB : Fld := ⟨1, 1⟩
def CAN_EVS_CELL : Fld := ⟨2, 1⟩
def CAN_EVS_MARK : Fld := ⟨3, 1⟩
def CAN_EVS_TXD : Fld := ⟨4, 1⟩
def CAN_EVS_TXF : Fld := ⟨5, 1⟩
def CAN_EVS_EP : Fld := ⟨6, 1⟩
def CAN_EVS_BO : Fld := ⟨7, 1⟩
def CAN_EVS_LOST : Fld := ⟨8, 1⟩
def CAN_EVS_TRN : Fld := ⟨9, 1⟩
def CAN_EVS_PXE : Fld := ⟨10, 1⟩
def CAN_EVS_MEMERR : Fld := ⟨11, 1⟩
def CAN_EVM_EVM : Fld := ⟨0, 12⟩
def CAN_EVT_DBAGENT : Fld := ⟨0, 6⟩
def CAN_EVT_DBBIT : Fld := ⟨6, 5⟩
def CAN_EVT_DBEN : Fld := ⟨11, 1⟩
def CAN_EVT_EVEN : Fld := ⟨12, 1⟩
def CAN_EVT_EVENG : Fld := ⟨13, 5⟩
def CAN_ERR_TEC : Fld := ⟨0, 8⟩
def CAN_ERR_REC : Fld := ⟨8, 8⟩
def CAN_ERR_STATE : Fld := ⟨16, 2⟩
def CAN_LASTERR_ARB : Fld := ⟨0, 3⟩
def CAN_LASTERR_FAST : Fld := ⟨3, 3⟩
def CAN_MARK_IDX : Fld := ⟨0, 6⟩
def CAN_MARK_WHERE : Fld := ⟨6, 2⟩
def CAN_MARK_ENTRY : Fld := ⟨8, 7⟩
def CAN_MARK_LONG : Fld := ⟨15, 1⟩
def CAN_QAST_RPOS : Fld := ⟨0, 6⟩
def CAN_QAST_WPOS : Fld := ⟨8, 6⟩
def CAN_QAST_LEVEL : Fld := ⟨16, 7⟩
def CAN_QAST_FULL : Fld := ⟨24, 1⟩
def CAN_QBST_RPOS : Fld := ⟨0, 6⟩
def CAN_QBST_WPOS : Fld := ⟨8, 6⟩
def CAN_QBST_LEVEL : Fld := ⟨16, 7⟩
def CAN_QBST_FULL : Fld := ⟨24, 1⟩
def CAN_ROUTE_TARGET : Fld := ⟨0, 3⟩
def CAN_ROUTE_MARK : Fld := ⟨3, 1⟩
def CAN_ROUTE_CELL : Fld := ⟨4, 6⟩
def XCH_A_DB_RING_AGENT : Fld := ⟨0, 6⟩
def XCH_A_DB_RING_BIT : Fld := ⟨8, 5⟩
def XCH_A_LASTST_NUM : Fld := ⟨0, 7⟩
def XCH_A_LASTST_KIND : Fld := ⟨7, 1⟩
def XCH_A_LASTST_VALID : Fld := ⟨8, 1⟩
def XCH_A_LASTST_STALE : Fld := ⟨9, 1⟩
def XCH_A_LASTST_ORPHAN : Fld := ⟨10, 1⟩
def XCH_A_LASTST_COL : Fld := ⟨11, 1⟩
def XCH_A_EPOCH_EPOCH : Fld := ⟨0, 16⟩
def XCH_MBX_CFG_SND : Fld := ⟨0, 6⟩
def XCH_MBX_CFG_RCV : Fld := ⟨8, 6⟩
def XCH_MBX_CFG_ERING : Fld := ⟨14, 1⟩
def XCH_MBX_CFG_ERBIT : Fld := ⟨15, 5⟩
def XCH_MBX_CFG_PRING : Fld := ⟨20, 1⟩
def XCH_MBX_CFG_PRBIT : Fld := ⟨21, 5⟩
def XCH_MBX_STAT_FULL : Fld := ⟨0, 1⟩
def XCH_MBX_STAT_STALE : Fld := ⟨1, 1⟩
def XCH_MBX_STAT_ORPHAN : Fld := ⟨2, 1⟩
def XCH_MBX_STAT_COL : Fld := ⟨3, 1⟩
def XCH_LVS_CFG_SND : Fld := ⟨0, 6⟩
def XCH_LVS_CFG_RCV : Fld := ⟨8, 6⟩
def XCH_LVS_CFG_ERING : Fld := ⟨14, 1⟩
def XCH_LVS_CFG_ERBIT : Fld := ⟨15, 5⟩
def XCH_LVS_CFG_PRING : Fld := ⟨20, 1⟩
def XCH_LVS_CFG_PRBIT : Fld := ⟨21, 5⟩
def XCH_LVS_STAT_FULL : Fld := ⟨0, 1⟩
def XCH_LVS_STAT_STALE : Fld := ⟨1, 1⟩
def XCH_LVS_STAT_ORPHAN : Fld := ⟨2, 1⟩
def XCH_LVS_STAT_COL : Fld := ⟨3, 1⟩
def XCH_SEM_STAT_HELD : Fld := ⟨0, 1⟩
def XCH_SEM_STAT_ABND : Fld := ⟨1, 1⟩
def XCH_SEM_STAT_OWNER : Fld := ⟨8, 6⟩
def XCH_SEM_FREL_SEM : Fld := ⟨0, 6⟩
def XCH_EPOCH_EPOCH : Fld := ⟨0, 16⟩
def XCH_HOSTRST_BUMP : Fld := ⟨0, 1⟩
def BPB_CTL_EN : Fld := ⟨0, 1⟩
def BPB_CTL_PROF : Fld := ⟨1, 2⟩
def BPB_CTL_BLKRST : Fld := ⟨3, 1⟩
def BPB_CTL_SYSRST : Fld := ⟨4, 1⟩
def BPB_CTL_INEN : Fld := ⟨5, 1⟩
def BPB_STAT_IDLE : Fld := ⟨0, 1⟩
def BPB_STAT_OWN : Fld := ⟨1, 1⟩
def BPB_STAT_YLD : Fld := ⟨2, 1⟩
def BPB_STAT_LOCK : Fld := ⟨3, 1⟩
def BPB_STAT_QLEV : Fld := ⟨4, 7⟩
def BPB_STAT_CFGERR : Fld := ⟨11, 1⟩
def BPB_STAT_CFGC : Fld := ⟨12, 4⟩
def BPB_TIM0_TSU : Fld := ⟨0, 4⟩
def BPB_TIM0_TDS : Fld := ⟨4, 4⟩
def BPB_TIM0_TPW : Fld := ⟨8, 6⟩
def BPB_TIM0_THD : Fld := ⟨14, 4⟩
def BPB_TIM0_TREC : Fld := ⟨18, 4⟩
def BPB_TIM0_RDYEN : Fld := ⟨22, 1⟩
def BPB_TIM0_TTA : Fld := ⟨23, 3⟩
def BPB_TIM1_ACKTMO : Fld := ⟨0, 10⟩
def BPB_TIM1_OWNTMO : Fld := ⟨10, 16⟩
def BPB_TIM1_LCKTMO : Fld := ⟨26, 6⟩
def BPB_ARB_SYSCON : Fld := ⟨0, 1⟩
def BPB_ARB_ARBMODE : Fld := ⟨1, 2⟩
def BPB_ARB_BRLEV : Fld := ⟨3, 2⟩
def BPB_ARB_REL : Fld := ⟨5, 1⟩
def BPB_ARB_BTO : Fld := ⟨8, 8⟩
def BPB_IRQCTL_HEN : Fld := ⟨0, 8⟩
def BPB_IRQCTL_ARM : Fld := ⟨8, 8⟩
def BPB_IRQCTL_IACKW : Fld := ⟨16, 2⟩
def BPB_ABORT_GO : Fld := ⟨0, 1⟩
def BPB_ABORT_RES : Fld := ⟨1, 2⟩
def BPB_EVT_EAGENT : Fld := ⟨0, 6⟩
def BPB_EVT_EDB : Fld := ⟨6, 5⟩
def BPB_EVT_EDBEN : Fld := ⟨11, 1⟩
def BPB_EVT_VAGENT : Fld := ⟨12, 6⟩
def BPB_EVT_VDB : Fld := ⟨18, 5⟩
def BPB_EVT_VDBEN : Fld := ⟨23, 1⟩
def BPB_OB_BASE_EN : Fld := ⟨0, 1⟩
def BPB_OB_BASE_BASE : Fld := ⟨16, 16⟩
def BPB_OB_FAR_FAR : Fld := ⟨0, 32⟩
def BPB_OB_ATTR_AM : Fld := ⟨0, 6⟩
def BPB_OB_ATTR_DW : Fld := ⟨6, 2⟩
def BPB_OB_ATTR_BLK : Fld := ⟨8, 2⟩
def BPB_OB_ATTR_POST : Fld := ⟨10, 1⟩
def BPB_OB_ATTR_PREF : Fld := ⟨11, 1⟩
def BPB_OB_ATTR_SWAP : Fld := ⟨12, 2⟩
def BPB_OB_ATTR_LCKN : Fld := ⟨14, 3⟩
def BPB_OB_ATTR_SIZE : Fld := ⟨17, 5⟩
def BPB_IB_FAR_FAR : Fld := ⟨12, 20⟩
def BPB_IB_TGT_TGT : Fld := ⟨12, 20⟩
def BPB_IB_ATTR_EN : Fld := ⟨0, 1⟩
def BPB_IB_ATTR_SPACE : Fld := ⟨1, 2⟩
def BPB_IB_ATTR_RD : Fld := ⟨3, 1⟩
def BPB_IB_ATTR_WR : Fld := ⟨4, 1⟩
def BPB_IB_ATTR_SUPER : Fld := ⟨5, 1⟩
def BPB_IB_ATTR_SIZE : Fld := ⟨6, 5⟩
def BPB_IB_ATTR_SWAP : Fld := ⟨11, 2⟩
def BPB_IB_ATTR_DBEN : Fld := ⟨13, 1⟩
def BPB_IB_ATTR_DBAGENT : Fld := ⟨14, 6⟩
def BPB_IB_ATTR_DBBIT : Fld := ⟨20, 5⟩
def SGM_CTL_EN : Fld := ⟨0, 1⟩
def SGM_CTL_SWAP : Fld := ⟨1, 1⟩
def SGM_CTL_BLKRST : Fld := ⟨2, 1⟩
def SGM_STAT_SEL : Fld := ⟨0, 1⟩
def SGM_STAT_SWPEND : Fld := ⟨1, 1⟩
def SGM_STAT_BUSY : Fld := ⟨2, 1⟩
def SGM_STAT_CFGERR : Fld := ⟨3, 1⟩
def SGM_STAT_CUR : Fld := ⟨4, 8⟩
def SGM_STAT_NPEND : Fld := ⟨12, 9⟩
def SGM_TBASE0_BASE : Fld := ⟨0, 32⟩
def SGM_TBASE1_BASE : Fld := ⟨0, 32⟩
def SGM_TWBASE_BASE : Fld := ⟨10, 22⟩
def SGM_TWBASE_TWEN : Fld := ⟨0, 1⟩
def SGM_TRIG_LIST : Fld := ⟨0, 8⟩
def SGM_EVT_DBAGENT : Fld := ⟨0, 6⟩
def SGM_EVT_DBBIT : Fld := ⟨6, 5⟩
def SGM_EVT_DBEN : Fld := ⟨11, 1⟩
def SGM_ERR_ENTRY : Fld := ⟨0, 12⟩
def SGM_ERR_LIST : Fld := ⟨12, 8⟩
def SGM_ERR_CODE : Fld := ⟨20, 4⟩
def MEM_FAB_TMORPN_RPN : Fld := ⟨0, 6⟩
def MEM_ERRQ0_VALID : Fld := ⟨0, 1⟩
def MEM_ERRQ0_UNC : Fld := ⟨1, 1⟩
def MEM_ERRQ0_SCRUB : Fld := ⟨2, 1⟩
def MEM_ERRQ0_MEMT : Fld := ⟨3, 4⟩
def MEM_ERRQ0_RPN : Fld := ⟨8, 6⟩
def MEM_ERRQ0_SYN : Fld := ⟨14, 8⟩
def MEM_ERRQ0_BIT : Fld := ⟨22, 8⟩
def MEM_SCRUB_CTL_EN : Fld := ⟨0, 1⟩
def MEM_SCRUB_CTL_PERIOD : Fld := ⟨1, 12⟩
def MEM_SCRUB_STAT_LATE : Fld := ⟨0, 1⟩
def MEM_SCRUB_STAT_AREA : Fld := ⟨1, 3⟩
def MEM_RETIDLE_IDLE : Fld := ⟨0, 16⟩
def MEM_TB_CTL_PWR : Fld := ⟨0, 2⟩
def MEM_TB_CTL_AUTORET : Fld := ⟨2, 1⟩
def MEM_TB_CTL_RETIRE : Fld := ⟨3, 1⟩
def MEM_TB_CTL_TEST : Fld := ⟨4, 1⟩
def MEM_TB_STAT_STATE : Fld := ⟨0, 3⟩
def MEM_TB_STAT_SPARES : Fld := ⟨3, 3⟩
def MEM_TB_STAT_TESTRES : Fld := ⟨6, 2⟩
def MEM_TB_ECC_CORR : Fld := ⟨0, 16⟩
def MEM_TB_ECC_UNCORR : Fld := ⟨16, 16⟩
def MEM_CB_CTL_PWR : Fld := ⟨0, 2⟩
def MEM_CB_CTL_AUTORET : Fld := ⟨2, 1⟩
def MEM_CB_CTL_RETIRE : Fld := ⟨3, 1⟩
def MEM_CB_CTL_TEST : Fld := ⟨4, 1⟩
def MEM_CB_STAT_STATE : Fld := ⟨0, 3⟩
def MEM_CB_STAT_SPARES : Fld := ⟨3, 3⟩
def MEM_CB_STAT_TESTRES : Fld := ⟨6, 2⟩
def MEM_CB_ECC_CORR : Fld := ⟨0, 16⟩
def MEM_CB_ECC_UNCORR : Fld := ⟨16, 16⟩
def MEM_XB_STAT_STATE : Fld := ⟨0, 3⟩
def MEM_XB_STAT_SPARES : Fld := ⟨3, 3⟩
def MEM_XB_STAT_TESTRES : Fld := ⟨6, 2⟩
def MEM_XB_ECC_CORR : Fld := ⟨0, 16⟩
def MEM_XB_ECC_UNCORR : Fld := ⟨16, 16⟩
def MEM_MR_ECC_CORR : Fld := ⟨0, 16⟩
def MEM_MR_ECC_UNCORR : Fld := ⟨16, 16⟩
def MEM_DDR_CTL_EN : Fld := ⟨0, 1⟩
def MEM_DDR_CTL_TRAIN : Fld := ⟨1, 1⟩
def MEM_DDR_CTL_INIT : Fld := ⟨2, 1⟩
def MEM_DDR_STAT_READY : Fld := ⟨0, 1⟩
def MEM_DDR_STAT_TRAINERR : Fld := ⟨1, 1⟩
def MEM_DDR_STAT_INITDONE : Fld := ⟨2, 1⟩
def MEM_DDR_STAT_SIZE : Fld := ⟨3, 2⟩
def MEM_DDR_STAT_CFGERR : Fld := ⟨5, 1⟩
def MEM_DDR_CFG_WIDTH : Fld := ⟨0, 1⟩
def MEM_DDR_CFG_HALF : Fld := ⟨1, 1⟩
def MEM_DDR_CFG_DENS : Fld := ⟨2, 2⟩
def MEM_DDR_CFG_REF2X : Fld := ⟨4, 1⟩
def MEM_DDR_TIM0_CL : Fld := ⟨0, 6⟩
def MEM_DDR_TIM0_CWL : Fld := ⟨6, 6⟩
def MEM_DDR_TIM0_RCD : Fld := ⟨12, 6⟩
def MEM_DDR_TIM0_RP : Fld := ⟨18, 6⟩
def MEM_DDR_TIM0_RAS : Fld := ⟨24, 7⟩
def MEM_DDR_TIM1_RC : Fld := ⟨0, 7⟩
def MEM_DDR_TIM1_WR : Fld := ⟨7, 5⟩
def MEM_DDR_TIM1_FAW : Fld := ⟨12, 6⟩
def MEM_DDR_TIM1_RRDS : Fld := ⟨18, 4⟩
def MEM_DDR_TIM1_RRDL : Fld := ⟨22, 4⟩
def MEM_DDR_TIM1_WTR : Fld := ⟨26, 4⟩
def MEM_DDR_TIM2_RFC : Fld := ⟨0, 10⟩
def MEM_DDR_TIM2_REFI : Fld := ⟨10, 16⟩
def MEM_DDR_INITPTR_PTR : Fld := ⟨0, 32⟩
def MEM_DDR_ECC_CORR : Fld := ⟨0, 16⟩
def MEM_DDR_ECC_UNCORR : Fld := ⟨16, 16⟩
def MEM_DDR_RSEG_SEG : Fld := ⟨0, 10⟩
def MEM_DDR_RSEG_VALID : Fld := ⟨31, 1⟩
def CUP_STAT_ACTIVE : Fld := ⟨0, 1⟩
def CUP_STAT_STBYRDY : Fld := ⟨1, 1⟩
def CUP_STAT_HOLDL : Fld := ⟨2, 1⟩
def CUP_STAT_HCAUSE : Fld := ⟨3, 4⟩
def CUP_STAT_OUTOFF : Fld := ⟨7, 1⟩
def CUP_STAT_PSVALID : Fld := ⟨8, 1⟩
def CUP_STAT_PSET : Fld := ⟨9, 4⟩
def CUP_STAT_PSCONF : Fld := ⟨13, 1⟩
def CUP_STAT_RUNPERM : Fld := ⟨14, 1⟩
def CUP_STAT_SEALBRK : Fld := ⟨15, 1⟩
def CUP_STAT_UPD : Fld := ⟨16, 1⟩
def FLD_FD_LOT_LOT : Fld := ⟨0, 24⟩
def FLD_FD_LOT_WAFER : Fld := ⟨24, 5⟩
def FLD_FD_POS_DIE_X : Fld := ⟨0, 8⟩
def FLD_FD_POS_DIE_Y : Fld := ⟨8, 8⟩
def FLD_FD_POS_TEST_SITE : Fld := ⟨16, 4⟩
def FLD_FD_POS_DIE_REV : Fld := ⟨20, 4⟩
def FLD_FD_DATE_WEEK : Fld := ⟨0, 8⟩
def FLD_FD_DATE_YEAR : Fld := ⟨8, 8⟩
def FLD_FD_IDSTAT_VALID : Fld := ⟨0, 1⟩
def FLD_FD_IDSTAT_CRC_ERR : Fld := ⟨1, 1⟩
def FLD_FD_IDSTAT_CHG : Fld := ⟨2, 1⟩
def FLD_EN_CFG_TYPE : Fld := ⟨0, 2⟩
def FLD_EN_CFG_DIRINV : Fld := ⟨2, 1⟩
def FLD_EN_ABS_ABITS : Fld := ⟨0, 6⟩
def FLD_EN_ABS_GRAY : Fld := ⟨6, 1⟩
def FLD_EN_ABS_SCLK : Fld := ⟨7, 3⟩
def FLD_EN_ABS_MTBITS : Fld := ⟨10, 6⟩

/-! ### Rows: base, up to three dimensions (count, stride), reset value and its step per first index, then the masks of the
RW, RWQ, W1C, RC bits and of the bits that read 0 (WO, W1S). -/

def rowsSYS0 : List RegRow := [
  ⟨0x60000000, 1, 4, 1, 4, 1, 4, 0, 0, 0, 0, 0, 0, 0⟩,
  ⟨0x60000004, 1, 4, 1, 4, 1, 4, 0, 0, 0, 0, 0, 0, 0⟩,
  ⟨0x60000008, 1, 4, 1, 4, 1, 4, 0, 0, 0, 0, 0, 0, 0⟩,
  ⟨0x6000000C, 1, 4, 1, 4, 1, 4, 0, 0, 0, 0, 0, 0, 0⟩,
  ⟨0x60000010, 1, 4, 1, 4, 1, 4, 0, 0, 0, 0, 0, 0, 0⟩,
  ⟨0x60000040, 1, 4, 1, 4, 1, 4, 0x80000000, 0, 0xFF000001, 0, 0, 0, 0⟩,
  ⟨0x60001100, 32, 0x100, 1, 4, 1, 4, 0, 0, 1, 0, 0, 0, 0⟩,
  ⟨0x60001108, 32, 0x100, 8, 8, 1, 4, 0, 0, 0xFFFFFFE0, 0, 0, 0, 0⟩,
  ⟨0x6000110C, 32, 0x100, 8, 8, 1, 4, 0, 0, 0x1F07, 0, 0, 0, 0⟩,
  ⟨0x60001080, 32, 0x100, 1, 4, 1, 4, 0, 0, 5, 0, 0, 0, 0xFA⟩,
  ⟨0x60001084, 32, 0x100, 1, 4, 1, 4, 0, 0, 0, 0, 0, 0, 0⟩,
  ⟨0x60001088, 32, 0x100, 1, 4, 1, 4, 0, 0, 0, 0, 0, 0, 0⟩,
  ⟨0x6000108C, 32, 0x100, 1, 4, 1, 4, 0, 0, 0, 0, 0, 0, 0⟩,
  ⟨0x60001090, 32, 0x100, 1, 4, 1, 4, 0, 0, 0, 0, 0, 0, 0⟩,
  ⟨0x60001094, 32, 0x100, 1, 4, 1, 4, 0, 0, 0, 0, 0, 0xFFFFFFFF, 0⟩,
  ⟨0x60001098, 32, 0x100, 1, 4, 1, 4, 0, 0, 0, 0xFFFFFFC0, 0, 0, 0⟩,
  ⟨0x60000F00, 1, 4, 1, 4, 1, 4, 0, 0, 0, 0xFFFFFFE0, 0, 0, 0⟩,
  ⟨0x60000F04, 1, 4, 1, 4, 1, 4, 0, 0, 0, 0xFFFFFFFF, 0, 0, 0⟩,
  ⟨0x60000F08, 1, 4, 1, 4, 1, 4, 0, 0, 0, 0xFFFFFF, 0, 0, 0⟩,
  ⟨0x60000F0C, 1, 4, 1, 4, 1, 4, 0, 0, 0, 0x3FC, 0, 0, 3⟩,
  ⟨0x60000F10, 1, 4, 1, 4, 1, 4, 0, 0, 0, 0, 0, 0, 0⟩,
  ⟨0x60000F14, 1, 4, 1, 4, 1, 4, 0, 0, 0, 0xFFFFFFFF, 0, 0, 0⟩,
  ⟨0x60000F18, 1, 4, 1, 4, 1, 4, 0, 0, 0, 0, 0, 0, 0⟩,
  ⟨0x60000100, 1, 4, 1, 4, 1, 4, 1, 0, 0, 0, 0, 0, 0⟩]

def rowsSYS1 : List RegRow := [
  ⟨0x60000104, 1, 4, 1, 4, 1, 4, 0, 0, 0, 0, 0, 0, 0xFF03⟩,
  ⟨0x60000108, 1, 4, 1, 4, 1, 4, 0, 0, 0, 0, 0, 0, 0⟩,
  ⟨0x6000010C, 1, 4, 1, 4, 1, 4, 0, 0, 0xFFF, 0, 0, 0, 0⟩,
  ⟨0x60000110, 1, 4, 1, 4, 1, 4, 0, 0, 0xFFFF, 0, 0, 0, 0⟩,
  ⟨0x60000120, 1, 4, 1, 4, 1, 4, 0, 0, 0, 0, 0, 0, 0⟩,
  ⟨0x60000124, 1, 4, 1, 4, 1, 4, 0, 0, 0, 0, 0, 0, 0⟩,
  ⟨0x60000128, 1, 4, 1, 4, 1, 4, 0, 0, 0, 0, 0, 0, 0⟩,
  ⟨0x6000012C, 1, 4, 1, 4, 1, 4, 0, 0, 0x7FFFFF, 0, 0, 0, 0x80000000⟩,
  ⟨0x60000140, 1, 4, 1, 4, 1, 4, 0, 0, 0, 0, 0, 0, 0⟩,
  ⟨0x60000144, 1, 4, 1, 4, 1, 4, 0, 0, 0, 0, 0, 0, 0xFF1F⟩,
  ⟨0x60000160, 8, 4, 1, 4, 1, 4, 0, 0, 0xFFFFFFFF, 0, 0, 0, 0⟩,
  ⟨0x60000130, 1, 4, 1, 4, 1, 4, 0, 0, 0, 0, 0, 0, 0xFFFFFFFF⟩,
  ⟨0x60000134, 1, 4, 1, 4, 1, 4, 1, 0, 0, 0, 0, 0, 0⟩,
  ⟨0x60000138, 1, 4, 1, 4, 1, 4, 0, 0, 0, 0, 0, 0, 0xF⟩,
  ⟨0x6000013C, 1, 4, 1, 4, 1, 4, 0, 0, 0, 0, 0, 0, 0xFFFFFFFF⟩]

def rowsSYS : List RegRow := rowsSYS0 ++ rowsSYS1

def rowsVIG0 : List RegRow := [
  ⟨0x60010000, 1, 4, 1, 4, 1, 4, 0x61000A3, 0, 0xFFFFFFFF, 0, 0, 0, 0⟩,
  ⟨0x60010004, 1, 4, 1, 4, 1, 4, 0, 0, 0, 0, 0x14, 0, 0⟩,
  ⟨0x60010008, 1, 4, 1, 4, 1, 4, 0, 0, 0, 0, 0, 0, 0⟩,
  ⟨0x6001000C, 1, 4, 1, 4, 1, 4, 0, 0, 0, 0, 0, 0, 0⟩,
  ⟨0x60010010, 1, 4, 1, 4, 1, 4, 0, 0, 0, 0, 0, 0, 0⟩,
  ⟨0x60010014, 1, 4, 1, 4, 1, 4, 0, 0, 0, 0, 0, 0, 0⟩,
  ⟨0x60010018, 1, 4, 1, 4, 1, 4, 0, 0, 0, 0, 0, 0, 0⟩,
  ⟨0x6001001C, 1, 4, 1, 4, 1, 4, 0, 0, 0, 0, 0, 0, 0⟩,
  ⟨0x60010020, 1, 4, 1, 4, 1, 4, 0, 0, 0, 0, 0, 0xFFFFFFFF, 0⟩,
  ⟨0x60010024, 1, 4, 1, 4, 1, 4, 0, 0, 0, 0, 0, 0, 0⟩,
  ⟨0x60010028, 1, 4, 1, 4, 1, 4, 0, 0, 0, 0, 0, 0xFFFFFFFF, 0⟩,
  ⟨0x6001002C, 1, 4, 1, 4, 1, 4, 0, 0, 0xFFF, 0, 0, 0, 0⟩,
  ⟨0x60010030, 1, 4, 1, 4, 1, 4, 0, 0, 0xFFFF, 0, 0, 0, 0⟩,
  ⟨0x60010034, 1, 4, 1, 4, 1, 4, 0, 0, 0, 0, 0, 0, 0⟩,
  ⟨0x60010038, 1, 4, 1, 4, 1, 4, 0, 0, 0, 0, 0, 0, 0x8000FFFF⟩,
  ⟨0x6001003C, 1, 4, 1, 4, 1, 4, 0, 0, 0, 0, 0, 0, 0⟩,
  ⟨0x60010040, 1, 4, 1, 4, 1, 4, 0, 0, 0, 0, 0, 0, 0⟩,
  ⟨0x60010044, 2, 4, 1, 4, 1, 4, 0, 0, 0, 0, 0, 0, 0⟩,
  ⟨0x6001004C, 1, 4, 1, 4, 1, 4, 0, 0, 0, 0, 0, 0, 0⟩,
  ⟨0x60010050, 1, 4, 1, 4, 1, 4, 0, 0, 0, 0, 0, 0, 0⟩,
  ⟨0x60010054, 1, 4, 1, 4, 1, 4, 0, 0, 0, 0, 0, 0, 0⟩]

def rowsVIG : List RegRow := rowsVIG0

def rowsPLM0 : List RegRow := [
  ⟨0x60020000, 1, 4, 1, 4, 1, 4, 0x10001, 0, 0, 0, 0, 0, 0⟩,
  ⟨0x60020004, 1, 4, 1, 4, 1, 4, 0, 0, 0, 0, 0, 0, 0⟩,
  ⟨0x60020008, 1, 4, 1, 4, 1, 4, 0x1407DF, 0, 0x1FFFFF, 0, 0, 0, 0⟩,
  ⟨0x6002000C, 1, 4, 1, 4, 1, 4, 0x2555555, 0, 0xFFFFFFFF, 0, 0, 0, 0⟩,
  ⟨0x60020010, 1, 4, 1, 4, 1, 4, 0, 0, 0, 0, 0, 0, 0⟩,
  ⟨0x60020014, 1, 4, 1, 4, 1, 4, 0x4C020000, 0, 0, 0xFFFFFFFF, 0, 0, 0⟩,
  ⟨0x60020018, 1, 4, 1, 4, 1, 4, 0x20000, 0, 0, 0xFFFFFFFF, 0, 0, 0⟩,
  ⟨0x6002001C, 1, 4, 1, 4, 1, 4, 0, 0, 0xFFFFFFFF, 0, 0, 0, 0⟩,
  ⟨0x60020020, 1, 4, 1, 4, 1, 4, 0, 0, 0xFFFFFFFF, 0, 0, 0, 0⟩,
  ⟨0x60020024, 1, 4, 1, 4, 1, 4, 0, 0, 0, 0, 0, 0, 0⟩,
  ⟨0x60020028, 1, 4, 1, 4, 1, 4, 0, 0, 0, 0, 0, 0, 0⟩,
  ⟨0x6002002C, 1, 4, 1, 4, 1, 4, 0, 0, 0, 0, 0, 0, 0⟩,
  ⟨0x60020030, 1, 4, 1, 4, 1, 4, 0, 0, 0, 0, 0, 0, 0⟩,
  ⟨0x60020034, 1, 4, 1, 4, 1, 4, 0, 0, 0, 0, 0, 0, 0⟩,
  ⟨0x60020100, 32, 4, 1, 4, 1, 4, 0, 0, 0, 0, 0, 0, 0⟩,
  ⟨0x60020200, 64, 4, 1, 4, 1, 4, 0x2000, 0, 0, 0, 0, 0, 0⟩,
  ⟨0x60020300, 32, 4, 1, 4, 1, 4, 0x2000, 0, 0, 0, 0, 0, 0⟩,
  ⟨0x60021000, 64, 0x80, 32, 4, 1, 4, 0, 0, 0xFFFFFFFF, 0, 0, 0, 0⟩,
  ⟨0x60023000, 64, 0x40, 16, 4, 1, 4, 0, 0, 0, 0, 0, 0, 0⟩,
  ⟨0x60024000, 256, 8, 2, 4, 1, 4, 0, 0, 0xFFFFFFFF, 0, 0, 0, 0⟩,
  ⟨0x60024800, 256, 8, 2, 4, 1, 4, 0, 0, 0, 0, 0, 0, 0⟩]

def rowsPLM : List RegRow := rowsPLM0

def rowsALM0 : List RegRow := [
  ⟨0x60040000, 1, 4, 1, 4, 1, 4, 0, 0, 1, 0, 0, 0, 0⟩,
  ⟨0x60040004, 1, 4, 1, 4, 1, 4, 0, 0, 0, 0, 0, 0, 0⟩,
  ⟨0x60040100, 4, 0x40, 1, 4, 1, 4, 0x600, 0, 0xF1F, 0, 0, 0, 0xE0⟩,
  ⟨0x60040104, 4, 0x40, 1, 4, 1, 4, 0, 0, 0, 0, 6, 0, 0⟩,
  ⟨0x60040108, 4, 0x40, 1, 4, 1, 4, 0, 0, 0, 0, 0, 0, 0⟩,
  ⟨0x6004010C, 4, 0x40, 1, 4, 1, 4, 0, 0, 0, 0, 0, 0, 0⟩,
  ⟨0x60040110, 4, 0x40, 1, 4, 1, 4, 0, 0, 0, 0, 0, 0, 0⟩,
  ⟨0x60040114, 4, 0x40, 1, 4, 1, 4, 0, 0, 0, 0, 0, 0, 0⟩,
  ⟨0x60040118, 4, 0x40, 1, 4, 1, 4, 0, 0, 0xFFFFFFFF, 0, 0, 0, 0⟩,
  ⟨0x6004011C, 4, 0x40, 1, 4, 1, 4, 0, 0, 0xFFFFFFFF, 0, 0, 0, 0⟩,
  ⟨0x60040120, 4, 0x40, 1, 4, 1, 4, 0, 0, 0xFFFFFFFF, 0, 0, 0, 0⟩,
  ⟨0x60040124, 4, 0x40, 1, 4, 1, 4, 0, 0, 0xFFFFFFFF, 0, 0, 0, 0⟩,
  ⟨0x60040128, 4, 0x40, 1, 4, 1, 4, 0, 0, 0xFFFFFFFF, 0, 0, 0, 0⟩,
  ⟨0x6004012C, 4, 0x40, 1, 4, 1, 4, 0, 0, 0xFFFFFFFF, 0, 0, 0, 0⟩,
  ⟨0x60040130, 4, 0x40, 1, 4, 1, 4, 0, 0, 0xFFFFFFFF, 0, 0, 0, 0⟩,
  ⟨0x60040200, 1, 4, 1, 4, 1, 4, 0, 0, 0, 0, 0, 0, 0⟩,
  ⟨0x60040204, 1, 4, 1, 4, 1, 4, 0, 0, 0, 0, 0, 0, 0⟩,
  ⟨0x60040208, 1, 4, 1, 4, 1, 4, 0, 0, 0, 0, 0, 0, 0⟩,
  ⟨0x6004020C, 1, 4, 1, 4, 1, 4, 0, 0, 0, 0, 0, 0, 0⟩,
  ⟨0x60040210, 1, 4, 1, 4, 1, 4, 0, 0, 0, 0, 0, 0, 0⟩,
  ⟨0x60040300, 1, 4, 1, 4, 1, 4, 0, 0, 0, 0, 0, 0, 1⟩,
  ⟨0x60040304, 1, 4, 1, 4, 1, 4, 0, 0, 0, 0, 0, 0, 0⟩,
  ⟨0x60040308, 1, 4, 1, 4, 1, 4, 0, 0, 0, 0, 0, 0, 0⟩,
  ⟨0x6004030C, 1, 4, 1, 4, 1, 4, 0, 0, 0, 0, 0, 0, 0⟩]

def rowsALM1 : List RegRow := [
  ⟨0x60040310, 4, 0x10, 1, 4, 1, 4, 0, 0, 0, 0, 0, 0, 0⟩,
  ⟨0x60040314, 4, 0x10, 1, 4, 1, 4, 0, 0, 0, 0, 0, 0, 0⟩,
  ⟨0x60040318, 4, 0x10, 1, 4, 1, 4, 0, 0, 0, 0, 0, 0, 0⟩,
  ⟨0x60040400, 2, 0x40, 1, 4, 1, 4, 0x282880, 0, 0x3FFFFFF, 0, 0, 0, 0⟩,
  ⟨0x60040404, 2, 0x40, 1, 4, 1, 4, 1, 0, 0xFFFFFFF, 0, 0, 0, 0⟩,
  ⟨0x60040408, 2, 0x40, 1, 4, 1, 4, 0, 0, 0xFFFFFFFF, 0, 0, 0, 0⟩,
  ⟨0x6004040C, 2, 0x40, 1, 4, 1, 4, 0x10C7, 0, 0xFFFFFFFF, 0, 0, 0, 0⟩,
  ⟨0x60040410, 2, 0x40, 1, 4, 1, 4, 0, 0, 0, 0, 0, 0, 0⟩,
  ⟨0x60040414, 2, 0x40, 1, 4, 1, 4, 0, 0, 0, 0, 0, 0, 0⟩,
  ⟨0x60040418, 2, 0x40, 1, 4, 1, 4, 0, 0, 0, 0, 0, 0, 0⟩,
  ⟨0x6004041C, 2, 0x40, 1, 4, 1, 4, 0, 0, 0, 0, 0, 0, 0⟩,
  ⟨0x60040420, 2, 0x40, 1, 4, 1, 4, 0, 0, 0, 0, 0x10, 0, 0⟩,
  ⟨0x60040424, 2, 0x40, 1, 4, 1, 4, 0, 0, 0, 0, 0, 0, 0xFFFFFFFF⟩,
  ⟨0x60040428, 2, 0x40, 1, 4, 1, 4, 0, 0, 0, 0, 0, 0, 0⟩,
  ⟨0x60040480, 1, 4, 1, 4, 1, 4, 0, 0, 0xFF07, 0, 0, 0, 8⟩,
  ⟨0x60040484, 1, 4, 1, 4, 1, 4, 0, 0, 0, 0, 0, 0, 0⟩,
  ⟨0x60040488, 1, 4, 1, 4, 1, 4, 0, 0, 0, 0, 0, 0, 0⟩,
  ⟨0x6004048C, 1, 4, 1, 4, 1, 4, 0, 0, 0xFFFFFFFF, 0, 0, 0, 0⟩,
  ⟨0x60040490, 1, 4, 1, 4, 1, 4, 0, 0, 0xFFFF, 0, 0, 0, 0⟩,
  ⟨0x60040494, 1, 4, 1, 4, 1, 4, 0, 0, 0, 0, 2, 0, 0⟩,
  ⟨0x60040498, 1, 4, 1, 4, 1, 4, 0, 0, 0, 0, 0, 0, 0⟩,
  ⟨0x600404C0, 1, 4, 1, 4, 1, 4, 0x28, 0, 0x3FF, 0, 0, 0, 0⟩,
  ⟨0x600404C4, 1, 4, 1, 4, 1, 4, 0, 0, 0, 0, 0, 0, 0⟩,
  ⟨0x600404C8, 1, 4, 1, 4, 1, 4, 0, 0, 0, 0, 0, 0, 0⟩]

def rowsALM2 : List RegRow := [
  ⟨0x600404CC, 1, 4, 1, 4, 1, 4, 0, 0, 0, 0, 0, 0, 0⟩,
  ⟨0x600404D0, 1, 4, 1, 4, 1, 4, 0, 0, 0, 0, 0, 0, 0⟩,
  ⟨0x60040600, 1, 4, 1, 4, 1, 4, 0, 0, 0, 0, 0x2000000, 0, 0⟩,
  ⟨0x60040604, 1, 4, 1, 4, 1, 4, 0, 0, 0, 0, 0, 0, 0⟩,
  ⟨0x60040608, 1, 4, 1, 4, 1, 4, 0, 0, 0, 0, 0, 0xFFFFFFFF, 0⟩,
  ⟨0x60040700, 1, 4, 1, 4, 1, 4, 0, 0, 0x1FF1FFF, 0, 0, 0, 0⟩,
  ⟨0x60040704, 1, 4, 1, 4, 1, 4, 0, 0, 0, 0, 0, 0, 0⟩,
  ⟨0x60040708, 1, 4, 1, 4, 1, 4, 0, 0, 0x1FF, 0, 0, 0, 0⟩,
  ⟨0x6004070C, 1, 4, 1, 4, 1, 4, 0, 0, 0, 0, 0, 0xFFFFFFFF, 0⟩,
  ⟨0x60040710, 1, 4, 1, 4, 1, 4, 0, 0, 0, 0, 0, 0, 0⟩,
  ⟨0x60040714, 1, 4, 1, 4, 1, 4, 0, 0, 0, 0, 0, 0, 0⟩,
  ⟨0x60040718, 1, 4, 1, 4, 1, 4, 0, 0, 0, 0, 0, 0, 0⟩,
  ⟨0x6004071C, 1, 4, 1, 4, 1, 4, 0, 0, 0, 0, 0, 0, 0xFF⟩,
  ⟨0x60050000, 2048, 0x20, 8, 4, 1, 4, 0, 0, 0, 0, 0, 0, 0⟩,
  ⟨0x60048000, 256, 0x10, 4, 4, 1, 4, 0, 0, 0, 0, 0, 0, 0⟩]

def rowsALM : List RegRow := rowsALM0 ++ rowsALM1 ++ rowsALM2

def rowsCAR0 : List RegRow := [
  ⟨0x60060000, 8, 0x1000, 1, 4, 1, 4, 0, 0, 0xF, 0, 0, 0, 0x1F0⟩,
  ⟨0x60060004, 8, 0x1000, 1, 4, 1, 4, 0, 0, 0, 0, 0, 0, 0⟩,
  ⟨0x60060008, 8, 0x1000, 1, 4, 1, 4, 0, 0, 0, 0, 0, 0, 0⟩,
  ⟨0x6006000C, 8, 0x1000, 1, 4, 1, 4, 0, 0, 0, 0, 0, 0, 0⟩,
  ⟨0x60060010, 8, 0x1000, 1, 4, 1, 4, 0, 0, 0xF, 0, 0, 0, 0⟩,
  ⟨0x60060100, 8, 0x1000, 48, 4, 1, 4, 0, 0, 0xFFFFF, 0, 0, 0, 0⟩,
  ⟨0x60060200, 8, 0x1000, 4, 0x80, 1, 4, 0xA0, 0, 0, 0x7FFF, 0, 0, 0⟩,
  ⟨0x60060204, 8, 0x1000, 4, 0x80, 1, 4, 0, 0, 0, 0xFFFFFFFF, 0, 0, 0⟩,
  ⟨0x60060208, 8, 0x1000, 4, 0x80, 1, 4, 0, 0, 0, 0xFFFFFFFF, 0, 0, 0⟩,
  ⟨0x6006020C, 8, 0x1000, 4, 0x80, 1, 4, 0, 0, 0, 0xFFFFFFFF, 0, 0, 0⟩,
  ⟨0x60060210, 8, 0x1000, 4, 0x80, 1, 4, 0, 0, 0, 0, 0x1C000, 0, 0⟩,
  ⟨0x60060214, 8, 0x1000, 4, 0x80, 1, 4, 0, 0, 0, 0, 0, 0, 0xFFFFF⟩,
  ⟨0x60060218, 8, 0x1000, 4, 0x80, 1, 4, 0, 0, 0, 0xFFFFFFFF, 0, 0, 0⟩,
  ⟨0x6006021C, 8, 0x1000, 4, 0x80, 1, 4, 0, 0, 0, 0xFFFFFFFF, 0, 0, 0⟩,
  ⟨0x60060220, 8, 0x1000, 4, 0x80, 1, 4, 0, 0, 0, 0xFFFFFFFF, 0, 0, 0⟩,
  ⟨0x60060224, 8, 0x1000, 4, 0x80, 1, 4, 0, 0, 0, 0xFFFFFFFF, 0, 0, 0⟩,
  ⟨0x60060228, 8, 0x1000, 4, 0x80, 1, 4, 0, 0, 0, 0xFFFFFFFF, 0, 0, 0⟩,
  ⟨0x6006022C, 8, 0x1000, 4, 0x80, 1, 4, 0, 0, 0, 0xFFFFFFFF, 0, 0, 0⟩,
  ⟨0x60060230, 8, 0x1000, 4, 0x80, 1, 4, 0, 0, 0, 0x3F3F, 0, 0, 0⟩,
  ⟨0x60060234, 8, 0x1000, 4, 0x80, 1, 4, 0, 0, 0, 0, 0, 0, 0xFFFFFFFF⟩,
  ⟨0x60060238, 8, 0x1000, 4, 0x80, 1, 4, 0, 0, 0, 0, 0, 0, 0⟩,
  ⟨0x6006023C, 8, 0x1000, 4, 0x80, 1, 4, 0, 0, 0x1F1F, 0, 0, 0, 0⟩,
  ⟨0x60060240, 8, 0x1000, 4, 0x80, 1, 4, 0, 0, 0x3FFFF, 0, 0, 0, 0⟩,
  ⟨0x60060244, 8, 0x1000, 4, 0x80, 1, 4, 0, 0, 0, 0, 0, 0, 0⟩]

def rowsCAR1 : List RegRow := [
  ⟨0x60060248, 8, 0x1000, 4, 0x80, 1, 4, 0, 0, 0, 0, 0, 0, 0⟩,
  ⟨0x6006024C, 8, 0x1000, 4, 0x80, 1, 4, 0, 0, 0, 0, 0, 0xFFFFFFFF, 0⟩,
  ⟨0x60060250, 8, 0x1000, 4, 0x80, 1, 4, 0, 0, 0, 0xFFFFFFFF, 0, 0, 0⟩,
  ⟨0x60060254, 8, 0x1000, 4, 0x80, 1, 4, 0, 0, 0, 0xFFFF, 0, 0, 0⟩,
  ⟨0x60060258, 8, 0x1000, 4, 0x80, 1, 4, 0, 0, 0, 0xFFFFFFFF, 0, 0, 0⟩,
  ⟨0x6006025C, 8, 0x1000, 4, 0x80, 1, 4, 0, 0, 0, 0xFFFF, 0, 0, 0⟩,
  ⟨0x60060260, 8, 0x1000, 4, 0x80, 1, 4, 0, 0, 0, 0x30, 0, 0, 0xF⟩,
  ⟨0x60060264, 8, 0x1000, 4, 0x80, 1, 4, 0, 0, 0, 0, 0, 0, 0⟩,
  ⟨0x60068000, 8, 4, 1, 4, 1, 4, 0, 0, 0, 0xFFF, 0, 0, 0⟩,
  ⟨0x60068020, 1, 4, 1, 4, 1, 4, 0, 0, 0, 0, 0, 0, 0⟩,
  ⟨0x60068024, 1, 4, 1, 4, 1, 4, 0, 0, 0, 0, 0, 0, 0⟩,
  ⟨0x60068028, 1, 4, 1, 4, 1, 4, 0, 0, 0, 0, 0, 0, 0⟩,
  ⟨0x6006802C, 1, 4, 1, 4, 1, 4, 0, 0, 0, 0, 0, 0, 0⟩]

def rowsCAR : List RegRow := rowsCAR0 ++ rowsCAR1

def rowsETH0 : List RegRow := [
  ⟨0x60088400, 6, 0x40, 1, 4, 1, 4, 0, 0, 0xFF1E3F3F, 0, 0, 0, 0x10000⟩,
  ⟨0x60088404, 6, 0x40, 1, 4, 1, 4, 0, 0, 0, 0, 0, 0, 0⟩,
  ⟨0x60088408, 6, 0x40, 1, 4, 1, 4, 0, 0, 0, 0, 0, 0, 0⟩,
  ⟨0x6008840C, 6, 0x40, 1, 4, 1, 4, 0, 0, 0, 0, 0, 0, 0⟩,
  ⟨0x60088410, 6, 0x40, 1, 4, 1, 4, 0, 0, 0, 0, 0, 0, 0⟩,
  ⟨0x60088414, 6, 0x40, 1, 4, 1, 4, 0, 0, 0, 0, 0, 0xFFFFFFFF, 0⟩,
  ⟨0x60088418, 6, 0x40, 1, 4, 1, 4, 0, 0, 0, 0, 0, 0xFFFFFFFF, 0⟩,
  ⟨0x6008841C, 6, 0x40, 1, 4, 1, 4, 0, 0, 0, 0, 0, 0xFFFFFFFF, 0⟩,
  ⟨0x60088420, 6, 0x40, 1, 4, 1, 4, 0, 0, 0, 0, 0, 0xFFFFFFFF, 0⟩,
  ⟨0x60088424, 6, 0x40, 1, 4, 1, 4, 0, 0, 0, 0, 0, 0xFFFFFFFF, 0⟩,
  ⟨0x60088428, 6, 0x40, 1, 4, 1, 4, 0, 0, 0, 0, 0, 0, 0⟩,
  ⟨0x6008842C, 6, 0x40, 1, 4, 1, 4, 0, 0, 0, 0, 0, 0, 0⟩,
  ⟨0x60080000, 6, 0x1000, 1, 4, 1, 4, 0x60, 0, 1, 0x1FFC, 0, 0, 2⟩,
  ⟨0x60080004, 6, 0x1000, 1, 4, 1, 4, 0x10, 0, 0, 0, 0, 0, 0⟩,
  ⟨0x60080008, 6, 0x1000, 1, 4, 1, 4, 0, 0, 3, 0, 0, 0, 0⟩,
  ⟨0x6008000C, 6, 0x1000, 1, 4, 1, 4, 0x5EE0000, 0, 0x3FFF003F, 0, 0, 0, 0⟩,
  ⟨0x60080010, 6, 0x1000, 1, 4, 1, 4, 0xFF, 0, 0xFF, 0, 0, 0, 0⟩,
  ⟨0x60080014, 6, 0x1000, 1, 4, 1, 4, 0x1E114000, 0, 0xFFFFFF01, 0, 0, 0, 0⟩,
  ⟨0x60080018, 6, 0x1000, 1, 4, 1, 4, 0x3C462800, 0, 0xFF7F7F01, 0, 0, 0, 0⟩,
  ⟨0x6008001C, 6, 0x1000, 1, 4, 1, 4, 0x14, 0, 0x3FF, 0, 0, 0, 0⟩,
  ⟨0x60080100, 6, 0x1000, 4, 4, 1, 4, 0, 0, 0xFFFFFFFF, 0, 0, 0, 0⟩,
  ⟨0x60080500, 6, 0x1000, 1, 4, 1, 4, 0xFF, 0, 0xFF, 0, 0, 0, 0⟩,
  ⟨0x60080504, 6, 0x1000, 1, 4, 1, 4, 0x30A0000, 0, 0x7FF0001, 0xFFE, 0, 0, 0⟩,
  ⟨0x60080508, 6, 0x1000, 1, 4, 1, 4, 0, 0, 0, 0, 0, 0, 0⟩]

def rowsETH1 : List RegRow := [
  ⟨0x60088000, 1, 4, 1, 4, 1, 4, 0, 0, 0, 0, 0, 0, 1⟩,
  ⟨0x60088004, 1, 4, 1, 4, 1, 4, 0, 0, 0, 0x3F, 0, 0, 0⟩,
  ⟨0x60088010, 1, 4, 1, 4, 1, 4, 0x180000, 0, 0x3F1FFF, 0, 0, 0, 0x2000⟩,
  ⟨0x60088014, 1, 4, 1, 4, 1, 4, 0, 0, 0xFFFF, 0, 0, 0, 0⟩,
  ⟨0x60080200, 6, 0x1000, 8, 0x40, 1, 4, 0x400000, 0, 0xFF00001, 0xFFFFE, 0, 0, 0⟩,
  ⟨0x60080204, 6, 0x1000, 8, 0x40, 1, 4, 0, 0, 0, 0xFFFFFFE0, 0, 0, 0⟩,
  ⟨0x60080208, 6, 0x1000, 8, 0x40, 1, 4, 0, 0, 0, 0x1FFF, 0, 0, 0⟩,
  ⟨0x6008020C, 6, 0x1000, 8, 0x40, 1, 4, 0, 0, 0, 0, 0, 0, 0⟩,
  ⟨0x60080210, 6, 0x1000, 8, 0x40, 1, 4, 0, 0, 0xFFF, 0, 0, 0, 0⟩,
  ⟨0x60080214, 6, 0x1000, 8, 0x40, 1, 4, 1, 0, 0, 0, 0, 0, 0⟩,
  ⟨0x60080218, 6, 0x1000, 8, 0x40, 1, 4, 0x3E8, 0, 0xFFFFFFFF, 0, 0, 0, 0⟩,
  ⟨0x6008021C, 6, 0x1000, 8, 0x40, 1, 4, 0, 0, 0, 0, 0, 0, 0x80000FFF⟩,
  ⟨0x60080220, 6, 0x1000, 8, 0x40, 1, 4, 0, 0, 0, 0, 0, 0, 0⟩,
  ⟨0x60080800, 6, 0x1000, 1, 4, 1, 4, 0, 0, 0, 0, 0, 0, 0⟩,
  ⟨0x60080804, 6, 0x1000, 1, 4, 1, 4, 0, 0, 0, 0, 0, 0, 0⟩,
  ⟨0x60080808, 6, 0x1000, 1, 4, 1, 4, 0, 0, 0, 0, 0, 0xFFFFFFFF, 0⟩,
  ⟨0x6008080C, 6, 0x1000, 1, 4, 1, 4, 0, 0, 0, 0, 0, 0xFFFFFFFF, 0⟩,
  ⟨0x60080810, 6, 0x1000, 1, 4, 1, 4, 0, 0, 0, 0, 0, 0xFFFFFFFF, 0⟩,
  ⟨0x60080814, 6, 0x1000, 1, 4, 1, 4, 0, 0, 0, 0, 0, 0xFFFFFFFF, 0⟩,
  ⟨0x60080818, 6, 0x1000, 1, 4, 1, 4, 0, 0, 0, 0, 0, 0xFFFFFFFF, 0⟩,
  ⟨0x6008081C, 6, 0x1000, 1, 4, 1, 4, 0, 0, 0, 0, 0, 0xFFFFFFFF, 0⟩,
  ⟨0x60080820, 6, 0x1000, 1, 4, 1, 4, 0, 0, 0, 0, 0, 0xFFFFFFFF, 0⟩,
  ⟨0x60080824, 6, 0x1000, 1, 4, 1, 4, 0, 0, 0, 0, 0, 0xFFFFFFFF, 0⟩,
  ⟨0x60080828, 6, 0x1000, 1, 4, 1, 4, 0, 0, 0, 0, 0, 0xFFFFFFFF, 0⟩]

def rowsETH2 : List RegRow := [
  ⟨0x6008082C, 6, 0x1000, 1, 4, 1, 4, 0, 0, 0, 0, 0, 0xFFFFFFFF, 0⟩,
  ⟨0x60080830, 6, 0x1000, 1, 4, 1, 4, 0, 0, 0, 0, 0, 0, 0⟩,
  ⟨0x60080834, 6, 0x1000, 1, 4, 1, 4, 0, 0, 0, 0, 0, 0, 0⟩,
  ⟨0x60080838, 6, 0x1000, 1, 4, 1, 4, 0, 0, 0, 0, 0, 0xFFFFFFFF, 0⟩,
  ⟨0x6008083C, 6, 0x1000, 1, 4, 1, 4, 0, 0, 0, 0, 0, 0xFFFFFFFF, 0⟩,
  ⟨0x60080840, 6, 0x1000, 1, 4, 1, 4, 0, 0, 0, 0, 0, 0xFFFFFFFF, 0⟩,
  ⟨0x60080844, 6, 0x1000, 1, 4, 1, 4, 0, 0, 0, 0, 0, 0xFFFFFFFF, 0⟩,
  ⟨0x60080848, 6, 0x1000, 1, 4, 1, 4, 0, 0, 0, 0, 0, 0xFFFFFFFF, 0⟩,
  ⟨0x6008084C, 6, 0x1000, 1, 4, 1, 4, 0, 0, 0, 0, 0, 0xFFFFFFFF, 0⟩,
  ⟨0x60080850, 6, 0x1000, 1, 4, 1, 4, 0, 0, 0, 0, 0, 0xFFFFFFFF, 0⟩,
  ⟨0x60080854, 6, 0x1000, 1, 4, 1, 4, 0, 0, 0, 0, 0, 0xFFFFFFFF, 0⟩,
  ⟨0x60080858, 6, 0x1000, 1, 4, 1, 4, 0, 0, 0, 0, 0, 0xFFFFFFFF, 0⟩,
  ⟨0x6008085C, 6, 0x1000, 1, 4, 1, 4, 0, 0, 0, 0, 0, 0xFFFFFFFF, 0⟩,
  ⟨0x60080860, 6, 0x1000, 1, 4, 1, 4, 0, 0, 0, 0, 0, 0xFFFFFFFF, 0⟩,
  ⟨0x60080400, 6, 0x1000, 4, 0x40, 1, 4, 0, 0, 1, 0xFFFFE, 0, 0, 0⟩,
  ⟨0x60080404, 6, 0x1000, 4, 0x40, 1, 4, 0, 0, 0, 0xFFFFFFE0, 0, 0, 0⟩,
  ⟨0x60080408, 6, 0x1000, 4, 0x40, 1, 4, 0, 0, 0, 0x1FFF, 0, 0, 0⟩,
  ⟨0x6008040C, 6, 0x1000, 4, 0x40, 1, 4, 0, 0, 0, 0, 0, 0, 0⟩,
  ⟨0x60080410, 6, 0x1000, 4, 0x40, 1, 4, 0, 0, 0xFFF, 0, 0, 0, 0⟩,
  ⟨0x60080414, 6, 0x1000, 4, 0x40, 1, 4, 1, 0, 0, 0, 0, 0, 0⟩,
  ⟨0x60080600, 6, 0x1000, 32, 0x10, 4, 4, 0, 0, 0, 0, 0, 0, 0⟩]

def rowsETH : List RegRow := rowsETH0 ++ rowsETH1 ++ rowsETH2

def rowsCTB0 : List RegRow := [
  ⟨0x600C0000, 1, 4, 1, 4, 1, 4, 0, 0, 0, 0, 0, 0, 0xF⟩,
  ⟨0x600C0004, 1, 4, 1, 4, 1, 4, 0, 0, 0, 0, 0x18, 0, 0⟩,
  ⟨0x600C0008, 1, 4, 1, 4, 1, 4, 0xC0, 0, 0, 0x1FF, 0, 0, 0⟩,
  ⟨0x600C000C, 1, 4, 1, 4, 1, 4, 0x3E8007D, 0, 0, 0x3FFF07FF, 0, 0, 0⟩,
  ⟨0x600C0010, 1, 4, 1, 4, 1, 4, 0x40000A, 0, 0, 0x3FF3FFF, 0, 0, 0⟩,
  ⟨0x600C0014, 1, 4, 1, 4, 1, 4, 0x88, 0, 0, 0x7FF, 0, 0, 0⟩,
  ⟨0x600C0018, 1, 4, 1, 4, 1, 4, 0x3431F, 0, 0, 0xFFF1F, 0, 0, 0⟩,
  ⟨0x600C001C, 1, 4, 1, 4, 1, 4, 8, 0, 0x100, 0xFF, 0, 0, 0⟩,
  ⟨0x600C0020, 1, 4, 1, 4, 1, 4, 0, 0, 0x3FFFF, 0, 0, 0, 0⟩,
  ⟨0x600C0024, 1, 4, 1, 4, 1, 4, 1, 0, 3, 0, 0, 0, 0⟩,
  ⟨0x600C0028, 1, 4, 1, 4, 1, 4, 0, 0, 0x3F01, 0, 0xC0000, 0, 0x30000⟩,
  ⟨0x600C002C, 1, 4, 1, 4, 1, 4, 0, 0, 0, 0, 0, 0, 0⟩,
  ⟨0x600C0030, 1, 4, 1, 4, 1, 4, 0, 0, 0, 0, 0, 0, 0⟩,
  ⟨0x600C0034, 1, 4, 1, 4, 1, 4, 0, 0, 0, 0, 0, 0, 0⟩,
  ⟨0x600C0040, 8, 4, 1, 4, 1, 4, 0, 0, 0, 0x83FF, 0, 0, 0⟩,
  ⟨0x600C0060, 1, 4, 1, 4, 1, 4, 0, 0, 0, 0, 0, 0, 0⟩,
  ⟨0x600C0100, 2, 0x40, 1, 4, 1, 4, 0, 0, 0, 0, 0, 0, 0⟩,
  ⟨0x600C0104, 2, 0x40, 1, 4, 1, 4, 0, 0, 0, 0, 0, 0xFFFFFFFF, 0⟩,
  ⟨0x600C0108, 2, 0x40, 1, 4, 1, 4, 0, 0, 0, 0, 0, 0xFFFFFFFF, 0⟩,
  ⟨0x600C010C, 2, 0x40, 1, 4, 1, 4, 0, 0, 0, 0, 0, 0xFFFFFFFF, 0⟩,
  ⟨0x600C0110, 2, 0x40, 1, 4, 1, 4, 0, 0, 0, 0, 0, 0xFFFFFFFF, 0⟩,
  ⟨0x600C0114, 2, 0x40, 1, 4, 1, 4, 0, 0, 0, 0, 0, 0xFFFFFFFF, 0⟩,
  ⟨0x600C0118, 2, 0x40, 1, 4, 1, 4, 0, 0, 0, 0, 0, 0xFFFFFFFF, 0⟩,
  ⟨0x600C011C, 2, 0x40, 1, 4, 1, 4, 0, 0, 0, 0, 0, 0, 0⟩]

def rowsCTB1 : List RegRow := [
  ⟨0x600C0180, 1, 4, 1, 4, 1, 4, 0, 0, 0, 0, 0, 0xFFFFFFFF, 0⟩,
  ⟨0x600C0184, 1, 4, 1, 4, 1, 4, 0, 0, 0, 0, 0, 0xFFFFFFFF, 0⟩,
  ⟨0x600C0188, 1, 4, 1, 4, 1, 4, 0, 0, 0, 0, 0, 0xFFFFFFFF, 0⟩,
  ⟨0x600C018C, 1, 4, 1, 4, 1, 4, 0, 0, 0, 0, 0, 0, 0⟩,
  ⟨0x600C0190, 1, 4, 1, 4, 1, 4, 0, 0, 0, 0, 0, 0, 0⟩,
  ⟨0x600C0194, 1, 4, 1, 4, 1, 4, 0, 0, 0, 0, 0, 0xFFFFFFFF, 0⟩,
  ⟨0x600C0198, 1, 4, 1, 4, 1, 4, 0, 0, 0, 0, 0, 0, 0⟩,
  ⟨0x600C019C, 1, 4, 1, 4, 1, 4, 0, 0, 0, 0, 0, 0, 0⟩,
  ⟨0x600C0038, 1, 4, 1, 4, 1, 4, 0x252C3E8, 0, 0, 0xFFFFFFF, 0, 0, 0⟩,
  ⟨0x600C0064, 1, 4, 1, 4, 1, 4, 0, 0, 0, 0, 0, 0, 0⟩,
  ⟨0x600C0068, 1, 4, 1, 4, 1, 4, 0, 0, 0, 0, 0, 0, 0⟩,
  ⟨0x600C006C, 1, 4, 1, 4, 1, 4, 0, 0, 0, 0, 0, 0, 0⟩,
  ⟨0x600C0070, 1, 4, 1, 4, 1, 4, 0x3E800, 0, 0xFFFF01, 0, 0, 0, 0⟩,
  ⟨0x600C0074, 1, 4, 1, 4, 1, 4, 0, 0, 0xFFFFFFFF, 0, 0, 0, 0⟩,
  ⟨0x600C0080, 16, 4, 1, 4, 1, 4, 0, 0, 0, 0x7FF, 0, 0, 0⟩,
  ⟨0x600C00C0, 8, 4, 1, 4, 1, 4, 0, 0, 0, 0, 0, 0, 0⟩,
  ⟨0x600C01A0, 1, 4, 1, 4, 1, 4, 0, 0, 0, 0, 0, 0xFFFFFFFF, 0⟩,
  ⟨0x600C01A4, 1, 4, 1, 4, 1, 4, 0, 0, 0, 0, 0, 0xFFFFFFFF, 0⟩,
  ⟨0x600C01A8, 1, 4, 1, 4, 1, 4, 0, 0, 0, 0, 0, 0xFFFFFFFF, 0⟩,
  ⟨0x600C01AC, 1, 4, 1, 4, 1, 4, 0, 0, 0, 0, 0, 0xFFFFFFFF, 0⟩,
  ⟨0x600C8000, 2, 0x4000, 1024, 0x10, 4, 4, 0, 0, 0, 0xFFFFFFFF, 0, 0, 0⟩]

def rowsCTB : List RegRow := rowsCTB0 ++ rowsCTB1

def rowsBFY0 : List RegRow := [
  ⟨0x600D0000, 1, 4, 1, 4, 1, 4, 0, 0, 4, 0x13, 0, 0, 8⟩,
  ⟨0x600D0004, 1, 4, 1, 4, 1, 4, 0, 0, 0, 0, 0, 0, 0⟩,
  ⟨0x600D0008, 1, 4, 1, 4, 1, 4, 0, 0, 0, 0xFFFFFFFF, 0, 0, 0⟩,
  ⟨0x600D000C, 1, 4, 1, 4, 1, 4, 0x44332, 0, 0, 0xFFFF7F, 0, 0, 0⟩,
  ⟨0x600D0010, 1, 4, 1, 4, 1, 4, 0, 0, 0xFFF, 0, 0, 0, 0⟩,
  ⟨0x600D0014, 1, 4, 1, 4, 1, 4, 0, 0, 0x3F01, 0, 0xC0000, 0, 0x30000⟩,
  ⟨0x600D0018, 1, 4, 1, 4, 1, 4, 0, 0, 0, 0, 0, 0, 0⟩,
  ⟨0x600D001C, 1, 4, 1, 4, 1, 4, 0, 0, 0, 0, 0, 0, 0x1FFFF⟩,
  ⟨0x600D0020, 1, 4, 1, 4, 1, 4, 0, 0, 0, 0, 0, 0, 0⟩,
  ⟨0x600D0024, 1, 4, 1, 4, 1, 4, 0, 0, 0, 0, 0, 0, 0⟩,
  ⟨0x600D0028, 1, 4, 1, 4, 1, 4, 0, 0, 0, 0, 0, 0, 0⟩,
  ⟨0x600D002C, 1, 4, 1, 4, 1, 4, 0, 0, 0, 0, 0, 0, 0⟩,
  ⟨0x600D0040, 1, 4, 1, 4, 1, 4, 0, 0, 0, 0, 0, 0xFFFFFFFF, 0⟩,
  ⟨0x600D0044, 1, 4, 1, 4, 1, 4, 0, 0, 0, 0, 0, 0, 0⟩,
  ⟨0x600D0048, 1, 4, 1, 4, 1, 4, 0, 0, 0, 0, 0, 0, 0⟩,
  ⟨0x600D0100, 17, 0x20, 1, 4, 1, 4, 0, 0, 0, 0x7FF, 0, 0, 0⟩,
  ⟨0x600D0104, 17, 0x20, 1, 4, 1, 4, 0, 0, 0, 0, 0, 0, 0⟩,
  ⟨0x600D0108, 17, 0x20, 1, 4, 1, 4, 0, 0, 0, 0, 0, 0xFFFFFFFF, 0⟩,
  ⟨0x600D010C, 17, 0x20, 1, 4, 1, 4, 0, 0, 0, 0, 0, 0xFFFFFFFF, 0⟩,
  ⟨0x600D0110, 17, 0x20, 1, 4, 1, 4, 0, 0, 0, 0, 0, 0xFFFFFFFF, 0⟩,
  ⟨0x600D0114, 17, 0x20, 1, 4, 1, 4, 0, 0, 0, 0, 0, 0xFFFFFFFF, 0⟩,
  ⟨0x600D0118, 17, 0x20, 1, 4, 1, 4, 0, 0, 0, 0, 0, 0xFFFFFFFF, 0⟩,
  ⟨0x600D011C, 17, 0x20, 1, 4, 1, 4, 0, 0, 0, 0, 0, 0, 0⟩,
  ⟨0x600D8000, 2, 0x4000, 1024, 0x10, 4, 4, 0, 0, 0, 0xFFFFFFFF, 0, 0, 0⟩]

def rowsBFY : List RegRow := rowsBFY0

def rowsCAN0 : List RegRow := [
  ⟨0x600E0000, 4, 0x1000, 1, 4, 1, 4, 1, 0, 1, 0xFE, 0, 0, 0x100⟩,
  ⟨0x600E0004, 4, 0x1000, 1, 4, 1, 4, 1, 0, 0, 0, 0, 0, 0⟩,
  ⟨0x600E0008, 4, 0x1000, 1, 4, 1, 4, 0xF9F7E, 0, 0, 0x7FFFFFFF, 0, 0, 0⟩,
  ⟨0x600E000C, 4, 0x1000, 1, 4, 1, 4, 0xEFE, 0, 0, 0x3FFFF, 0, 0, 0⟩,
  ⟨0x600E0010, 4, 0x1000, 1, 4, 1, 4, 0, 0, 0, 0x7FFF, 0, 0, 0⟩,
  ⟨0x600E0014, 4, 0x1000, 1, 4, 1, 4, 0x4C000000, 0x4000, 0, 0xFFFFC000, 0, 0, 0⟩,
  ⟨0x600E0018, 4, 0x1000, 1, 4, 1, 4, 0x7101020, 0, 0, 0x77F7F7F, 0, 0, 0⟩,
  ⟨0x600E001C, 4, 0x1000, 1, 4, 1, 4, 0, 0, 0, 0x1F77FFF, 0, 0, 0⟩,
  ⟨0x600E0020, 4, 0x1000, 1, 4, 1, 4, 0, 0, 3, 0, 0, 0, 0⟩,
  ⟨0x600E0024, 4, 0x1000, 1, 4, 1, 4, 0, 0, 0, 0, 0xFFF, 0, 0⟩,
  ⟨0x600E0028, 4, 0x1000, 1, 4, 1, 4, 0, 0, 0xFFF, 0, 0, 0, 0⟩,
  ⟨0x600E002C, 4, 0x1000, 1, 4, 1, 4, 0, 0, 0x3FFFF, 0, 0, 0, 0⟩,
  ⟨0x600E0030, 4, 0x1000, 1, 4, 1, 4, 0x30000, 0, 0, 0, 0, 0, 0⟩,
  ⟨0x600E0034, 4, 0x1000, 1, 4, 1, 4, 0, 0, 0, 0, 0, 0x3F, 0⟩,
  ⟨0x600E0038, 4, 0x1000, 1, 4, 1, 4, 0, 0, 0, 0, 0, 0, 0⟩,
  ⟨0x600E003C, 4, 0x1000, 1, 4, 1, 4, 0, 0, 0, 0, 0, 0, 0⟩,
  ⟨0x600E0040, 4, 0x1000, 1, 4, 1, 4, 0, 0, 0, 0, 0, 0, 0⟩,
  ⟨0x600E0044, 4, 0x1000, 1, 4, 1, 4, 0, 0, 0, 0, 0, 0, 0x7F⟩,
  ⟨0x600E0048, 4, 0x1000, 1, 4, 1, 4, 0, 0, 0, 0, 0, 0, 0⟩,
  ⟨0x600E004C, 4, 0x1000, 1, 4, 1, 4, 0, 0, 0, 0, 0, 0, 0x7F⟩,
  ⟨0x600E0050, 4, 0x1000, 1, 4, 1, 4, 0, 0, 0, 0, 0xFFFFFFFF, 0, 0⟩,
  ⟨0x600E0054, 4, 0x1000, 1, 4, 1, 4, 0, 0, 0, 0, 0xFFFFFFFF, 0, 0⟩,
  ⟨0x600E0060, 4, 0x1000, 1, 4, 1, 4, 0, 0, 0, 0, 0, 0, 0xFFFFFFFF⟩,
  ⟨0x600E0064, 4, 0x1000, 1, 4, 1, 4, 0, 0, 0, 0, 0, 0, 0xFFFFFFFF⟩]

def rowsCAN1 : List RegRow := [
  ⟨0x600E0068, 4, 0x1000, 1, 4, 1, 4, 0, 0, 0, 0, 0xFFFFFFFF, 0, 0⟩,
  ⟨0x600E006C, 4, 0x1000, 1, 4, 1, 4, 0, 0, 0, 0, 0xFFFFFFFF, 0, 0⟩,
  ⟨0x600E0070, 4, 0x1000, 8, 4, 1, 4, 0, 0, 0x3FF, 0, 0, 0, 0⟩,
  ⟨0x600E0080, 4, 0x1000, 1, 4, 1, 4, 0, 0, 0, 0, 0, 0, 0⟩,
  ⟨0x600E0084, 4, 0x1000, 1, 4, 1, 4, 0, 0, 0, 0, 0, 0, 0⟩,
  ⟨0x600E0088, 4, 0x1000, 1, 4, 1, 4, 0, 0, 0, 0, 0, 0xFFFFFFFF, 0⟩,
  ⟨0x600E008C, 4, 0x1000, 1, 4, 1, 4, 0, 0, 0, 0, 0, 0xFFFFFFFF, 0⟩,
  ⟨0x600E0090, 4, 0x1000, 1, 4, 1, 4, 0, 0, 0, 0, 0, 0xFFFFFFFF, 0⟩,
  ⟨0x600E0094, 4, 0x1000, 1, 4, 1, 4, 0, 0, 0, 0, 0, 0xFFFFFFFF, 0⟩,
  ⟨0x600E0098, 4, 0x1000, 1, 4, 1, 4, 0, 0, 0, 0, 0, 0xFFFFFFFF, 0⟩,
  ⟨0x600E009C, 4, 0x1000, 1, 4, 1, 4, 0, 0, 0, 0, 0, 0xFFFFFFFF, 0⟩,
  ⟨0x600E00A0, 4, 0x1000, 1, 4, 1, 4, 0, 0, 0, 0, 0, 0xFFFFFFFF, 0⟩,
  ⟨0x600E00A4, 4, 0x1000, 1, 4, 1, 4, 0, 0, 0, 0, 0, 0xFFFFFFFF, 0⟩]

def rowsCAN : List RegRow := rowsCAN0 ++ rowsCAN1

def rowsXCH0 : List RegRow := [
  ⟨0x60100000, 36, 0x800, 128, 4, 1, 4, 0, 0, 0xFFFFFFFF, 0, 0, 0, 0⟩,
  ⟨0x60100200, 36, 0x800, 64, 4, 1, 4, 0, 0, 0xFFFFFFFF, 0, 0, 0, 0⟩,
  ⟨0x60100300, 36, 0x800, 64, 4, 1, 4, 0, 0, 0xFFFFFFFF, 0, 0, 0, 0⟩,
  ⟨0x60100400, 36, 0x800, 1, 4, 1, 4, 0, 0, 0, 0, 0xFFFFFFFF, 0, 0⟩,
  ⟨0x60100404, 36, 0x800, 1, 4, 1, 4, 0, 0, 0xFFFFFFFF, 0, 0, 0, 0⟩,
  ⟨0x60100408, 36, 0x800, 1, 4, 1, 4, 0, 0, 0, 0, 0, 0, 0x1F3F⟩,
  ⟨0x6010040C, 36, 0x800, 1, 4, 1, 4, 0, 0, 0, 0, 0, 0, 0⟩,
  ⟨0x60100410, 36, 0x800, 4, 4, 1, 4, 0, 0, 0, 0, 0, 0, 0⟩,
  ⟨0x60100420, 36, 0x800, 4, 4, 1, 4, 0, 0, 0, 0, 0, 0, 0⟩,
  ⟨0x60100430, 36, 0x800, 2, 4, 1, 4, 0, 0, 0, 0, 0, 0, 0⟩,
  ⟨0x60100438, 36, 0x800, 1, 4, 1, 4, 0, 0, 0, 0, 0, 0, 0⟩,
  ⟨0x60118000, 128, 4, 1, 4, 1, 4, 0x3F3F, 0, 0, 0x3FFFF3F, 0, 0, 0⟩,
  ⟨0x60118200, 128, 4, 1, 4, 1, 4, 0, 0, 0, 0, 0, 0, 0⟩,
  ⟨0x60118400, 128, 4, 1, 4, 1, 4, 0, 0, 0, 0, 0, 0, 0⟩,
  ⟨0x60118600, 64, 4, 1, 4, 1, 4, 0x3F3F, 0, 0, 0x3FFFF3F, 0, 0, 0⟩,
  ⟨0x60118700, 64, 4, 1, 4, 1, 4, 0, 0, 0, 0, 0, 0, 0⟩,
  ⟨0x60118800, 64, 4, 1, 4, 1, 4, 0, 0, 0, 0, 0, 0, 0⟩,
  ⟨0x60118900, 64, 4, 1, 4, 1, 4, 0, 0, 0, 0, 0, 0, 0⟩,
  ⟨0x60118A00, 1, 4, 1, 4, 1, 4, 0, 0, 0, 0, 0, 0, 0x3F⟩,
  ⟨0x60118A10, 36, 4, 1, 4, 1, 4, 0, 0, 0, 0, 0, 0, 0⟩,
  ⟨0x60118B00, 1, 4, 1, 4, 1, 4, 0, 0, 0, 0, 0, 0, 1⟩,
  ⟨0x60118B04, 1, 4, 1, 4, 1, 4, 0, 0, 0, 0, 0, 0xFFFFFFFF, 0⟩,
  ⟨0x60118B08, 1, 4, 1, 4, 1, 4, 0, 0, 0, 0, 0, 0xFFFFFFFF, 0⟩]

def rowsXCH : List RegRow := rowsXCH0

def rowsBPB0 : List RegRow := [
  ⟨0x60120000, 1, 4, 1, 4, 1, 4, 0, 0, 0x21, 6, 0, 0, 0x18⟩,
  ⟨0x60120004, 1, 4, 1, 4, 1, 4, 1, 0, 0, 0, 0, 0, 0⟩,
  ⟨0x60120008, 1, 4, 1, 4, 1, 4, 0x8C4A14, 0, 0, 0x3FFFFFF, 0, 0, 0⟩,
  ⟨0x6012000C, 1, 4, 1, 4, 1, 4, 0x280FA100, 0, 0, 0xFFFFFFFF, 0, 0, 0⟩,
  ⟨0x60120010, 1, 4, 1, 4, 1, 4, 0x4018, 0, 0, 0xFF3F, 0, 0, 0⟩,
  ⟨0x60120014, 1, 4, 1, 4, 1, 4, 0, 0, 0x300FF, 0, 0, 0, 0xFF00⟩,
  ⟨0x60120018, 1, 4, 1, 4, 1, 4, 0, 0, 0xF8, 0, 0, 0, 0⟩,
  ⟨0x6012001C, 1, 4, 1, 4, 1, 4, 0, 0, 0, 0, 0, 0, 1⟩,
  ⟨0x60120020, 1, 4, 1, 4, 1, 4, 0, 0, 0xFFFFFF, 0, 0, 0, 0⟩,
  ⟨0x60120024, 1, 4, 1, 4, 1, 4, 0, 0, 0, 0, 0, 0, 0⟩,
  ⟨0x60120028, 1, 4, 1, 4, 1, 4, 0, 0, 0x1F, 0, 0, 0, 0⟩,
  ⟨0x6012002C, 1, 4, 1, 4, 1, 4, 0, 0, 0, 0, 0, 0xFFFFFFFF, 0⟩,
  ⟨0x60120030, 1, 4, 1, 4, 1, 4, 0, 0, 0, 0, 0, 0, 0⟩,
  ⟨0x60120034, 1, 4, 1, 4, 1, 4, 0, 0, 0x1F, 0, 0, 0, 0⟩,
  ⟨0x60120038, 1, 4, 1, 4, 1, 4, 0, 0, 0, 0, 0, 0xFFFFFFFF, 0⟩,
  ⟨0x60120040, 1, 4, 1, 4, 1, 4, 0, 0, 0, 0, 0, 0, 0⟩,
  ⟨0x60120044, 1, 4, 1, 4, 1, 4, 0, 0, 0, 0, 0, 0, 0⟩,
  ⟨0x60120048, 1, 4, 1, 4, 1, 4, 0, 0, 0, 0, 0, 0xFFFFFFFF, 0⟩,
  ⟨0x6012004C, 1, 4, 1, 4, 1, 4, 0, 0, 0, 0, 0, 0, 0⟩,
  ⟨0x60120050, 1, 4, 1, 4, 1, 4, 0, 0, 0, 0, 0, 0xFFFFFFFF, 0⟩,
  ⟨0x60120054, 1, 4, 1, 4, 1, 4, 0, 0, 0, 0, 0, 0, 0⟩,
  ⟨0x60120100, 16, 0x10, 1, 4, 1, 4, 0, 0, 1, 0xFFFF0000, 0, 0, 0⟩,
  ⟨0x60120104, 16, 0x10, 1, 4, 1, 4, 0, 0, 0, 0xFFFFFFFF, 0, 0, 0⟩,
  ⟨0x60120108, 16, 0x10, 1, 4, 1, 4, 0, 0, 0, 0x3FFFFF, 0, 0, 0⟩]

def rowsBPB1 : List RegRow := [
  ⟨0x60120200, 8, 0x10, 1, 4, 1, 4, 0, 0, 0, 0xFFFFF000, 0, 0, 0⟩,
  ⟨0x60120204, 8, 0x10, 1, 4, 1, 4, 0, 0, 0, 0xFFFFF000, 0, 0, 0⟩,
  ⟨0x60120208, 8, 0x10, 1, 4, 1, 4, 0, 0, 1, 0x1FFFFFE, 0, 0, 0⟩,
  ⟨0x60120400, 64, 0x20, 8, 4, 1, 4, 0, 0, 0, 0xFFFFFFFF, 0, 0, 0⟩,
  ⟨0x60120C00, 16, 0x10, 4, 4, 1, 4, 0, 0, 0, 0, 0, 0, 0⟩,
  ⟨0x60120D00, 16, 0x10, 4, 4, 1, 4, 0, 0, 0, 0, 0, 0, 0⟩]

def rowsBPB : List RegRow := rowsBPB0 ++ rowsBPB1

def rowsSGM0 : List RegRow := [
  ⟨0x60140000, 1, 4, 1, 4, 1, 4, 0, 0, 1, 0, 0, 0, 6⟩,
  ⟨0x60140004, 1, 4, 1, 4, 1, 4, 0, 0, 0, 0, 0, 0, 0⟩,
  ⟨0x60140008, 1, 4, 1, 4, 1, 4, 0, 0, 0, 0xFFFFFFFF, 0, 0, 0⟩,
  ⟨0x6014000C, 1, 4, 1, 4, 1, 4, 0, 0, 0, 0xFFFFFFFF, 0, 0, 0⟩,
  ⟨0x60140010, 1, 4, 1, 4, 1, 4, 0, 0, 0, 0xFFFFFC01, 0, 0, 0⟩,
  ⟨0x60140014, 1, 4, 1, 4, 1, 4, 0, 0, 0, 0, 0, 0, 0xFF⟩,
  ⟨0x60140018, 1, 4, 1, 4, 1, 4, 0, 0, 0xFFF, 0, 0, 0, 0⟩,
  ⟨0x6014001C, 1, 4, 1, 4, 1, 4, 0, 0, 0, 0, 0, 0, 0⟩,
  ⟨0x60140020, 1, 4, 1, 4, 1, 4, 0, 0, 0, 0, 0, 0, 0⟩,
  ⟨0x60140024, 1, 4, 1, 4, 1, 4, 0, 0, 0, 0, 0, 0, 0⟩,
  ⟨0x60140028, 1, 4, 1, 4, 1, 4, 0, 0, 0, 0, 0, 0xFFFFFFFF, 0⟩,
  ⟨0x6014002C, 1, 4, 1, 4, 1, 4, 0, 0, 0, 0, 0, 0xFFFFFFFF, 0⟩,
  ⟨0x60140030, 1, 4, 1, 4, 1, 4, 0, 0, 0, 0, 0, 0xFFFFFFFF, 0⟩,
  ⟨0x60140034, 1, 4, 1, 4, 1, 4, 0, 0, 0, 0, 0, 0xFFFFFFFF, 0⟩,
  ⟨0x60140038, 1, 4, 1, 4, 1, 4, 0, 0, 0, 0, 0, 0xFFFFFFFF, 0⟩,
  ⟨0x6014003C, 1, 4, 1, 4, 1, 4, 0, 0, 0, 0, 0, 0xFFFFFFFF, 0⟩,
  ⟨0x60140100, 8, 4, 1, 4, 1, 4, 0, 0, 0, 0, 0, 0, 0⟩,
  ⟨0x60141000, 128, 4, 1, 4, 1, 4, 0, 0, 0, 0, 0xFFFFFFFF, 0, 0⟩]

def rowsSGM : List RegRow := rowsSGM0

def rowsMEM0 : List RegRow := [
  ⟨0x60160000, 1, 4, 1, 4, 1, 4, 0, 0, 0, 0, 0, 0xFFFFFFFF, 0⟩,
  ⟨0x60160004, 1, 4, 1, 4, 1, 4, 0, 0, 0, 0, 0, 0, 0⟩,
  ⟨0x60160008, 1, 4, 1, 4, 1, 4, 0, 0, 0, 0, 0, 0, 0⟩,
  ⟨0x60160010, 1, 4, 1, 4, 1, 4, 0, 0, 0, 0, 0, 0, 0⟩,
  ⟨0x60160014, 1, 4, 1, 4, 1, 4, 0, 0, 0, 0, 0, 0, 0⟩,
  ⟨0x60160018, 1, 4, 1, 4, 1, 4, 0, 0, 0, 0, 0, 0, 0⟩,
  ⟨0x6016001C, 1, 4, 1, 4, 1, 4, 0, 0, 0, 0, 0, 0xFFFFFFFF, 0⟩,
  ⟨0x60160020, 1, 4, 1, 4, 1, 4, 0x79, 0, 0x1FFF, 0, 0, 0, 0⟩,
  ⟨0x60160024, 1, 4, 1, 4, 1, 4, 0, 0, 0, 0, 1, 0, 0⟩,
  ⟨0x60160028, 1, 4, 1, 4, 1, 4, 0, 0, 0, 0, 0, 0, 0⟩,
  ⟨0x60160030, 1, 4, 1, 4, 1, 4, 0x1F40, 0, 0xFFFF, 0, 0, 0, 0⟩,
  ⟨0x60161000, 64, 0x10, 1, 4, 1, 4, 0, 0, 7, 0, 0, 0, 0x18⟩,
  ⟨0x60161004, 64, 0x10, 1, 4, 1, 4, 4, 0, 0, 0, 0, 0, 0⟩,
  ⟨0x60161008, 64, 0x10, 1, 4, 1, 4, 0, 0, 0, 0, 0, 0xFFFFFFFF, 0⟩,
  ⟨0x60161400, 32, 0x10, 1, 4, 1, 4, 0, 0, 7, 0, 0, 0, 0x18⟩,
  ⟨0x60161404, 32, 0x10, 1, 4, 1, 4, 4, 0, 0, 0, 0, 0, 0⟩,
  ⟨0x60161408, 32, 0x10, 1, 4, 1, 4, 0, 0, 0, 0, 0, 0xFFFFFFFF, 0⟩,
  ⟨0x60161604, 2, 0x10, 1, 4, 1, 4, 0, 0, 0, 0, 0, 0, 0⟩,
  ⟨0x60161608, 2, 0x10, 1, 4, 1, 4, 0, 0, 0, 0, 0, 0xFFFFFFFF, 0⟩,
  ⟨0x60161708, 4, 0x10, 1, 4, 1, 4, 0, 0, 0, 0, 0, 0xFFFFFFFF, 0⟩,
  ⟨0x60162000, 1, 4, 1, 4, 1, 4, 0, 0, 1, 0, 0, 0, 6⟩,
  ⟨0x60162004, 1, 4, 1, 4, 1, 4, 0, 0, 0, 0, 0, 0, 0⟩,
  ⟨0x60162008, 1, 4, 1, 4, 1, 4, 0, 0, 0, 0x1F, 0, 0, 0⟩,
  ⟨0x6016200C, 1, 4, 1, 4, 1, 4, 0x2B4D3393, 0, 0, 0x7FFFFFFF, 0, 0, 0⟩]

def rowsMEM1 : List RegRow := [
  ⟨0x60162010, 1, 4, 1, 4, 1, 4, 0x29D1CA3E, 0, 0, 0x3FFFFFFF, 0, 0, 0⟩,
  ⟨0x60162014, 1, 4, 1, 4, 1, 4, 0xA281D3, 0, 0, 0x3FFFFFF, 0, 0, 0⟩,
  ⟨0x60162018, 1, 4, 1, 4, 1, 4, 0, 0, 0, 0, 0, 0, 0⟩,
  ⟨0x6016201C, 1, 4, 1, 4, 1, 4, 0, 0, 0, 0, 0, 0xFFFFFFFF, 0⟩,
  ⟨0x60162040, 16, 4, 1, 4, 1, 4, 0, 0, 0x800003FF, 0, 0, 0, 0⟩]

def rowsMEM : List RegRow := rowsMEM0 ++ rowsMEM1

def rowsCUP0 : List RegRow := [
  ⟨0x60180000, 1, 4, 1, 4, 1, 4, 0x80, 0, 0, 0, 0, 0, 0⟩,
  ⟨0x60180004, 1, 4, 1, 4, 1, 4, 0, 0, 0, 0, 0, 0, 0⟩,
  ⟨0x60180008, 1, 4, 1, 4, 1, 4, 0, 0, 0, 0, 0, 0, 0⟩,
  ⟨0x6018000C, 1, 4, 1, 4, 1, 4, 0, 0, 0, 0, 0, 0, 0⟩,
  ⟨0x60180010, 1, 4, 1, 4, 1, 4, 0, 0, 0, 0, 0, 0, 0⟩,
  ⟨0x60180014, 1, 4, 1, 4, 1, 4, 0, 0, 0, 0, 0, 0, 0⟩,
  ⟨0x60180018, 1, 4, 1, 4, 1, 4, 0, 0, 0, 0, 0, 0, 0⟩,
  ⟨0x6018001C, 1, 4, 1, 4, 1, 4, 0, 0, 0, 0, 0, 0, 0⟩,
  ⟨0x60180020, 2, 0x10, 1, 4, 1, 4, 0, 0, 0, 0, 0, 0, 0⟩,
  ⟨0x60180024, 2, 0x10, 1, 4, 1, 4, 0, 0, 0, 0, 0, 0, 0⟩,
  ⟨0x60180028, 2, 0x10, 1, 4, 1, 4, 0, 0, 0, 0, 0, 0, 0⟩,
  ⟨0x6018002C, 2, 0x10, 1, 4, 1, 4, 0, 0, 0, 0, 0, 0, 0⟩,
  ⟨0x60180040, 1, 4, 1, 4, 1, 4, 0, 0, 0, 0, 0, 0, 0⟩,
  ⟨0x60180044, 1, 4, 1, 4, 1, 4, 0, 0, 0, 0, 0, 0, 0⟩]

def rowsCUP : List RegRow := rowsCUP0

def rowsFLD0 : List RegRow := [
  ⟨0x601A0000, 1, 4, 1, 4, 1, 4, 0, 0, 0, 0, 0, 0, 0⟩,
  ⟨0x601A0004, 1, 4, 1, 4, 1, 4, 0, 0, 0, 0, 0, 0, 0⟩,
  ⟨0x601A0008, 1, 4, 1, 4, 1, 4, 0, 0, 0, 0, 0, 0, 0⟩,
  ⟨0x601A000C, 1, 4, 1, 4, 1, 4, 0, 0, 0, 0, 0, 0, 0⟩,
  ⟨0x601A0010, 1, 4, 1, 4, 1, 4, 0, 0, 0, 0, 0, 0, 0⟩,
  ⟨0x601A0014, 1, 4, 1, 4, 1, 4, 0, 0, 0, 0, 0, 0, 0⟩,
  ⟨0x601A0018, 1, 4, 1, 4, 1, 4, 0, 0, 0, 0, 0, 0, 0⟩,
  ⟨0x601A001C, 1, 4, 1, 4, 1, 4, 0, 0, 0, 0, 0, 0, 0⟩,
  ⟨0x601A0020, 2, 0x10, 1, 4, 1, 4, 0, 0, 0, 7, 0, 0, 0⟩,
  ⟨0x601A0024, 2, 0x10, 1, 4, 1, 4, 1, 0, 0, 0xFFFFFFF, 0, 0, 0⟩,
  ⟨0x601A0028, 2, 0x10, 1, 4, 1, 4, 0, 0, 0, 0xFFFF, 0, 0, 0⟩]

def rowsFLD : List RegRow := rowsFLD0

def rowsPWR0 : List RegRow := [
  ⟨0x601C0000, 1, 4, 1, 4, 1, 4, 0, 0, 0, 0, 0, 0, 0xFFFFFFFF⟩,
  ⟨0x601C0004, 1, 4, 1, 4, 1, 4, 0, 0, 0, 0, 0, 0, 0⟩,
  ⟨0x601C0008, 1, 4, 1, 4, 1, 4, 0, 0, 0, 0, 0, 0, 0⟩,
  ⟨0x601C000C, 1, 4, 1, 4, 1, 4, 0, 0, 0, 0, 0, 0, 0⟩]

def rowsPWR : List RegRow := rowsPWR0

/-- The block of a register address (R30). -/
def blockRows (a : Nat) : List RegRow :=
  match a / 0x10000 with
  | 0x6000 => rowsSYS
  | 0x6001 => rowsVIG
  | 0x6002 | 0x6003 => rowsPLM
  | 0x6004 | 0x6005 => rowsALM
  | 0x6006 | 0x6007 => rowsCAR
  | 0x6008 | 0x6009 | 0x600A | 0x600B => rowsETH
  | 0x600C => rowsCTB
  | 0x600D => rowsBFY
  | 0x600E | 0x600F => rowsCAN
  | 0x6010 | 0x6011 => rowsXCH
  | 0x6012 => rowsBPB
  | 0x6014 => rowsSGM
  | 0x6016 => rowsMEM
  | 0x6018 => rowsCUP
  | 0x601A => rowsFLD
  | 0x601C => rowsPWR
  | _ => []

/-- The row of the register at `a`, if an offset table lists one. -/
def regRow? (a : Nat) : Option RegRow := (blockRows a).find? (·.holds a)

/-- The reset value of the register word at `a` (R7); an unlisted word reads 0 (R31). -/
def regReset (a : Nat) : BitVec 32 :=
  match regRow? a with
  | some r => r.resetAt a
  | none => 0

end Sys2Proof.Machine
end

