-- ==== Sys2Proof/Machine/State.lean ====
section
/-! DEFINITION. The state of the device as plain data, and the state right after reset. The register words that software sees
are one sparse table keyed by fabric address (`State.regs`), in which an unlisted word reads its reset value; the structures
below hold the state that no register word holds.
Choices of the model: log entries 2, 4, 22, 37, 89, 97, 98, 99. -/

set_option autoImplicit false

namespace Sys2Proof.Machine

/-- Why the machine stops. No meaning raises it: every command has an effect that the spec gives (safe). -/
inductive Fault where
  /-- Raised by no meaning; the model has no access that the spec leaves without an outcome: a bus error is a completion
  status (R31, R33). Safe. -/
  | never
deriving DecidableEq, Repr

/-- Why a command is refused. -/
inductive Refusal where
  /-- A command whose meaning is not written, by its mnemonic. Raised by `exec` alone. Safe. -/
  | notModelled (mnemonic : String)
deriving DecidableEq, Repr

/-- The completion that the initiator of the last access received: nothing yet, done, read data, or a bus error (R31, R33);
`waiting` while the target holds the access back (R476, R485). -/
inductive Resp where
  | idle
  | ok
  | data (v : List Byte)
  | busError
  | uncorrectable
  | waiting
deriving DecidableEq, Repr

/-! ### Engines (R45, R159, R161) -/

/-- The engine states in code order (R159). -/
inductive EngState where
  | reset | halted | running | waiting | dfault | test | isolated
deriving DecidableEq, Repr

/-- What an engine is stalled in (R72, R100, R135, R144); `rep`: between two element groups of a prefixed string instruction
(R80, R82). -/
inductive Stall where
  | none
  | load (z : Size) (d a : Fin 8) (m : Mode) (addr : Word)
  | wait (mask : BitVec 8)
  | fence
  | srx (d a : Fin 8)
  | stx (d a : Fin 8)
  | rep
deriving DecidableEq, Repr

/-- An engine action in progress (R161, R165). -/
inductive EngAction where
  | none | snap | restore | test | rst
deriving DecidableEq, Repr

/-- A Yofiaz processor: the architectural state of R45 and the control state of R159-R168. The control registers that are
architectural words have fields of their own; ENGID is computed. -/
structure Engine where
  d : Vector Word 8
  a : Vector Word 8
  ac : Vector Acc 4
  pc : PWord
  psw : Word
  /-- latched event bits EV1, EV4-EV7; the level bits are computed (R63) -/
  evpend : BitVec 8
  evie : BitVec 9
  depth : Nat
  base : Nat
  ls : Vector PWord 3
  le : Vector PWord 3
  lc : Vector Word 3
  tmr : Word
  /-- 10 ns the timer has still to be counted down by, in ns (R64) -/
  tmrNs : Nat
  cycle : Word
  /-- quarters of CK_FAB cycles not yet counted in CYCLE -/
  cycleFrac : Nat
  st : EngState
  /-- address of the last instruction issued (SYS_Ete_PC) -/
  lastPc : PWord
  stall : Stall
  /-- a held imprecise bus error with the address of its first store (R92) -/
  imprecise : Option Word
  haltReq : Bool
  run : Bool
  clken : Bool
  /-- a RUN or action written together with CLKEN := 1, to be applied 4 cycles later (R166) -/
  delayed : Option Word
  /-- within the 4 cycles after CLKEN := 1 (R166) -/
  starting : Bool
  action : EngAction
  actErr : Bool
  snapErr : Bool
  /-- TESTRES: 0 none, 1 pass, 2 fail (R161) -/
  testRes : Nat
  lastVec : Nat
  dflt : Bool
  excCnt : Nat
  /-- program-flow signature of a Yofiaz-S core (R151) -/
  pfsig : Word
deriving DecidableEq, Repr

/-- An engine in its state after power-on reset: every register 0 (R47), held in RESET (R160), clock gated (CLKEN 0). -/
def Engine.init : Engine where
  d := Vector.replicate 8 0
  a := Vector.replicate 8 0
  ac := Vector.replicate 4 0
  pc := 0
  psw := 0
  evpend := 0
  evie := 0
  depth := 0
  base := 0
  ls := Vector.replicate 3 0
  le := Vector.replicate 3 0
  lc := Vector.replicate 3 0
  tmr := 0
  tmrNs := 0
  cycle := 0
  cycleFrac := 0
  st := .reset
  lastPc := 0
  stall := .none
  imprecise := none
  haltReq := false
  run := false
  clken := false
  delayed := none
  starting := false
  action := .none
  actErr := false
  snapErr := false
  testRes := 0
  lastVec := 0
  dflt := false
  excCnt := 0
  pfsig := 0

/-! ### Fabric (R21, R466-R468) -/

/-- An outstanding fabric transaction: its requester, the access, and its completion once its target has applied it. -/
structure Txn where
  rpn : Nat
  init : Init
  op : Access
  done : Option Resp
deriving DecidableEq, Repr

/-- An entry of the memory error queue (R472): information word, address and stamp. -/
structure ErrEntry where
  info : Word
  addr : Word
  stamp : Word
deriving DecidableEq, Repr

/-! ### Pass-through lanes (R176-R189) -/

/-- A 16-byte block with its status word (R180). -/
structure Block where
  data : List Byte
  status : Word
deriving DecidableEq, Repr

/-- The hidden state of a lane. -/
structure Lane where
  /-- receive buffers of the primary and of the shadow, at most 16 blocks each -/
  rxP : List Block
  rxS : List Block
  /-- blocks taken by SRX and not returned, at most 16 each (R180) -/
  heldP : List Block
  heldS : List Block
  /-- egress buffer, at most 128 blocks -/
  tx : List Block
  /-- sequence number of the next ingress frame, modulo 64 -/
  fseq : Nat
  /-- a frame is being received; bytes received of it; index of its next block -/
  inFrame : Bool
  inBytes : Nat
  bidx : Nat
  /-- the rest of the frame is not delivered to the primary, to the shadow (R182, R186) -/
  cutP : Bool
  cutS : Bool
  /-- STX blocks up to the next SOF are discarded: of the primary, of the shadow (R181) -/
  skipP : Bool
  skipS : Bool
  /-- the egress MAC has started the frame being forwarded (R182) -/
  egress : Bool
  /-- running CRC-32C of the frame as returned (complemented form), primary and shadow (R186) -/
  crcP : Word
  crcS : Word
  /-- stamps of ingress frames by FSEQ: (fseq, T32, clock identity) (R185) -/
  stamps : List (Nat × Word × Nat)
  /-- FSEQ of the frame whose SOF block primary, shadow last took -/
  lastP : Option Nat
  lastS : Option Nat
  /-- the primary counts as absent until its engine runs again (R178) -/
  absent : Bool
  /-- an accepted swap not yet in effect (R187) -/
  swap : Bool
  /-- blocks the shadow has returned before the primary; the number the primary has returned before the shadow; blocks the
  new primary still has to return that are forwarded already (R187) -/
  aheadS : List Block
  aheadP : Nat
  dup : Nat
  /-- a primary detached by PRIEN := 0 that finishes the frame being forwarded (R178) -/
  linger : Option Nat
  /-- bytes of the frame on the wire of the egress port -/
  wire : List Byte
  /-- frames handed to the egress MAC and not yet sent: bytes and whether the FCS is inverted (R182, R183) -/
  out : List (List Byte × Bool)
deriving DecidableEq, Repr

/-- A lane after reset: empty. -/
def Lane.init : Lane where
  rxP := []
  rxS := []
  heldP := []
  heldS := []
  tx := []
  fseq := 0
  inFrame := false
  inBytes := 0
  bidx := 0
  cutP := false
  cutS := false
  skipP := false
  skipS := false
  egress := false
  crcP := 0
  crcS := 0
  stamps := []
  lastP := none
  lastS := none
  absent := false
  swap := false
  aheadS := []
  aheadP := 0
  dup := 0
  linger := none
  wire := []
  out := []

/-- The program loader (R171-R174): bytes or words done of the operation in progress, its running CRC, an abort asked. -/
structure Loader where
  done : Nat
  crc : Word
  abort : Bool
deriving DecidableEq, Repr

/-! ### Host interfaces (R34-R43) -/

/-- The half that the local bus holds between two 16-bit accesses (R42). -/
inductive LbHeld where
  | none
  | read (addr : Nat) (hi : BitVec 16)
  | write (addr : Nat) (lo : BitVec 16)
deriving DecidableEq, Repr

/-- The PCIe endpoint and the local bus. -/
structure HostIf where
  linkUp : Bool
  /-- trained speed (0: 2.5, 1: 5.0, 2: 8.0 GT/s) and width x2 -/
  speed : Nat
  x2 : Bool
  /-- configuration space: command register, BAR0, BAR2, BAR3, MSI-X Enable, Function Mask, D3hot, AER status -/
  command : BitVec 16
  bar0 : Word
  bar2 : Word
  bar3 : Word
  msixEn : Bool
  msixFm : Bool
  d3 : Bool
  /-- AER: a non-fatal Completer Abort was logged (R37) -/
  aer : Bool
  aerAddr : Nat
  /-- MSI-X table: per vector 4 words; pending bits (R39) -/
  msix : Tbl Word
  pba : BitVec 32
  /-- MSI-X messages sent, oldest first, not yet taken by the host: (address, data) -/
  sent : List (Nat × Word)
  /-- local bus: held half, outputs LB_ERR_N asserted, LB_D -/
  held : LbHeld
  lbErr : Bool
  lbData : BitVec 16
  lbReady : Bool
deriving DecidableEq, Repr

/-- The reset value of an MSI-X table word: 0, and 1 (masked) for the vector control word, as the PCI Express standard
has it. -/
def msixReset (k : Nat) : Word := if k % 4 = 3 then 1 else 0

/-- The host interfaces after power-on reset: link down, nothing held. -/
def HostIf.init : HostIf where
  linkUp := false
  speed := 0
  x2 := false
  command := 0
  bar0 := 0
  bar2 := 0
  bar3 := 0
  msixEn := false
  msixFm := false
  d3 := false
  aer := false
  aerAddr := 0
  msix := []
  pba := 0
  sent := []
  held := .none
  lbErr := false
  lbData := 0
  lbReady := false

/-! ### Vigil (R562-R575) -/

/-- An event reported to Vigil: resource, ECODE, address, detail, T32 stamp and TC0 seconds of the report, and what the hardware
counters made of it: its tick, the ticks of the resource's counted events after it (newest first), REPEAT, NOCNT, and whether it is
an uncorrectable error of a granule rewritten since its last one (R564, R565, R567, R573). -/
structure VigEvent where
  res : Nat
  ecode : Nat
  addr : Word
  detail : Word
  stamp : Word
  sec : Nat
  tick : Nat
  times : List Nat
  rep : Bool
  nocnt : Bool
  again : Bool
deriving DecidableEq, Repr

/-- What Vigil holds of a resource (R564-R566, VIG_RINFO). -/
structure Resource where
  /-- 0 OK, 2 DEGRADING, 3 TESTING, 4 EVACUATING, 5 RETIRED, 6 FAILED; SUSPECT (1) is computed -/
  state : Nat
  /-- ticks of the counted events, newest first, at most 15 -/
  stamps : List Nat
  /-- ticks of the CE events, newest first, at most 255 -/
  ce : List Nat
  total : Nat
deriving DecidableEq, Repr

/-- A resource without events. -/
def Resource.init : Resource := ⟨0, [], [], 0⟩

/-- Vigil: the hardware event queue, events that the Keep has read and not classified, the latches of EVQ1-EVQ3 and RSEL per RPN,
the resources, the table of uncorrectable granules (resource, address, rewritten), the retirement record (resource, ECODE, boot
count), and the write position in the event log (R573). -/
structure Vigil where
  queue : List VigEvent
  taken : List VigEvent
  latch : Tbl (Word × Word × Word)
  rsel : Tbl Word
  res : Tbl Resource
  bad : List (Nat × Nat × Bool)
  record : List (Nat × Nat × Nat)
  logPos : Nat
deriving DecidableEq, Repr

/-- Vigil after power-on reset. -/
def Vigil.init : Vigil := ⟨[], [], [], [], [], [], [], 0⟩

/-! ### Placement manager (R190-R231): the Keep's working tables -/

/-- A placed item: its owner (channel c: c; migration target of c: 64 + c; buffer u: 128 + u; audit of c: 384 + c), its class
(0 L0, 1 L1, 2 L2, 3 LX), address and size, and whether a class C channel owns it. -/
structure Alloc where
  own : Nat
  cls : Nat
  addr : Nat
  size : Nat
  cc : Bool
deriving DecidableEq, Repr

/-- A channel: state (R212), order of its DEFER command, engine, class, descriptor as read, program image (address and number of
words), conversion entry, state layout, addresses of private area and buffers, tag of an open CHANNEL_START (0 none), pending
stop and release, and whether its engine lost an audit vote. -/
structure Chan where
  st : Nat
  seq : Nat
  eng : Nat
  cc : Bool
  desc : List Word
  code : Nat
  words : Nat
  conv : Nat
  layout : Nat
  priv : Nat
  bufs : List Nat
  startTag : Nat
  stopReq : Bool
  release : Bool
  voteLost : Bool
deriving DecidableEq, Repr

/-- A channel that is not declared. -/
def Chan.init : Chan := ⟨0, 0, 0, false, [], 0, 0, 0, 0, 0, [], 0, false, false, false⟩

/-- Why a migration runs: CHANNEL_MIGRATE, CHANNEL_UPDATE, clearing for a test, evacuation of a bank. -/
inductive MigKind where
  | migrate | update | clear | evacuate
deriving DecidableEq, Repr

/-- An open migration (R214): channel, tag, kind, phase, source, target, XT, CMP, the channel record of the target, first cycle
k of the target, whether by hold, lost cycles, shadow cycles done, a conversion pending, committed, a retry used, and the address range
whose buffers move with it (base, length). -/
structure Mig where
  ch : Nat
  tag : Nat
  kind : MigKind
  phase : Nat
  src : Nat
  dst : Nat
  xt : Bool
  cmp : Bool
  tgt : Chan
  scratch : Nat
  k : Nat
  hold : Bool
  lost : Nat
  shadow : Nat
  conv : Bool
  committed : Bool
  retried : Bool
  range : Nat × Nat
deriving DecidableEq, Repr

/-- An audit in progress (R224): channel, cycle, audit engine, vote engine. -/
structure Audit where
  ch : Nat
  cyc : Nat
  eng : Nat
  vote : Option Nat
deriving DecidableEq, Repr

/-- The placement manager: active reserve minimums, channels, placed items, DEFER count, migrations, audits, self-tests open
(tag, kind, object), an open Keep update (tag, version), and the inactive program bank of the Keep. -/
structure Plm where
  reserve : Word
  chans : Tbl Chan
  allocs : List Alloc
  seq : Nat
  migs : List Mig
  audits : List Audit
  tests : List (Nat × Nat × Nat)
  update : Option (Nat × Word)
  bank : List PWord
deriving DecidableEq, Repr

/-- The placement manager after power-on reset: the active minimums are the reset value of PLM_RSV. -/
def Plm.init : Plm := ⟨0x02555555, [], [], 0, [], [], [], none, []⟩
/-! ### Ethernet ports (R269-R308) -/

/-- A transmit frame whose descriptors have been fetched (R277-R279): SOF descriptor and number of descriptors, FLEN, words 2 and
3 of the SOF descriptor and its word 4, buffers (address, bytes), launch time (clock, ns) once known, data once in the FIFO, 0
waiting, 1 started, 2 ended, and write-back words 2 and 0. -/
structure TxFrame where
  sof : Nat
  n : Nat
  flen : Nat
  w2 : Word
  w3 : Word
  w4 : Word
  bufs : List (Nat × Nat)
  launch : Option (Nat × Int)
  data : Option (List Byte)
  st : Nat
  status : Word
  ts : Word
deriving DecidableEq, Repr

/-- What a port holds of a transmit queue: frames fetched, oldest first; SOF descriptors cancelled before their fetch; the
Calendar launch it holds (entry, clock, ns) (R295). -/
structure TxQueue where
  frames : List TxFrame
  cancels : List Nat
  held : Option (Nat × Nat × Int)
deriving DecidableEq, Repr

/-- An empty queue. -/
def TxQueue.init : TxQueue := ⟨[], [], none⟩

/-- A port: its transmit queues, the frame on the wire and the preempted one (queue, whether a lane frame), handed gate actions
(clock, ns, ARG), verify attempts made, the 1000BASE-T advertisement and an upshift under way (R305), and the last frame sent
with its FCS. -/
structure Port where
  txq : Tbl TxQueue
  wire : Option (Nat × Bool)
  frag : Option (Nat × Bool)
  gates : List (Nat × Int × Word)
  vtry : Nat
  adv1000 : Bool
  upshift : Bool
  last : List Byte
deriving DecidableEq, Repr

/-- A port at rest. -/
def Port.init : Port := ⟨[], none, none, [], 0, true, false, []⟩

/-! ### Campanile node and Belfry star (R309-R370) -/

/-- A slot window of the present cycle that something has happened in: entry, whether a start sequence was seen, valid copies on
A and B, the copy taken (channel, header and payload), a valid null frame seen, a payload committed, echoes on A and B, the
frame the node sent in it, and a valid frame of another node in a leap window. -/
structure Win where
  k : Nat
  start : Bool
  okA : Bool
  okB : Bool
  taken : Option (Nat × List Byte)
  nul : Bool
  committed : Bool
  echoA : Bool
  echoB : Bool
  sent : Option (List Byte)
  other : Bool
deriving DecidableEq, Repr

/-- A deviation value (R345): sender, value in ns, start of its slot. -/
structure DevVal where
  node : Nat
  d : Int
  pos : Nat
deriving DecidableEq, Repr

/-- The synchronisation of a node or star (R345-R352): rho in 1/16 ns, OC of this and of the cycle before, values of this and of
the cycle before, and the consecutive cycles of the three conditions of R352. -/
structure Sync where
  rho : Int
  oc : Int
  ocPrev : Int
  vals : List DevVal
  prev : List DevVal
  lossN : Nat
  lossO : Nat
  lossR : Nat
deriving DecidableEq, Repr

/-- Synchronisation without values. -/
def Sync.init : Sync := ⟨0, 0, 0, [], [], 0, 0, 0⟩

/-- The Campanile node: validated tables; validations under way (table; 1 START, 2 arm, 3 adoption); cycle number at which a
switch last took effect; HALT asked; tick of the cycle start; windows of the cycle; fetched buffers (entry, GEN, payload, sent as
null); sent, echoed, answered in this cycle; cycles without echo; cycles consistent and the adoption cycle still running;
synchronisation; last GEN sent per entry; silence counts, candidates that reached K (cycle, candidate), candidates not
watched until a cycle number; candidate claimed or owned, windows of the owned slot without echo; the last frame sent; table and cycle count of the last arm. -/
structure Camp where
  valid : Bool × Bool
  jobs : List (Nat × Nat)
  swEff : Option Nat
  halt : Bool
  start : Nat
  wins : List Win
  fetched : List (Nat × Word × List Byte × Bool)
  sentCyc : Bool
  echoCyc : Bool
  resp : Bool
  noEcho : Nat
  intc : Nat
  fresh : Bool
  sync : Sync
  gens : Tbl Word
  silence : Vector Nat 8
  reach : List (Nat × Nat)
  unwatched : List (Nat × Nat)
  leap : Option Nat
  leapMiss : Nat
  last : List Byte
  arm : Nat × Nat
deriving DecidableEq, Repr

/-- The node after power-on reset. -/
def Camp.init : Camp :=
  ⟨(false, false), [], none, false, 0, [], [], false, false, false, 0, 0, false, Sync.init, [], Vector.replicate 8 0, [], [], none, 0, [],
    (0, 0)⟩

/-- A relay of the star: branch, entry of its window in GUARD. -/
structure Relay where
  branch : Nat
  entry : Option Nat
deriving DecidableEq, Repr

/-- The Belfry star: validated tables, arm validations under way, cycle of the last switch, tick of the cycle start,
synchronisation, relays of channels A and B, branches with a start and with a violation in this cycle, and leap entries whose
window saw a good frame of its lock in this cycle, unlocked leap windows in which a start was relayed (entry, channel), entries
whose sync frame has given its value, and table and cycle count of the last arm. -/
structure Star where
  valid : Bool × Bool
  jobs : List Nat
  swEff : Option Nat
  start : Nat
  cycnum : Nat
  sync : Sync
  relayA : Option Relay
  relayB : Option Relay
  started : BitVec 17
  viol : BitVec 17
  good : List (Nat × Nat)
  used : List (Nat × Nat)
  valued : List Nat
  arm : Nat × Nat
deriving DecidableEq, Repr

/-- The star after power-on reset. -/
def Star.init : Star := ⟨(false, false), [], none, 0, 0, Sync.init, none, none, 0, 0, [], [], [], (0, 0)⟩


/-! ### CAN FD controllers (R371-R403) -/

/-- An attempt in progress: buffer, the frame as read from it, whether ESI is sent recessive, and its start-of-frame stamp. -/
structure CanAttempt where
  buf : Nat
  frame : CanFrame
  stamp : Word
  clk : Nat
deriving DecidableEq, Repr

/-- A controller: the attempt in progress, and whether it waits for 11 recessive bits (R398, R400). -/
structure CanCtl where
  attempt : Option CanAttempt
  integrating : Bool
deriving DecidableEq, Repr

/-- A controller after power-on reset. -/
def CanCtl.init : CanCtl := ⟨none, false⟩

/-! ### Almanac (R232-R267) -/

/-- A network clock in units of 2^-16 ns since 0 s (R234), with the remainder of the adjustments that is carried internally
(R235) and the slew still to apply (R237), both in 250,000ths of a unit. -/
structure Clock where
  t : Nat
  rem : Int
  slew : Int
deriving DecidableEq, Repr

/-- A network clock at the start of BOOT (R232). -/
def Clock.init : Clock := ⟨0, 0, 0⟩

/-- An angle base (R246-R248): whether a record has been entered, its position and stamp (ns of TC0), the count within the
revolution and the revolutions counted with it, the records held (extended angle, stamp), newest first, the estimate (angle
units per ns and per ns squared), a REVSET and a ZREF 1 waiting. -/
structure Ang where
  seen : Bool
  pos : Int
  stamp : Int
  c : Nat
  rev : Int
  recs : List (Int × Int)
  v : Rat
  a : Rat
  revset : Option Int
  zref : Bool
deriving DecidableEq, Repr

/-- An angle base without records. -/
def Ang.init : Ang := ⟨false, 0, 0, 0, 0, [], 0, 0, none, false⟩

/-- Line base (R249): count, residue of the divider, a LOAD waiting, last position, and whether a record has been seen. -/
structure Lin where
  cnt : Nat
  frac : Nat
  load : Bool
  pos : Int
  seen : Bool
deriving DecidableEq, Repr

/-- Mains base (R250): cycles counted at the reference crossing `zc` (ns of TC0), the last crossing and the last period in ns
(0 none) that the PLL follows, whether the phase runs, and the phase at which it stands while it does not. -/
structure Mns where
  cyc : Nat
  zc : Int
  last : Int
  period : Nat
  run : Bool
  ph : Nat
deriving DecidableEq, Repr

/-- A firing of a Calendar entry that is committed and has not taken place (R254, R261): entry, word 0, argument, time in ns of
the clock it fires against, and whether it belongs to the present arming. -/
structure CalCommit where
  k : Nat
  w0 : Word
  arg : Word
  time : Int
  armed : Bool
deriving DecidableEq, Repr

/-- A timed action handed to a block (R253): entry, action code, argument, clock, and time in ns of that clock. -/
structure Handed where
  k : Nat
  action : Nat
  arg : Word
  clk : Nat
  time : Int
deriving DecidableEq, Repr

/-! ### Carillon sequencers (R407, R423-R427) -/

/-- What a sequencer holds beside its register words: ATT, the transmit and receive side (queues, or direct registers of one
word), the stalled word and whether it came through EXEC, words left of its movers, and an error that ends a mover direction. -/
structure Seq where
  att : Nat
  tx : List Word
  rx : List Word
  cur : Option (Nat × Bool)
  mvTx : Nat
  mvRx : Nat
  errTx : Bool
  errRx : Bool
deriving DecidableEq, Repr

/-- A sequencer after power-on reset. -/
def Seq.init : Seq := ⟨0, [], [], none, 0, 0, false, false⟩

/-! ### Backplane bridge (R489-R513) -/

/-- What a far access is for: an outbound access, poll entry `k`, an IACK cycle of line `l`. -/
inductive BbKind where
  | access
  | poll (k : Nat)
  | iack (l : Nat)
deriving DecidableEq, Repr

/-- An access that the bridge holds: what for, its initiator, its window, the fabric access, posted at entry. -/
structure BbAcc where
  kind : BbKind
  init : Init
  win : Nat
  op : Access
  posted : Bool
deriving DecidableEq, Repr

/-- A far cycle or beat (R493): far address, bytes, address modifier, data of a write in ascending far address. -/
structure FarCyc where
  addr : Nat
  len : Nat
  am : Nat
  data : Option (List Byte)
deriving DecidableEq, Repr

/-- The access being carried out: far cycles left, the present one first; data read so far in fabric order; a far acknowledge
received (the commit point of R499); the present cycle is on the bus. -/
structure FarRun where
  left : List FarCyc
  got : List Byte
  acked : Bool
  live : Bool
deriving DecidableEq, Repr

/-- A locked sequence (R498): RPN, window, accesses left, far address and access last carried out in it. -/
structure BbLock where
  rpn : Nat
  win : Nat
  left : Nat
  faddr : Nat
  last : Access
deriving DecidableEq, Repr

/-- A held prefetch block (R497): far address, 32 bytes, bytes returned to a requester, tick of its arrival. -/
structure PrefBlk where
  faddr : Nat
  data : List Byte
  returned : BitVec 32
  tick : Nat
deriving DecidableEq, Repr

/-- The bridge: outbound accesses waiting, oldest first; the access at the head; its far cycles; due IACK cycles and polls; the
locked sequence; the read after which AS stays asserted (far address, bytes); prefetch blocks by window; inbound writes (window,
far address, fabric access); poll entries that have run since their enable; BCLR and another request seen; hold request asserted;
SYSRESET asserted by another board; grant driven and last level granted (R503); BCLR driven; BERR answers driven. -/
structure Bridge where
  queue : List BbAcc
  head : Option BbAcc
  run : Option FarRun
  due : List BbKind
  lock : Option BbLock
  asHeld : Option (Nat × Nat)
  pref : Tbl (Option PrefBlk)
  inq : List (Nat × Nat × Access)
  polled : List Nat
  bclrIn : Bool
  reqIn : Bool
  hold : Bool
  sysIn : Bool
  grant : Option Nat
  lastLevel : Nat
  bclrOut : Bool
  berrs : Nat
deriving DecidableEq, Repr

/-- The bridge after power-on reset. -/
def Bridge.init : Bridge :=
  ⟨[], none, none, [], none, none, [], [], [], false, false, false, false, none, 0, false, 0⟩

/-! ### Cupola, field die and seal (R514-R561) -/

/-- A monitored axis (R534-R539): count of the last sample, accumulated count, whether a sample has been seen, revolutions taken
off, position P, positions of the last two computations (newest first), last values of v_raw (newest first), v; the previous
computation exceeded SLSLIM; SDI reference and computations in violation; SLP computations in violation; referenced; encoder
fault code, consecutive samples with a diagnostic result, consecutive computations that miss plausibility and
its base; violations found by the
last computation (SLS, SDI, SLP). -/
structure Axis where
  cnt : Nat
  acc : Int
  seen : Bool
  k0 : Int
  p : Int
  ps : List Int
  vs : List Int
  v : Int
  slsPrev : Bool
  sdiRef : Option Int
  sdiN : Nat
  slpN : Nat
  ref : Bool
  fault : Nat
  diagN : Nat
  plN : Nat
  plBase : Option Int
  viol : BitVec 3
deriving DecidableEq, Repr

/-- An axis without samples. -/
def Axis.init : Axis := ⟨0, 0, false, 0, 0, [], [], 0, false, none, 0, 0, false, 0, 0, 0, none, 0⟩

/-- A request under execution (R550, R555): OP, TAG, ARG, data words, step. -/
structure CupJob where
  op : Nat
  tag : Nat
  arg : Nat
  data : List Word
  step : Nat
deriving DecidableEq, Repr

/-- An order to the Keep (R552): TAG, length in bytes, source, destination; posted words not yet taken are in `Cup.orders`. -/
structure CupOrder where
  tag : Nat
  len : Nat
  src : Nat
  dst : Nat
deriving DecidableEq, Repr

/-- The island: active core; data RAM bytes keyed by 65536 x core + address; receive area (empty: none yet); transmit area;
HOLD latch (0 none) and causes present now; write window, MON_MRA, result of the MRAM read; HALF, safety cycles; signature
tables keyed by 64 x core + number; last checkpoint and checkpoints 0 and 63 of this cycle; cycles left in which a new active core
raises cause 9; standby tested, loaded by FW_LOAD, its container PSCOMPAT; firmware versions of CUP-A, CUP-B; state block copied
(TAKEOVER_SWITCH follows); link state (0 DOWN, 1 TRAINING, 2 UP), consecutive valid frames up and down, uplink sequence number
and position, downlink sequence number, position and safety sequence number, ticks of discarded frames; axes; reactions, RSTREQ
pending, cycles for which each input has been 1; set in use (empty: none), its number, a copy check in progress failed; request words,
responses and orders not yet delivered, request, open order and order words the Keep has taken; switches at the last cycle; test
passes; discrepancy faults; identity copied since the link came up; frames on the uplink and the downlink. -/
structure Cup where
  active : Nat
  ram : Tbl Byte
  rx : List Byte
  tx : List Byte
  hold : Nat
  live : BitVec 16
  wwa : Word
  wwl : Word
  mra : Word
  mrd : Resp
  half : Bool
  cycles : Word
  sig : Tbl Word
  chk : Option Nat
  chk0 : Bool
  chk63 : Bool
  newCore : Nat
  stby : Bool
  stbyFw : Bool
  compat : Bool
  ver : Vector Word 2
  takeover : Bool
  link : Nat
  goodUp : Nat
  goodDown : Nat
  upSeq : Nat
  upPos : Nat
  downSeq : Nat
  downPos : Nat
  sseq : Nat
  bad : List Nat
  axes : Vector Axis 2
  react : BitVec 8
  rstreq : BitVec 2
  high : Vector Nat 16
  set : List Byte
  setNo : Nat
  req : List Word
  resps : List Word
  orders : List Word
  job : Option CupJob
  order : Option CupOrder
  taken : List Word
  sw : BitVec 12
  tests : Word
  disc : BitVec 16
  ident : Bool
  up : List Byte
  down : List Byte
deriving DecidableEq, Repr

/-- The island at power-on reset. -/
def Cup.init : Cup where
  active := 0
  ram := []
  rx := []
  tx := List.replicate 64 0
  hold := 0
  live := 0
  wwa := 0
  wwl := 0
  mra := 0
  mrd := .idle
  half := false
  cycles := 0
  sig := []
  chk := none
  chk0 := false
  chk63 := false
  newCore := 0
  stby := false
  stbyFw := false
  compat := false
  ver := #v[0, 0]
  takeover := false
  link := 0
  goodUp := 0
  goodDown := 0
  upSeq := 0
  upPos := 0
  downSeq := 0
  downPos := 0
  sseq := 0
  bad := []
  axes := Vector.replicate 2 Axis.init
  react := 0
  rstreq := 0
  high := Vector.replicate 16 0
  set := []
  setNo := 0
  req := []
  resps := []
  orders := []
  job := none
  order := none
  taken := []
  sw := 0
  tests := 0
  disc := 0
  ident := false
  up := []
  down := []

/-- A safe input on the field die (R525-R530): raw and logical state, samples the raw state has differed, consecutive samples at
raw 0; stuck-high fault, cross-short fault, the demand of R529 seen, consecutive tests passed; the supply at whose DROP sample it read 0
after reading 1 before the pulse. -/
structure SafeIn where
  raw : Bool
  logical : Bool
  diff : Nat
  zeros : Nat
  stuck : Bool
  cross : Bool
  demand : Bool
  passes : Nat
  suspect : Option Nat
deriving DecidableEq, Repr

/-- A sensor supply (R526): switched off for overload, off for its test pulse, samples since the end of the last pulse (20: long
ago), raw inputs 100 us before the pulse, consecutive tests without fault, a fault found in this pulse, a retry made. -/
structure Supply where
  ovl : Bool
  pulse : Bool
  age : Nat
  pre : BitVec 16
  passes : Nat
  bad : Bool
  retried : Bool
deriving DecidableEq, Repr

/-- A safe output (R531, R532): command accepted by the field die, off for its test, level read back, samples it has read high
while off and low while on, stuck on, switched off for a short circuit. -/
structure SafeOut where
  on : Bool
  test : Bool
  level : Bool
  highs : Nat
  lows : Nat
  stuck : Bool
  fault : Bool
deriving DecidableEq, Repr

/-- The field die: inputs, the raw inputs of the last 10 samples (newest first), supplies, outputs; supply in range (not held in
reset); downlink sequence number and position of the last frame received, safety sequence number of the last valid exchange, valid
exchanges arrive; uplink sequence number and position of the last frame sent. -/
structure Die where
  ins : Vector SafeIn 16
  hist : List (BitVec 16)
  sup : Vector Supply 4
  outs : Vector SafeOut 2
  run : Bool
  seq : Nat
  pos : Nat
  sseq : Nat
  linked : Bool
  upSeq : Nat
  upPos : Nat
deriving DecidableEq, Repr

/-- The field die after its reset. -/
def Die.init : Die where
  ins := Vector.replicate 16 ⟨false, false, 0, 0, false, false, false, 0, none⟩
  hist := []
  sup := Vector.replicate 4 ⟨false, false, 20, 0, 0, false, false⟩
  outs := Vector.replicate 2 ⟨false, false, false, 0, 0, false, false⟩
  run := true
  seq := 0
  pos := 0
  sseq := 0
  linked := false
  upSeq := 0
  upPos := 0

/-- The seal watch in PD0 and the seal record (R543, R547, R548): break latch, VBAT-loss latch; the recorded break, the run
permission (set, CRC, firmware version), confirmed CRCs by set, the active firmware slot, and the slots marked empty. -/
structure Seal where
  brk : Bool
  vbat : Bool
  recBrk : Bool
  perm : Option (Nat × Word × Word)
  conf : Tbl (Option Word)
  slot : Nat
  empty : BitVec 2
deriving DecidableEq, Repr

/-- The seal of a device as delivered: nothing latched, nothing recorded. -/
def Seal.init : Seal := ⟨false, false, false, none, [], 0, 0⟩

/-! ### Key fuses (R588) -/

/-- A key slot: the hash (none: programmed at factory test), programmed, revoked. -/
structure KeySlot where
  hash : Option (List Word)
  programmed : Bool
  revoked : Bool
deriving DecidableEq, Repr

/-- The key fuses: four slots and the rollback counter. -/
structure Fuses where
  slots : Vector KeySlot 4
  rollback : Nat
deriving DecidableEq, Repr

/-- The fuses as delivered: slots 0 and 1 programmed at factory test, 2 and 3 open, rollback counter 0. -/
def Fuses.init : Fuses :=
  ⟨#v[⟨none, true, false⟩, ⟨none, true, false⟩, ⟨none, false, false⟩, ⟨none, false, false⟩], 0⟩

/-! ### Boot, power and test access (R580-R596, R614) -/

/-- A fuse operation in progress (R588). -/
inductive KeyOp where
  | prog (slot : Nat) (hash : List Word)
  | revoke (slot : Nat)
  | advance
deriving DecidableEq, Repr

/-- What the mode controller and the boot ROM hold beside register words: SVN and key slot of the running boot image, the field-die
handshake ended without success (R581), a fuse operation in progress, the tick of the last SYS_KWD write (R591), power-domain
requests not yet served and the one being served (domain, on) (R596), the clock failures detected, as bits of PWR_CLK_STAT (R593),
and whether the logic die is held in reset (R595). -/
structure BootSt where
  svn : Nat
  key : Nat
  hsOver : Bool
  keyOp : Option KeyOp
  kwd : Nat
  asks : List (Nat × Bool)
  serving : Option (Nat × Bool)
  lost : BitVec 8
  held : Bool
deriving DecidableEq, Repr

/-- After power-on reset. -/
def BootSt.init : BootSt := ⟨0, 0, false, none, 0, [], none, 0, false⟩

/-- JTAG instructions (R614), and what drives the pins of the boundary register. -/
inductive JtagIr where
  | extest | sample | idcode | highz | clamp | bypass
deriving DecidableEq, Repr

inductive PinDrive where
  | device | boundary | floating
deriving DecidableEq, Repr

/-- The JTAG port: instruction, the data register it selects as last captured, the boundary register's output latches, and what
drives the pins. -/
structure Jtag where
  ir : JtagIr
  dr : List Bool
  latch : List Bool
  drive : PinDrive
deriving DecidableEq, Repr

/-- The bits of a word, bit 0 first (the bit nearest TDO). -/
def wordBits (w : Word) : List Bool := (List.range 32).map w.getLsbD

/-- The identification register (R614). -/
def jtagId : Word := 0x232401E3

/-- The port in Test-Logic-Reset, where IEEE 1149.1 selects the identification register. -/
def Jtag.init : Jtag := ⟨.idcode, wordBits jtagId, [], .device⟩

/-! ### The whole state -/

/-- The state of the device. -/
structure State where
  /-- the commands that wait, first in, first out (the block form of the model) -/
  pending : List Instr
  /-- the counter that names the next free value (the model's own field) -/
  fresh : Nat
  /-- CK_TIME ticks since reset (the model's own field) -/
  ticks : Nat
  /-- the completion of the last access (the model's own field) -/
  resp : Resp
  /-- the register words that differ from their reset value, keyed by fabric address (R7, R30) -/
  regs : Tbl Word
  /-- DRAM, central SRAM, tower SRAM, exchange region and MRAM bytes that are not 0, keyed by fabric address (R29) -/
  mem : List Host.Cell
  /-- granules in error, keyed by granule address (R469) -/
  ecc : Tbl (Option EccMark)
  /-- program words that have been written, keyed by 16384 x processor + word (R32, R45) -/
  prog : Tbl (Option PWord)
  /-- per processor whose program store a test has destroyed: 1 + the number of its free content (R168) -/
  storeSeed : Tbl Nat
  /-- processors that differ from Engine.init, keyed by their number (R45) -/
  engines : Tbl Engine
  /-- outstanding fabric transactions, oldest first (R21, R22) -/
  outst : List Txn
  /-- the memory error queue, oldest first (R472) -/
  errq : List ErrEntry
  /-- MEM_ERRQ1, MEM_ERRQ2 per reading RPN (R472) -/
  errLatch : Tbl (Word × Word)
  /-- pass-through lanes 0-5 that differ from Lane.init (R176) -/
  lanes : Tbl Lane
  /-- the program loader (R171) -/
  loader : Loader
  /-- PCIe endpoint and local bus (R34, R42) -/
  host : HostIf
  /-- Vigil (R562) -/
  vigil : Vigil
  /-- the network clocks TC0-TC3 (R232) -/
  tc : Vector Clock 4
  /-- MRAM granule writes accepted and not completed, oldest first, at most 8 (R481) -/
  mramQ : List (Nat × List Byte)
  /-- the MRAM controller accepts no further write after supply loss (R482) -/
  mramStop : Bool
  /-- commands the Keep has read and not executed, oldest first, at most 8 (R193) -/
  cmdq : List Word
  /-- undelivered responses of the Keep, oldest first, at most 32 (R194) -/
  rspq : List Word
  /-- interrupter requests of the bridge on lines 1-7 (R507) -/
  irqReq : BitVec 8
  /-- refreshes, ZQ calibrations and DQS trackings the DRAM controller has issued (R484) -/
  ddrIssued : Vector Nat 3
  /-- the Keep's working tables for placement and migration (R190) -/
  plm : Plm
  /-- key fuses and rollback counter (R588) -/
  fuses : Fuses
  /-- pin-time counter, 64 bits (R244) -/
  ptc : Nat
  /-- the TC0 value at PTC = 0, in units of 2^-16 ns modulo 2^48 s (R244) -/
  ptcOrg : Nat
  /-- angle bases ANG0, ANG1 (R246) -/
  ang : Vector Ang 2
  /-- line base LIN0 (R249) -/
  lin : Lin
  /-- mains base MNS0 (R250) -/
  mns : Mns
  /-- read latches per register group and RPN, keyed by 64 x group + RPN (R239) -/
  latch : Tbl (Word × Word)
  /-- committed Calendar firings (R254) -/
  calPend : List CalCommit
  /-- timed actions handed to Ethernet ports (R253) -/
  handed : List Handed
  /-- Calendar flags of Carillon sequencers, bit 4 c + s (R253) -/
  carFlag : BitVec 32
  /-- Ethernet ports that differ from Port.init, keyed by port (R269) -/
  ports : Tbl Port
  /-- Campanile node (R309) -/
  camp : Camp
  /-- Belfry star (R356) -/
  star : Star
  /-- lists pending in the Signal Mapper, in run order (R440) -/
  sgmOrder : List Nat
  /-- CAN controllers (R371) -/
  cans : Vector CanCtl 4
  /-- Carillon sequencers, number 4 c + s (R407) -/
  seqs : Vector Seq 32
  /-- levels that the world drives on GP0-GP63, as last seen (R406) -/
  gp : BitVec 64
  /-- backplane bridge (R489) -/
  bridge : Bridge
  /-- Cupola safety island (R514) -/
  cup : Cup
  /-- field die (R525-R532) -/
  die : Die
  /-- seal watch and seal record (R543, R547) -/
  sealw : Seal
  /-- mode controller, boot ROM, fuse operation, power sequencer (R581-R596) -/
  boot : BootSt
  /-- JTAG port (R614) -/
  jtag : Jtag
deriving DecidableEq, Repr

/-- The device right after power-on reset: every register word at its reset value, memory with nothing listed. -/
def State.reset : State where
  pending := []
  fresh := 0
  ticks := 0
  resp := .idle
  regs := []
  mem := []
  ecc := []
  prog := []
  storeSeed := []
  engines := []
  outst := []
  errq := []
  errLatch := []
  lanes := []
  loader := ⟨0, 0, false⟩
  host := HostIf.init
  vigil := Vigil.init
  tc := Vector.replicate 4 Clock.init
  mramQ := []
  mramStop := false
  cmdq := []
  rspq := []
  irqReq := 0
  ddrIssued := #v[0, 0, 0]
  plm := Plm.init
  fuses := Fuses.init
  ptc := 0
  ptcOrg := 0
  ang := Vector.replicate 2 Ang.init
  lin := ⟨0, 0, false, 0, false⟩
  mns := ⟨0, 0, 0, 0, false, 0⟩
  latch := []
  calPend := []
  handed := []
  carFlag := 0
  ports := []
  camp := Camp.init
  star := Star.init
  sgmOrder := []
  cans := Vector.replicate 4 CanCtl.init
  seqs := Vector.replicate 32 Seq.init
  gp := 0
  bridge := Bridge.init
  cup := Cup.init
  die := Die.init
  sealw := Seal.init
  boot := BootSt.init
  jtag := Jtag.init

end Sys2Proof.Machine
end

