-- ==== Sys2Proof/Machine/Ops.lean ====
section
/-! DEFINITION. The named operations over the state that every block shares: register words and their fields, memory bytes,
free values, time stamps, reports to Vigil, doorbells and events, reset epochs.
Choices of the model: log entries 2, 4, 26, 27, 44. -/

set_option autoImplicit false

namespace Sys2Proof.Machine

open Sys2Proof

/-! ### Register words (R7, R8) -/

/-- The register word at fabric address `a`. -/
def State.reg (s : State) (a : Nat) : Word := Tbl.get regReset s.regs a

/-- The state with the register word at `a` set. -/
def State.setReg (s : State) (a : Nat) (w : Word) : State := { s with regs := Tbl.set regReset s.regs a w }

/-- The field `f` of the register at `a`. -/
def State.fld (s : State) (a : Nat) (f : Fld) : Nat := f.get (s.reg a)

/-- Whether the one-bit field `f` of the register at `a` is 1. -/
def State.flag (s : State) (a : Nat) (f : Fld) : Bool := s.fld a f != 0

/-- The state with field `f` of the register at `a` set to `v`. -/
def State.setFld (s : State) (a : Nat) (f : Fld) (v : Nat) : State := s.setReg a (f.put (s.reg a) v)

/-- The state with the one-bit field `f` of the register at `a` set to `b`. -/
def State.setFlag (s : State) (a : Nat) (f : Fld) (b : Bool) : State := s.setFld a f (bit b)

/-- A wrapping counter register counts `k` more. -/
def State.count (s : State) (a k : Nat) : State := s.setReg a (s.reg a + word k)

/-- A saturating 32-bit counter register counts `k` more (R9). -/
def State.countSat (s : State) (a k : Nat) : State := s.setReg a (word (satAdd 32 (s.reg a).toNat k))

/-- A saturating counter in a field counts `k` more. -/
def State.countFldSat (s : State) (a : Nat) (f : Fld) (k : Nat) : State :=
  s.setFld a f (satAdd f.width (s.fld a f) k)

/-- Every register word that `p` selects returns to its reset value (R7). -/
def State.resetRegs (s : State) (p : Nat → Bool) : State := { s with regs := Tbl.clear p s.regs }

/-- The state with the completion of an access recorded. -/
def State.answer (s : State) (r : Resp) : State := { s with resp := r }

/-- The completion of a register read with value `w`. -/
def State.answerWord (s : State) (w : Word) : State := s.answer (.data (toBytes w.toNat 4))

/-! ### Memory bytes (R5, R29) -/

/-- What a byte of memory that nothing has written reads as (R475; DESIGN CHOICE, log entry 4). -/
def emptyByte (_ : Nat) : Byte := 0

/-- The byte of memory at fabric address `a`. -/
def State.byte (s : State) (a : Nat) : Byte := Tbl.get emptyByte s.mem a

/-- The state with the byte at `a` set. -/
def State.setByte (s : State) (a : Nat) (b : Byte) : State := { s with mem := Tbl.set emptyByte s.mem a b }

/-- `n` bytes from address `a` upwards. -/
def State.bytes (s : State) (a : Nat) : Nat → List Byte
  | 0 => []
  | n + 1 => s.byte a :: State.bytes s (a + 1) n

/-- The state with bytes stored from address `a` upwards. -/
def State.setBytes (s : State) (a : Nat) : List Byte → State
  | [] => s
  | b :: t => State.setBytes (s.setByte a b) (a + 1) t

/-- The little-endian word at `a`. -/
def State.memWord (s : State) (a : Nat) : Word := word (ofBytes (s.bytes a 4))

/-- The state with a little-endian word stored at `a`. -/
def State.setMemWord (s : State) (a : Nat) (w : Word) : State := s.setBytes a (toBytes w.toNat 4)

/-- Every byte of memory that `p` selects is lost and reads 0 again. -/
def State.eraseMem (s : State) (p : Nat → Bool) : State :=
  { s with mem := Tbl.clear p s.mem, ecc := Tbl.clear p s.ecc }

/-! ### Free values -/

/-- The next free value, and the state that has used it. -/
def State.free (s : State) : Word × State := (Config.freeWord s.fresh, { s with fresh := s.fresh + 1 })

/-! ### Processors -/

/-- Processor number `e`. -/
def State.eng (s : State) (e : Nat) : Engine := Tbl.get (fun _ => Engine.init) s.engines e

/-- The state with processor `e` replaced. -/
def State.setEng (s : State) (e : Nat) (x : Engine) : State :=
  { s with engines := Tbl.set (fun _ => Engine.init) s.engines e x }

/-- The state with processor `e` changed by `f`. -/
def State.updEng (s : State) (e : Nat) (f : Engine → Engine) : State := s.setEng e (f (s.eng e))

/-- The program word `w` of processor `e` (R32, R45): the word last written, else 0, or a free word where a test has
destroyed the store (R168). -/
def State.progWord (s : State) (e w : Nat) : PWord :=
  match Tbl.get (fun _ => none) s.prog (e * 16384 + w % 16384) with
  | some v => v
  | none =>
    match Tbl.get (fun _ => 0) s.storeSeed e with
    | 0 => 0
    | k + 1 => Config.freeProg k (w % 16384)

/-- The state with program word `w` of processor `e` set. -/
def State.setProgWord (s : State) (e w : Nat) (v : PWord) : State :=
  { s with prog := Tbl.set (fun _ => none) s.prog (e * 16384 + w % 16384) (some v) }

/-- The program store of processor `e` is destroyed: its content is free. -/
def State.destroyStore (s : State) (e : Nat) : State :=
  { s with
    prog := Tbl.clear (fun k => k / 16384 == e) s.prog
    storeSeed := Tbl.set (fun _ => 0) s.storeSeed e (s.fresh + 1)
    fresh := s.fresh + 1 }

/-- Lane number `l`. -/
def State.lane (s : State) (l : Nat) : Lane := Tbl.get (fun _ => Lane.init) s.lanes l

/-- The state with lane `l` changed by `f`. -/
def State.updLane (s : State) (l : Nat) (f : Lane → Lane) : State :=
  { s with lanes := Tbl.set (fun _ => Lane.init) s.lanes l (f (s.lane l)) }

/-! ### Time stamps (R234, R240) -/

/-- One second in units of 2^-16 ns. -/
abbrev secUnits : Nat := 65536000000000

/-- The network clock TC`n`. -/
def State.clock (s : State) (n : Nat) : Clock := s.tc.getD n Clock.init

/-- Seconds of a clock value in units of 2^-16 ns. -/
def unitsSec (t : Nat) : Nat := t / secUnits % 2 ^ 48

/-- Nanoseconds within the second of a clock value. -/
def unitsNs (t : Nat) : Nat := t / 65536 % 1000000000

/-- The fraction of a clock value. -/
def unitsFrac (t : Nat) : Nat := t % 65536

/-- The T32 stamp of a clock value (R240). -/
def t32Of (t : Nat) : Word := word (unitsSec t % 4 * 2 ^ 30 + unitsNs t)

/-- The three T96 words of a clock value (R240). -/
def t96Of (t : Nat) : Word × Word × Word :=
  (word (unitsNs t), word (unitsSec t), word (unitsSec t / 2 ^ 32 + unitsFrac t * 2 ^ 16))

/-- The T32 stamp of the present instant against TC`n`. -/
def State.t32 (s : State) (n : Nat) : Word := t32Of (s.clock n).t

/-- The seconds of TC0 (R564 windows). -/
def State.sec0 (s : State) : Nat := unitsSec (s.clock 0).t

/-! ### Vigil reports (R562, R563, R571, R574) -/

/-- The resource identifier KIND x 0x800 + index. -/
def resId (kind index : Nat) : Nat := kind * 0x800 + index

/-- What Vigil holds of resource `r`. -/
def State.resource (s : State) (r : Nat) : Resource := Tbl.get (fun _ => Resource.init) s.vigil.res r

/-- The state with the record of resource `r` changed by `f`. -/
def State.updResource (s : State) (r : Nat) (f : Resource → Resource) : State :=
  { s with vigil := { s.vigil with res := Tbl.set (fun _ => Resource.init) s.vigil.res r (f (s.resource r)) } }

/-- Ticks of CK_TIME (8 ns) in a second. -/
abbrev secTicks : Nat := 125000000

/-- Whether ECODE `c` counts in the window of R564 (R563). -/
def windowCode (c : Nat) : Bool := c == 3 || c == 4 || c == 7 || c == 9 || c == 12 || c == 15

/-- Whether ECODE `c` makes its resource permanent at once (R563). -/
def fatalCode (c : Nat) : Bool := c == 5 || c == 6 || c == 8

/-- A UE at granule `a` of resource `r` (R565): the table after it, and whether the granule is new (0), tracked and rewritten since
its last UE (1), or tracked and not rewritten (2). Of more than 32 entries the oldest goes. -/
def ueNote (bad : List (Nat × Nat × Bool)) (r a : Nat) : List (Nat × Nat × Bool) × Nat :=
  match bad.find? fun q => q.1 == r && q.2.1 == a with
  | none => ((bad ++ [(r, a, false)]).drop (bad.length + 1 - 32), 0)
  | some (_, _, true) => (bad.map fun q => if q.1 = r && q.2.1 = a then (r, a, false) else q, 1)
  | some (_, _, false) => (bad, 2)

/-- A report to Vigil: the per-resource counters count it (R564-R567), and the event enters the queue of 64, or is dropped and
counted in VIG_EVQ_LOST (R574). `detail` holds the RPN in [5:0] and the syndrome, vector or cause in [15:8] (R573). -/
def State.report (s : State) (ecode res : Nat) (addr detail : Nat) : State :=
  let live := res != 0 && Nat.blt (s.resource res).state 3
  let ue : List (Nat × Nat × Bool) × Nat := if live && ecode == 2 then ueNote s.vigil.bad res addr else (s.vigil.bad, 3)
  let cnt := (live && windowCode ecode) || ue.2 == 0
  let s := { s with vigil := { s.vigil with bad := ue.1 } }
  let s := if res = 0 then s else s.updResource res fun r => { r with
    total := satAdd 16 r.total 1
    stamps := if cnt then (s.ticks :: r.stamps).take 15 else r.stamps
    ce := if live && ecode == 1 then (s.ticks :: r.ce).take 255 else r.ce }
  if s.vigil.queue.length < 64 then
    let ev : VigEvent := {
      res := res, ecode := ecode, addr := word addr, detail := word detail, stamp := s.t32 0, sec := s.sec0, tick := s.ticks
      times := (s.resource res).stamps, rep := ue.2 == 2, nocnt := res != 0 && !live && !fatalCode ecode, again := ue.2 == 1 }
    let s := { s with vigil := { s.vigil with queue := s.vigil.queue ++ [ev] } }
    s.setFld VIG_STAT VIG_STAT_QLEV s.vigil.queue.length
  else s.countSat VIG_EVQ_LOST 1

/-- A bus error caused by software is logged with no resource (R563). -/
def State.reportSw (s : State) (rpn addr : Nat) : State := s.report 14 0 addr rpn

/-! ### Doorbells, events, MSI-X (R39, R62, R454, R455) -/

/-- A message event of MSI-X vector `v` (R39): held in the PBA while the vector is masked, else sent. -/
def State.msixEvent (s : State) (v : Nat) : State :=
  let h := s.host
  if !h.msixEn then s
  else if h.msixFm || (Tbl.get msixReset h.msix (4 * v + 3)).getLsbD 0 then
    { s with host := { h with pba := h.pba ||| BitVec.ofNat 32 (2 ^ v) } }
  else
    let a := (Tbl.get msixReset h.msix (4 * v)).toNat + (Tbl.get msixReset h.msix (4 * v + 1)).toNat * 2 ^ 32
    { s with host := { h with sent := h.sent ++ [(a, Tbl.get msixReset h.msix (4 * v + 2))] } }

/-- Message events of every vector whose bit is in `m`, lowest first. -/
def State.msixEvents (s : State) (m : Word) : State :=
  (List.range 32).foldl (fun s v => if m.getLsbD v then s.msixEvent v else s) s

/-- PBA bits clear where the host's doorbell is no longer both pending and unmasked (R39). -/
def State.msixSettle (s : State) : State :=
  { s with host := { s.host with pba := s.host.pba &&& s.reg (XCH_A_DB_PEND 0) &&& s.reg (XCH_A_DB_MASK 0) } }

/-- Bit `b` of agent `a`'s doorbell register is set (R454). Agents 36 and above do not exist: nothing rings. -/
def State.ring (s : State) (a b : Nat) : State :=
  if a < 36 then
    let m := word (2 ^ (b % 32))
    let old := s.reg (XCH_A_DB_PEND a)
    let s := s.setReg (XCH_A_DB_PEND a) (old ||| m)
    let new := m &&& ~~~old &&& s.reg (XCH_A_DB_MASK a)
    if a = 0 then s.msixEvents new
    else if a = 3 then { s with irqReq := s.irqReq ||| (new.truncate 8 &&& 0xFE) }
    else s
  else s

/-- Rings bit `b` of agent `a` if `en`. -/
def State.ringIf (s : State) (en : Bool) (a b : Nat) : State := if en then s.ring a b else s

/-- Event EV`n` of processor `e` is latched (R63: EV1, EV4-EV7). -/
def State.latchEv (s : State) (e n : Nat) : State :=
  s.updEng e fun x => { x with evpend := x.evpend ||| BitVec.ofNat 8 (2 ^ n) }

/-- A doorbell register of a block with DBAGENT [5:0], DBBIT [10:6], DBEN [11] rings as it is set up. -/
def State.ringEvt (s : State) (evt : Nat) : State :=
  let w := s.reg evt
  s.ringIf (w.getLsbD 11) (bitsOf w.toNat 0 6) (bitsOf w.toNat 6 5)

/-! ### Signal Mapper triggers (R439, R440) -/

/-- A trigger of list `n` (R440): pending at the tail of the run order, merged where it is pending already, discarded while the
mapper is not enabled (R446). -/
def State.trigger (s : State) (n : Nat) : State :=
  if !s.flag SGM_CTL SGM_CTL_EN then s
  else if s.sgmOrder.contains n then s.countSat SGM_MERGE 1
  else { s with sgmOrder := s.sgmOrder ++ [n] }

/-- The triggers of a write of `n` bytes at `a` to the trigger area (R439), in ascending list number. -/
def State.triggerArea (s : State) (a n : Nat) : State :=
  let w := (s.reg SGM_TWBASE).toNat
  let base := w / 1024 * 1024
  if w % 2 = 1 then
    (List.range ((a + n + 3) / 4 - a / 4)).foldl (fun s j =>
      let g := (a / 4 + j) * 4
      if Nat.ble base g && Nat.blt g (base + 1024) then s.trigger ((g - base) / 4) else s) s
  else s

/-! ### Agents and reset epochs (R450-R452) -/

/-- The agent behind an initiator (R450). -/
def agentOf : Init → Option Nat
  | .engine i => some (4 + i)
  | .keep => some 1
  | .loader => some 1
  | .pcie => some 0
  | .localBus => some 0
  | .gateway => some 2
  | _ => none

/-- Marks one mailbox or slot at an epoch advance of agent `a` (R452): STALE where it is FULL with receiver `a`, ORPHAN
where it is FULL with sender `a`. -/
def State.markStale (s : State) (a cfg stat : Nat) : State :=
  if s.flag stat XCH_MBX_STAT_FULL then
    let s := if s.fld cfg XCH_MBX_CFG_RCV = a then s.setFlag stat XCH_MBX_STAT_STALE true else s
    if s.fld cfg XCH_MBX_CFG_SND = a then s.setFlag stat XCH_MBX_STAT_ORPHAN true else s
  else s

/-- Frees and marks a semaphore held by agent `a` as abandoned (R452, R464). -/
def State.abandonSem (s : State) (a n : Nat) : State :=
  if s.flag (XCH_SEM_STAT n) XCH_SEM_STAT_HELD && s.fld (XCH_SEM_STAT n) XCH_SEM_STAT_OWNER == a then
    s.setReg (XCH_SEM_STAT n) 2
  else s

/-- The reset epoch of agent `a` advances (R451, R452): doorbells cleared, words marked, semaphores abandoned. -/
def State.advanceEpoch (s : State) (a : Nat) : State :=
  let s := s.setReg (XCH_EPOCH a) (word (((s.reg (XCH_EPOCH a)).toNat + 1) % 65536))
  let s := s.setReg (XCH_A_DB_PEND a) 0
  let s := if a = 0 then s.msixSettle else s
  let s := (List.range 128).foldl (fun s n => s.markStale a (XCH_MBX_CFG n) (XCH_MBX_STAT n)) s
  let s := (List.range 64).foldl (fun s n => s.markStale a (XCH_LVS_CFG n) (XCH_LVS_STAT n)) s
  (List.range 64).foldl (fun s n => s.abandonSem a n) s

end Sys2Proof.Machine
end

