-- ==== Sys2Proof/Machine/Memory.lean ====
section
/-! DEFINITION. The memories behind the fabric: the address map (R29, R30), access rights (R33), bank states (R476), error
correction (R469-R472, R619), MRAM writes (R481), DRAM availability (R31, R485, R486), and an access to a memory target.
Choices of the model: log entries 30, 31, 32, 39, 54. -/

set_option autoImplicit false

namespace Sys2Proof.Machine

open Sys2Proof

/-- The regions of the fabric address map (R29). -/
inductive Region where
  | dram | central | tower | exchange | prog | mram | regs | outbound | hole
deriving DecidableEq, Repr

/-- The installed DRAM in bytes (R483, MEM_DDR_STAT.SIZE). -/
def State.dramSize (s : State) : Nat :=
  match s.fld MEM_DDR_STAT MEM_DDR_STAT_SIZE with
  | 1 => 0x10000000
  | 2 => 0x20000000
  | 3 => 0x40000000
  | _ => 0

/-- The region of an address (R29-R32). The reserved upper half of a program-store window is a hole. -/
def State.region (s : State) (a : Nat) : Region :=
  if a < 0x40000000 then (if a < s.dramSize then .dram else .hole)
  else if a < 0x40400000 then .central
  else if a < 0x48000000 then .hole
  else if a < 0x48800000 then .tower
  else if a < 0x4C000000 then .hole
  else if a < 0x4C040000 then .exchange
  else if a < 0x50000000 then .hole
  else if a < 0x50200000 then (if a % 0x10000 < 0x8000 then .prog else .hole)
  else if a < 0x54000000 then .hole
  else if a < 0x54200000 then .mram
  else if a < 0x60000000 then .hole
  else if a < 0x601E0000 then .regs
  else if a < 0x80000000 then .hole
  else if a < 0x100000000 then .outbound
  else .hole

/-- Access rights by initiator group (R33). Bridge inbound reaches only DRAM and the exchange region, the gateway only
registers of its agent page, and the other data movers only memories. -/
def rights (i : Init) (r : Region) : Bool :=
  match r, i with
  | .hole, _ => false
  | .dram, .localBus => false
  | .dram, _ => true
  | .central, .localBus => false
  | .central, .bridge => false
  | .central, _ => true
  | .tower, .localBus => false
  | .tower, .bridge => false
  | .tower, _ => true
  | .exchange, _ => true
  | .prog, .keep => true
  | .prog, .loader => true
  | .prog, .scrubber => true
  | .prog, _ => false
  | .mram, .keep => true
  | .mram, .scrubber => true
  | .mram, _ => false
  | .regs, .engine _ => true
  | .regs, .keep => true
  | .regs, .pcie => true
  | .regs, .localBus => true
  | .regs, .gateway => true
  | .regs, _ => false
  | .outbound, .engine _ => true
  | .outbound, .keep => true
  | .outbound, .pcie => true
  | .outbound, _ => false

/-! ### Banks (R476-R480) -/

/-- The bank of a tower (0-63) or central (64-95) SRAM address. -/
def bankOf (a : Nat) : Nat :=
  if a < 0x40400000 then 64 + (a - 0x40000000) / 0x20000 else (a - 0x48000000) / 0x20000

/-- The first address of bank `k`. -/
def bankBase (k : Nat) : Nat := if k < 64 then 0x48000000 + 0x20000 * k else 0x40000000 + 0x20000 * (k - 64)

/-- The control, status and error registers of bank `k`: tower banks 0-63, central banks 64-95. -/
def bankCtl (k : Nat) : Nat := if k < 64 then MEM_TB_CTL k else MEM_CB_CTL (k - 64)
def bankStat (k : Nat) : Nat := if k < 64 then MEM_TB_STAT k else MEM_CB_STAT (k - 64)
def bankEcc (k : Nat) : Nat := if k < 64 then MEM_TB_ECC k else MEM_CB_ECC (k - 64)

/-- Bank states in code order (MEM_TBm_STAT.STATE): 0 ON, 1 RET, 2 WAKING, 3 OFF, 4 INIT, 5 TEST, 6 RETIRED. -/
def State.bankState (s : State) (k : Nat) : Nat := s.fld (bankStat k) MEM_TB_STAT_STATE

/-- The state with bank `k` in state `v`. -/
def State.setBankState (s : State) (k v : Nat) : State := s.setFld (bankStat k) MEM_TB_STAT_STATE v

/-- The content of bank `k` is lost. -/
def State.eraseBank (s : State) (k : Nat) : State :=
  s.eraseMem fun a => Nat.ble (bankBase k) a && Nat.blt a (bankBase k + 0x20000)

/-! ### Granules and error correction (R469-R472) -/

/-- Bytes of a granule: 8 in MRAM, 2 in the program store, 4 elsewhere. -/
def granSize (r : Region) : Nat :=
  match r with
  | .mram => 8
  | .prog => 2
  | _ => 4

/-- The granule addresses that `n` bytes from `a` touch. -/
def granules (g a n : Nat) : List Nat :=
  (List.range ((a + n + g - 1) / g - a / g)).map fun j => (a / g + j) * g

/-- MEMT code of a region (R472). -/
def memtOf (r : Region) : Nat :=
  match r with
  | .tower => 0
  | .central => 1
  | .exchange => 2
  | .prog => 3
  | .mram => 4
  | _ => 5

/-- The resource an address counts against (R562). -/
def memRes (r : Region) (a : Nat) : Nat :=
  match r with
  | .tower => resId 2 (bankOf a)
  | .central => resId 3 (bankOf a - 64)
  | .exchange => resId 4 ((a - 0x4C000000) / 0x20000)
  | .prog => resId 1 ((a - 0x50000000) / 0x10000)
  | .mram => resId 6 ((a - 0x54000000) / 0x80000)
  | _ => resId 5 (a / 0x100000)

/-- The register that counts the errors of an address (R488, R161). -/
def eccReg (r : Region) (a : Nat) : Nat :=
  match r with
  | .tower => bankEcc (bankOf a)
  | .central => bankEcc (bankOf a)
  | .exchange => MEM_XB_ECC ((a - 0x4C000000) / 0x20000)
  | .prog => SYS_E_ECC ((a - 0x50000000) / 0x10000)
  | .mram => MEM_MR_ECC ((a - 0x54000000) / 0x80000)
  | _ => MEM_DDR_ECC

/-- The error mark of granule `g`. -/
def State.mark (s : State) (g : Nat) : Option EccMark := Tbl.get (fun _ => none) s.ecc g

/-- The state with the error mark of granule `g` set. -/
def State.setMark (s : State) (g : Nat) (m : Option EccMark) : State :=
  { s with ecc := Tbl.set (fun _ => none) s.ecc g m }

/-- Upsets that the world brings about before an access: two upsets of one granule make it uncorrectable. -/
def State.upset (s : State) (us : List Upset) : State :=
  us.foldl (fun s u =>
    let g := u.addr / granSize (s.region u.addr) * granSize (s.region u.addr)
    s.setMark g (some (match s.mark g with
      | some _ => .uncorrectable
      | none => u.mark))) s

/-- The syndrome of an error: nonzero, otherwise free (R472). -/
def synOf (memt b : Nat) : Nat := 1 + Config.syndrome memt b % 255

/-- The information word of an error-queue entry (R472). -/
def errInfo (unc scrub : Bool) (memt rpn bitPos : Nat) : Word :=
  word (1 + bit unc * 2 + bit scrub * 4 + memt * 8 + rpn * 2 ^ 8 + synOf memt bitPos * 2 ^ 14 + bitPos % 256 * 2 ^ 22)

/-- An error enters the queue of 16, or is dropped and counted (R472). -/
def State.queueErr (s : State) (info : Word) (addr : Nat) : State :=
  if s.errq.length < 16 then { s with errq := s.errq ++ [⟨info, word addr, s.t32 0⟩] }
  else s.countSat MEM_ERRQ_LOST 1

/-- A corrected error at granule `g`: counted, queued, reported, and written back (R470, R170). -/
def State.corrected (s : State) (r : Region) (rpn : Nat) (scrub : Bool) (g b : Nat) : State :=
  let s := s.countFldSat (eccReg r g) MEM_TB_ECC_CORR 1
  let s := s.queueErr (errInfo false scrub (memtOf r) rpn b) g
  (s.report 1 (memRes r g) g (rpn + synOf (memtOf r) b * 256)).setMark g none

/-- An uncorrectable error at granule `g`: counted, queued, reported, and left as it stands (R471). -/
def State.uncorrected (s : State) (r : Region) (rpn : Nat) (scrub : Bool) (g : Nat) : State :=
  let s := s.countFldSat (eccReg r g) MEM_TB_ECC_UNCORR 1
  let s := s.queueErr (errInfo true scrub (memtOf r) rpn 0xFF) g
  s.report 2 (memRes r g) g (rpn + synOf (memtOf r) 0xFF * 256)

/-- The check of one granule: whether it is uncorrectable, and the state after the correction or the report. -/
def State.checkGranule (s : State) (r : Region) (rpn : Nat) (scrub : Bool) (g : Nat) : Bool × State :=
  match s.mark g with
  | none => (false, s)
  | some (.single b) => (false, s.corrected r rpn scrub g b)
  | some .uncorrectable => (true, s.uncorrected r rpn scrub g)

/-- The check of several granules: whether any is uncorrectable. -/
def State.checkGranules (s : State) (r : Region) (rpn : Nat) (scrub : Bool) : List Nat → Bool × State
  | [] => (false, s)
  | g :: t =>
    let (b, s) := s.checkGranule r rpn scrub g
    let (b', s) := State.checkGranules s r rpn scrub t
    (b || b', s)

/-- A granule written whole is good again, and a tracked one counts as rewritten (R619, R565). -/
def State.freshGranule (s : State) (g : Nat) : State :=
  let s := s.setMark g none
  { s with vigil := { s.vigil with bad := s.vigil.bad.map fun (r, a, w) => (r, a, w || a == g) } }

/-! ### Availability of a target -/

/-- What an access meets before its data: `none` where the target serves it (R476, R485, R486). -/
def State.blocked (s : State) (a : Nat) (write : Bool) : Option Resp :=
  match s.region a with
  | .tower | .central =>
    match s.bankState (bankOf a) with
    | 0 => none
    | 1 | 2 | 4 => some .waiting
    | _ => some .busError
  | .dram =>
    if (List.range 16).any fun k => s.flag (MEM_DDR_RSEG k) MEM_DDR_RSEG_VALID && s.fld (MEM_DDR_RSEG k) MEM_DDR_RSEG_SEG == a / 0x100000
    then some .busError
    else if write && Nat.ble ((s.reg MEM_DDR_INITPTR).toNat) a && !(s.flag MEM_DDR_STAT MEM_DDR_STAT_INITDONE) then some .waiting
    else none
  | .hole => some .busError
  | _ => none

/-- An access to a bank in RET starts its wake (R476). -/
def State.wake (s : State) (a : Nat) : State :=
  match s.region a with
  | .tower | .central => if s.bankState (bankOf a) = 1 then s.setBankState (bankOf a) 2 else s
  | _ => s

/-- A target that the access waits for is available at its end: a waking bank is ON, a bank being zeroed is ON, INITPTR has
passed the block, the oldest MRAM write has completed. -/
def State.waitTarget (s : State) (a : Nat) : State :=
  match s.region a with
  | .tower | .central =>
    if s.bankState (bankOf a) = 1 || s.bankState (bankOf a) = 2 || s.bankState (bankOf a) = 4 then s.setBankState (bankOf a) 0
    else s
  | .dram => s.setReg MEM_DDR_INITPTR (word (max (s.reg MEM_DDR_INITPTR).toNat (a / 32 * 32 + 32)))
  | .mram =>
    match s.mramQ with
    | [] => s
    | (g, d) :: t => { s.setBytes g d with mramQ := t }
  | _ => s

/-! ### MRAM (R481, R482) -/

/-- The bytes of the MRAM granule at `g` as a read sees them: the latest accepted write, else the array. -/
def State.mramGranule (s : State) (g : Nat) : List Byte :=
  match (s.mramQ.filter fun q => q.1 == g).getLast? with
  | some q => q.2
  | none => s.bytes g 8

/-- `n` MRAM bytes from `a`. -/
def State.mramBytes (s : State) (a : Nat) : Nat → List Byte
  | 0 => []
  | n + 1 => (s.mramGranule (a / 8 * 8)).getD (a % 8) 0 :: State.mramBytes s (a + 1) n

/-- A write of MRAM bytes is accepted granule by granule, the uncorrectable ones `bad` left out (R619). -/
def State.mramWrite (s : State) (bad : List Nat) (a : Nat) (d : List Byte) : State :=
  ((granules 8 a d.length).filter fun g => !bad.contains g).foldl (fun s g =>
    let new := (List.range 8).map fun j =>
      if Nat.ble a (g + j) && Nat.blt (g + j) (a + d.length) then d.getD (g + j - a) 0 else (s.mramGranule g).getD j 0
    { s with mramQ := s.mramQ ++ [(g, new)] }) s

/-! ### Access to a memory target -/

/-- A read of `n` bytes at `a` from a memory that serves it. -/
def State.readMem (s : State) (i : Init) (scrub : Bool) (a n : Nat) : Resp × State :=
  let r := s.region a
  let (bad, s) := s.checkGranules r i.rpn scrub (granules (granSize r) a n)
  if bad then (.uncorrectable, s)
  else if r = .dram && Nat.ble (s.reg MEM_DDR_INITPTR).toNat a && !(s.flag MEM_DDR_STAT MEM_DDR_STAT_INITDONE) then
    (.data (List.replicate n 0), s)
  else if r = .mram then (.data (s.mramBytes a n), s)
  else (.data (s.bytes a n), s)

/-- The block of granules that a write must read and check before it is applied (R619): granules it covers in part, and in
DRAM every granule of a 32-byte block it does not fill. -/
def narrowGranules (r : Region) (a n : Nat) : List Nat :=
  if r = .dram then (if a % 32 = 0 && n = 32 then [] else granules 4 (a / 32 * 32) 32)
  else (granules (granSize r) a n).filter fun g => Nat.blt g a || Nat.blt (a + n) (g + granSize r)

/-- A write of bytes at `a` to a memory that serves it (R466, R619). Bytes of an uncorrectable granule, in DRAM of its whole
block, are not written, and the write completes with a bus error. -/
def State.writeMem (s : State) (i : Init) (a : Nat) (d : List Byte) : Resp × State :=
  let r := s.region a
  let gs := granSize r
  let narrow := narrowGranules r a d.length
  let badG := narrow.filter fun g => s.mark g == some .uncorrectable
  let (bad, s) := s.checkGranules r i.rpn false narrow
  let s := (granules gs a d.length).foldl (fun s g => if narrow.contains g then s else s.freshGranule g) s
  if bad && r = .dram then (.busError, s)
  else
    let s := if r = .mram then s.mramWrite badG a d
      else (List.range d.length).foldl (fun s j =>
        if badG.contains ((a + j) / gs * gs) then s else s.setByte (a + j) (d.getD j 0)) s
    (if bad then .busError else .ok, if !bad && r = .exchange then s.triggerArea a d.length else s)

/-- The Cupola's safety area of the MRAM (R543). -/
def safetyArea (a : Nat) : Bool := (Nat.ble 0x54160000 a && Nat.blt a 0x54180000) || (Nat.ble 0x541E0000 a && Nat.blt a 0x54200000)

/-- Whether a write of `n` MRAM bytes at `a` is accepted (R545): in the safety area from the Keep inside the open window only. -/
def State.mramAllowed (s : State) (i : Init) (a n : Nat) : Bool :=
  !safetyArea a || (i == .keep && Nat.ble s.cup.wwa.toNat a && Nat.ble (a + n) (s.cup.wwa.toNat + s.cup.wwl.toNat))

/-- A memory access (no program store, register or outbound window) after the rights check: waits where the target holds it
back, fails where the target does not exist, else is applied as one indivisible unit (R466). -/
def State.memAccess (s : State) (i : Init) (op : Access) : Resp × State :=
  if !rights i (s.region op.addr) then (.busError, s)
  else
    match s.blocked op.addr op.isWrite with
    | some .waiting => (.waiting, s.wake op.addr)
    | some x => (x, s)
    | none =>
      match op with
      | .read a n => s.readMem i false a n
      | .write a d =>
        if s.region a = .mram && (s.mramStop || !s.mramAllowed i a d.length) then (.busError, s)
        else if s.region a = .mram && 8 ≤ s.mramQ.length then (.waiting, s)
        else s.writeMem i a d

/-- The same access carried to its end: a bank that wakes or is being zeroed is waited for. -/
def State.memAccessWait (s : State) (i : Init) (op : Access) : Resp × State :=
  match s.memAccess i op with
  | (.waiting, s') => (s'.waitTarget op.addr).memAccess i op
  | x => x

/-- The data of a read completion, zeros where it failed. -/
def Resp.bytes (r : Resp) (n : Nat) : List Byte :=
  match r with
  | .data l => l
  | _ => List.replicate n 0

/-- Whether an access completed without error. -/
def Resp.good (r : Resp) : Bool :=
  match r with
  | .ok => true
  | .data _ => true
  | _ => false

/-- The transactions of 1-32 bytes within aligned blocks that carry `n` bytes from `a` (R465): start and length. -/
def split32 (a n : Nat) : List (Nat × Nat) :=
  (List.range ((a + n + 31) / 32 - a / 32)).map fun j =>
    let lo := max a ((a / 32 + j) * 32)
    (lo, min (a + n) ((a / 32 + j + 1) * 32) - lo)

/-- A data mover's read: its transactions in order up to the first failure; the bytes, the failure if any, the state. -/
def State.moverReadL (s : State) (i : Init) : List (Nat × Nat) → List Byte × Option Resp × State
  | [] => ([], none, s)
  | (a, n) :: t =>
    let (r, s) := s.memAccessWait i (.read a n)
    if r.good then
      let (l, f, s) := State.moverReadL s i t
      (r.bytes n ++ l, f, s)
    else ([], some r, s)

/-- A data mover's read of `n` bytes from `a`. -/
def State.moverRead (s : State) (i : Init) (a n : Nat) : List Byte × Option Resp × State := s.moverReadL i (split32 a n)

/-- A data mover's write: its transactions in order up to the first failure. -/
def State.moverWriteL (s : State) (i : Init) (base : Nat) (d : List Byte) : List (Nat × Nat) → Option Resp × State
  | [] => (none, s)
  | (a, n) :: t =>
    let (r, s) := s.memAccessWait i (.write a ((d.drop (a - base)).take n))
    if r.good then State.moverWriteL s i base d t else (some r, s)

/-- A data mover's write of bytes from `a`. -/
def State.moverWrite (s : State) (i : Init) (a : Nat) (d : List Byte) : Option Resp × State :=
  s.moverWriteL i a d (split32 a d.length)

/-- A data mover's little-endian word at `a`. -/
def State.moverWord (s : State) (i : Init) (a : Nat) : Word × Option Resp × State :=
  let (l, f, s) := s.moverRead i a 4
  (word (ofBytes l), f, s)

end Sys2Proof.Machine
end

