-- ==== Sys2Proof/Machine/Mode.lean ====
section
/-! DEFINITION. The mode controller's register, power-domain states, and Vigil's DEGRADED request (R569, R579, R583, R596). -/

set_option autoImplicit false

namespace Sys2Proof.Machine

open Sys2Proof

/-- The operating mode (R579): 1 BOOT, 2 COMMISSION, 3 RUN, 4 DEGRADED, 5 HOLD. -/
def State.mode (s : State) : Nat := s.fld SYS_MODE SYS_MODE_MODE

/-- The state of power domain PD3 + `d` (PWR_PD_STAT): 0 ON, 1 OFF, 2 SWITCHING. -/
def State.domain (s : State) (d : Nat) : Nat := bitsOf (s.reg PWR_PD_STAT).toNat (2 * d) 2

/-- Whether a HOLD request stands: of the Cupola (R518) or of Vigil (R570). -/
def State.holdStands (s : State) : Bool := s.cup.hold != 0 || s.flag VIG_STAT VIG_STAT_HOLDREQ

/-- A transition to mode `m` by event `ev` (R583): TCNT advances and the doorbell of SYS_MODE_EVT rings. -/
def State.setMode (s : State) (m ev : Nat) : State :=
  let n := s.fld SYS_MODE SYS_MODE_TCNT
  let s := (s.setFld SYS_MODE SYS_MODE_MODE m).setFld SYS_MODE SYS_MODE_TCNT ((n + 1) % 256)
  (s.setFld SYS_MODE SYS_MODE_LASTEV ev).ringEvt SYS_MODE_EVT

/-- The request bits of SYS_MODE. -/
def State.syncMode (s : State) : State :=
  (s.setFlag SYS_MODE SYS_MODE_DEGREQ (s.flag VIG_STAT VIG_STAT_DEGREQ)).setFlag SYS_MODE SYS_MODE_HOLDREQ s.holdStands

/-- RUN and DEGRADED follow DEGREQ while no HOLD request stands (R579). -/
def State.degrMode (s : State) : State :=
  let s := s.syncMode
  let d := s.flag VIG_STAT VIG_STAT_DEGREQ
  if s.holdStands then s
  else if s.mode = 3 && d then s.setMode 4 5
  else if s.mode = 4 && !d then s.setMode 3 6
  else s

/-- The DEGRADED conditions that follow from other state (R569): RSV, STBY, MRAM, XBANK, PERIPH, PENDRET. -/
def State.degrNow (s : State) : Nat :=
  let res (p : Nat → Bool) (st : Nat) : Bool := s.vigil.res.any fun q => p (q.1 / 0x800) && q.2.state == st
  bit (s.flag PLM_STAT PLM_STAT_SHORT) + 2 * bit ((s.mode == 3 || s.mode == 4) && !s.cup.stby) +
    8 * bit (res (fun k => k == 6) 6) + 16 * bit (res (fun k => k == 4) 6) +
    32 * bit (res (fun k => k == 5 || (Nat.ble 10 k && Nat.ble k 17)) 6) + 128 * bit (res (fun k => k == 2 || k == 3) 4)

/-- VIG_DEGR with the conditions that stand now; KBANK (2) and RREC (6) stand as `k` and `r` say. A change rings Vigil's doorbell,
DEGREQ is 1 while any condition stands, and the mode follows (R569, R576). -/
def State.degrSet (s : State) (k r : Bool) : State :=
  let old := s.reg VIG_DEGR
  let new := word (s.degrNow + 4 * bit k + 64 * bit r)
  let s := (s.setReg VIG_DEGR new).setFlag VIG_STAT VIG_STAT_DEGREQ (new != 0)
  let s := if new = old then s else s.ringEvt VIG_EVT
  s.degrMode

/-- DEGRADED_REQUEST_CHANGE (R569): the conditions are evaluated again. -/
def State.degrSync (s : State) : State := s.degrSet ((s.reg VIG_DEGR).getLsbD 2) ((s.reg VIG_DEGR).getLsbD 6)

end Sys2Proof.Machine
end

