-- ==== Sys2Proof/Machine/Gate.lean ====
section
/-! DEFINITION. Which register accesses reach their block (R33, R44, R453, R596), and how a bus error is reported (R37, R43, R92).
Choices of the model: log entries 14, 93, 103. -/

set_option autoImplicit false

namespace Sys2Proof.Machine

open Sys2Proof

/-! ### Reports of bus errors -/

/-- A host request that met a bus error (R37): AER and a report to Vigil. -/
def State.hostFail (s : State) (addr : Nat) : State :=
  ({ s with host := { s.host with aer := true, aerAddr := addr } }).reportSw 33 addr

/-- An access at `addr` of initiator `i` that ended with a bus error is reported: to AER and Vigil for the PCIe host (R37), to Vigil
for engines, the Keep and the local bus (R92, R43). Data movers have their own completion status. -/
def State.reported (s : State) (i : Init) (addr : Nat) : State :=
  if s.resp = .busError then
    match i with
    | .engine _ | .keep | .localBus => s.reportSw i.rpn addr
    | .pcie => s.hostFail addr
    | _ => s
  else s

/-! ### Gates before a block -/

/-- Whether register address `a` lies in domain PD3 + `d`. -/
def domainReg (d a : Nat) : Bool :=
  if d < 4 then Nat.ble (0x60001080 + 0x800 * d) a && Nat.blt a (0x60001880 + 0x800 * d)
  else if d = 4 then Nat.ble 0x60080000 a && Nat.blt a 0x600C0000
  else (Nat.ble 0x60060000 a && Nat.blt a 0x60080000) || (Nat.ble 0x600C0000 a && Nat.blt a 0x60100000)

/-- Whether the register at `a` lies in a power domain that is not ON (R596). -/
def State.regOff (s : State) (a : Nat) : Bool := (List.range 6).any fun d => domainReg d a && s.domain d != 0

/-- Whether the host interfaces are closed to address `a` in BOOT (R44, R589). -/
def State.hostClosed (s : State) (i : Init) (a : Nat) : Bool :=
  s.mode == 1 && match i with
    | .pcie => !((Nat.ble 0x60000000 a && Nat.blt a 0x60010000) ||
        (Nat.ble 0x40000000 a && Nat.blt a 0x403E0000 && s.flag SYS_BOOT_STAT SYS_BOOT_STAT_FAIL))
    | .localBus => !(Nat.ble 0x60000000 a && Nat.blt a 0x60010000)
    | _ => false

/-- Whether a register access of initiator `i` at `a` meets a bus error before it reaches its block: no right (R33), the gateway
outside its page, the domain off, the device held in reset, the host interface closed. -/
def State.regShut (s : State) (i : Init) (a : Nat) : Bool :=
  !rights i .regs || (i == .gateway && !(Nat.ble 0x60101000 a && Nat.blt a 0x60101800)) || s.regOff a || s.boot.held ||
    s.hostClosed i a || Nat.blt a 0x60000000 || Nat.ble 0x601E0000 a

/-- A register access of initiator `i` at `a` with effect `f` on its block: a bus error where the access does not reach it. -/
def State.gate (s : State) (i : Init) (a : Nat) (f : State → State) : State :=
  (if s.regShut i a then s.answer .busError else f s).reported i a

end Sys2Proof.Machine
end

