-- ==== Sys2Proof/Machine/RegAccess.lean ====
section
/-! DEFINITION. The generic write and read of a register word per the access codes of its fields (R8-R12).
Choices of the model: log entries 100. -/

set_option autoImplicit false

namespace Sys2Proof.Machine

open Sys2Proof

/-- A 32-bit write of `v` to the register at `a` per its access codes (R8): RW bits take the value, RWQ bits take it while
`quiet`, W1C bits clear where it is 1, all others ignore it. A write that would change an RWQ bit of a block that is not
quiescent leaves those bits and completes with a bus error (R10). An unlisted word ignores the write (R31). -/
def State.plainWrite (s : State) (quiet : Bool) (a : Nat) (v : Word) : State :=
  match regRow? a with
  | none => s.answer .ok
  | some r =>
    let old := s.reg a
    let rw := word r.rw
    let q := word r.rwq
    let w1 := (old &&& ~~~rw) ||| (v &&& rw)
    let w2 := if quiet then (w1 &&& ~~~q) ||| (v &&& q) else w1
    let w3 := w2 &&& ~~~(v &&& word r.w1c)
    (s.setReg a w3).answer (if !quiet && ((old ^^^ v) &&& q) != 0 then .busError else .ok)

/-- The write of a word whose RW bits are `rw` and RWQ bits `q`, where a table's words differ in their masks (R8, R10). -/
def State.maskWrite (s : State) (quiet : Bool) (a rw q : Nat) (v : Word) : State :=
  let old := s.reg a
  let m := if quiet then word rw ||| word q else word rw
  (s.setReg a ((old &&& ~~~m) ||| (v &&& m))).answer (if !quiet && ((old ^^^ v) &&& word q) != 0 then .busError else .ok)

/-- What a plain read of the register at `a` returns: WO and W1S bits read 0 (R8). -/
def State.plainValue (s : State) (a : Nat) : Word :=
  match regRow? a with
  | none => 0
  | some r => s.reg a &&& ~~~(word r.wo)

/-- A read of the register at `a`: RC bits clear after it; `events` are RC bits set, or counts of 1, in the same cycle, which
stand after the read (R9). -/
def State.plainRead (s : State) (events : Word) (a : Nat) : State :=
  match regRow? a with
  | none => s.answerWord 0
  | some r =>
    let v := s.plainValue a
    let s := if r.rc = 0 then s else s.setReg a ((s.reg a &&& ~~~(word r.rc)) ||| (events &&& word r.rc))
    s.answerWord v

/-- A field that a write names with a reserved encoding keeps its value (R11): the value `v` with field `f` as it stands. -/
def State.keepFld (s : State) (a : Nat) (f : Fld) (bad : Nat → Bool) (v : Word) : Word :=
  if bad (f.get v) then f.put v (s.fld a f) else v

/-- A register access must be 32-bit and aligned (R12). -/
def sized (a size : Nat) : Bool := a % 4 == 0 && size == 4

end Sys2Proof.Machine
end

