-- ==== Sys2Proof/Machine/CampTables.lean ====
section
/-! DEFINITION. Campanile schedule tables: validation, arming and cancelling of a switch, for the node and for the Belfry star
(R320-R324, R366-R368), and the timing checks of START (R312, R348).
Choices of the model: log entries 71, 72. -/

set_option autoImplicit false

namespace Sys2Proof.Machine

open Sys2Proof

/-! ### Entries (R320) -/

/-- A schedule entry, by its words. -/
structure SchedEntry where
  w0 : Nat
  w1 : Nat
  w2 : Nat
  w3 : Nat
deriving DecidableEq, Repr

/-- Entry `k` of node table `t`. -/
def State.entry (s : State) (t k : Nat) : SchedEntry :=
  ⟨(s.reg (CTB_TBL t k 0)).toNat, (s.reg (CTB_TBL t k 1)).toNat, (s.reg (CTB_TBL t k 2)).toNat, (s.reg (CTB_TBL t k 3)).toNat⟩

/-- Entry `k` of star table `t`. -/
def State.starEntry (s : State) (t k : Nat) : SchedEntry :=
  ⟨(s.reg (BFY_TBL t k 0)).toNat, (s.reg (BFY_TBL t k 1)).toNat, (s.reg (BFY_TBL t k 2)).toNat, (s.reg (BFY_TBL t k 3)).toNat⟩

def SchedEntry.start (e : SchedEntry) : Nat := bitsOf e.w0 0 14
def SchedEntry.type (e : SchedEntry) : Nat := bitsOf e.w0 14 2
def SchedEntry.plen (e : SchedEntry) : Nat := bitsOf e.w0 16 8
def SchedEntry.repx (e : SchedEntry) : Nat := bitsOf e.w0 24 3
def SchedEntry.sync (e : SchedEntry) : Bool := e.w0.testBit 27
def SchedEntry.slotid (e : SchedEntry) : Nat := bitsOf e.w1 0 10
def SchedEntry.base (e : SchedEntry) : Nat := bitsOf e.w1 10 6
def SchedEntry.dur (e : SchedEntry) : Nat := bitsOf e.w1 16 8
def SchedEntry.buf (e : SchedEntry) : Nat := 0x4C000000 + 16 * bitsOf e.w2 0 14

/-- Whether the entry applies in a cycle of count `c`. -/
def SchedEntry.applies (e : SchedEntry) (c : Nat) : Bool := e.type != 0 && c % 2 ^ e.repx == e.base

/-- Whether channel `c` is an effective channel of the entry (R320). -/
def State.effective (s : State) (e : SchedEntry) (c : Nat) : Bool :=
  e.w0.testBit (28 + c) && (s.reg CTB_NODE).getLsbD (6 + c)

/-! ### Timing (R312) -/

/-- Macrotick and cycle lengths, segment, action point, gap. -/
def State.mtlen (s : State) : Nat := s.fld CTB_TIMING CTB_TIMING_MTLEN
def State.cyclen (s : State) : Nat := s.fld CTB_TIMING CTB_TIMING_CYCLEN
def State.nit (s : State) : Nat := s.fld CTB_SEG CTB_SEG_NIT
def State.apo (s : State) : Nat := s.fld CTB_SEG CTB_SEG_APO
def State.sgap (s : State) : Nat := s.fld CTB_SGAP CTB_SGAP_GAP

/-- The nominal cycle length in ns. -/
def State.cl (s : State) : Nat := s.cyclen * s.mtlen * 8

/-- OCLIM: 16-4,000, other values act as 4,000 (R355). -/
def State.oclim (s : State) : Nat :=
  let n := s.fld CTB_SYNCCFG CTB_SYNCCFG_OCLIM
  if n < 16 || 4000 < n then 4000 else n

/-- Whether the timing lies in the ranges of R312 and R348. -/
def State.timingOk (s : State) : Bool :=
  Nat.ble 40 s.mtlen && Nat.ble s.mtlen 1250 && Nat.ble 8 s.cyclen && Nat.ble 50000 s.cl && Nat.ble s.cl 10000000 &&
    Nat.ble 2 s.nit && Nat.blt s.nit s.cyclen && Nat.ble (s.oclim + 1000) (s.nit * s.mtlen * 8)

/-! ### Validation (R321, R367) -/

/-- A violation: its entry (none: a register), and its code. -/
abbrev Violation := Option Nat × Nat

/-- The first of the used entries that a check refuses. -/
def firstBad (es : List (Nat × SchedEntry)) (code : Nat) (bad : Nat → SchedEntry → Bool) : Option Violation :=
  (es.find? fun e => bad e.1 e.2).map fun e => (some e.1, code)

/-- The first pair of overlapping windows whose cycle sets meet (code 4). -/
def overlap4 : List (Nat × SchedEntry) → Option Violation
  | [] => none
  | (k, e) :: t =>
    let bad := t.find? fun f =>
      Nat.blt e.start (f.2.start + f.2.dur) && Nat.blt f.2.start (e.start + e.dur) &&
        e.base % 2 ^ min e.repx f.2.repx == f.2.base % 2 ^ min e.repx f.2.repx
    match bad with
    | some f => some (some (max k f.1), 4)
    | none => overlap4 t

/-- The first gap or step back in the starts of the entries (code 3). -/
def order3 (es : List (Nat × SchedEntry)) : Option Violation :=
  let rec go (n last : Nat) : List (Nat × SchedEntry) → Option Violation
    | [] => none
    | (k, e) :: t => if k != n || Nat.blt e.start last then some (some k, 3) else go (n + 1) e.start t
  go 0 0 es

/-- The used entries of node table `t`. -/
def State.usedEntries (s : State) (t : Nat) : List (Nat × SchedEntry) :=
  (List.range 1024).filterMap fun k => let e := s.entry t k; if e.type = 0 then none else some (k, e)

/-- Code 2 of R321 for one entry. -/
def State.bad2 (s : State) (e : SchedEntry) : Bool :=
  e.w0 / 2 ^ 30 != 0 || e.w1 / 2 ^ 24 != 0 || e.w2 / 2 ^ 29 != 0 || e.w3 / 2 ^ 5 != 0 || e.repx == 7 ||
    !Nat.blt e.base (2 ^ e.repx) || Nat.blt 248 e.plen || e.dur == 0 || !(s.effective e 0 || s.effective e 1) ||
    Nat.blt 0x40000 (16 * bitsOf e.w2 0 14 + 16 + (e.plen + 3) / 4 * 4) || (e.type != 2 && e.sync) ||
    (e.type != 1 && (e.w2.testBit 15 || e.w3 != 0))

/-- The first violation of R321 in node table `t`. -/
def State.validateNode (s : State) (t : Nat) : Option Violation :=
  let es := s.usedEntries t
  let syncs := es.filter fun e => e.2.sync
  let sync7 : Option Violation :=
    if s.flag CTB_NODE CTB_NODE_SYNCN then
      match syncs with
      | [] => some (none, 7)
      | [e] => if e.2.repx = 0 && s.effective e.2 0 && s.effective e.2 1 then none else some (some e.1, 7)
      | _ :: e :: _ => some (some e.1, 7)
    else syncs.head?.map fun e => (some e.1, 7)
  let leap8 : Option Violation :=
    (List.range 8).findSome? fun i =>
      if s.flag (CTB_LEAPC i) CTB_LEAPC_VALID then
        match es.filter fun e => e.2.type == 3 && e.2.slotid == s.fld (CTB_LEAPC i) CTB_LEAPC_SLOTID with
        | [e] => if e.2.repx = 0 then none else some (some e.1, 8)
        | _ => some (none, 8)
      else none
  firstBad es 2 (fun _ e => s.bad2 e) <|> order3 es <|> overlap4 es <|>
    firstBad es 5 (fun _ e => Nat.blt (e.dur * s.mtlen) (s.apo + (e.plen + 16) * 10 + s.sgap)) <|>
    firstBad es 6 (fun _ e => Nat.blt (s.cyclen - s.nit) (e.start + e.dur)) <|> sync7 <|> leap8

/-- The effective channel of a branch: 0 none, 1 A, 2 B (R356). -/
def State.branchCh (s : State) (b : Nat) : Nat :=
  if b = 0 && !s.flag BFY_CTL BFY_CTL_ENA then 0
  else if b = 1 && !s.flag BFY_CTL BFY_CTL_ENB then 0
  else if b < 16 then (let n := bitsOf (s.reg BFY_PORTMAP).toNat (2 * b) 2; if n = 3 then 0 else n)
  else 0

/-- Whether branch `b` belongs to channel `c` (0 A, 1 B) of the star; branch 16 to every channel the node enables. -/
def State.onChannel (s : State) (b c : Nat) : Bool :=
  if b = 16 then (s.reg CTB_NODE).getLsbD (6 + c) && (s.reg BFY_CTL).getLsbD c
  else s.branchCh b == c + 1

/-- The owner branch of a star entry on a channel; 31 none. -/
def SchedEntry.owner (e : SchedEntry) (c : Nat) : Nat := bitsOf e.w2 (8 * c) 5

/-- The first violation of R367 in star table `t`. -/
def State.validateStar (s : State) (t : Nat) : Option Violation :=
  let es := (List.range 1024).filterMap fun k => let e := s.starEntry t k; if e.type = 0 then none else some (k, e)
  let on (c : Nat) : Bool := (s.reg BFY_CTL).getLsbD c
  let badOwner (e : SchedEntry) (c : Nat) : Bool := on c && e.owner c != 31 && !s.onChannel (e.owner c) c
  firstBad es 2 (fun _ e => bitsOf e.w0 16 8 != 0 || e.w0 / 2 ^ 27 != 0 || e.w1 / 2 ^ 24 != 0 || bitsOf e.w2 5 3 != 0 ||
    e.w2 / 2 ^ 13 != 0 || e.repx == 7 || !Nat.blt e.base (2 ^ e.repx) || e.dur == 0 || e.type == 3) <|>
  order3 es <|> overlap4 es <|> firstBad es 6 (fun _ e => Nat.blt (s.cyclen - s.nit) (e.start + e.dur)) <|>
  firstBad es 8 (fun _ e => e.type == 2 && (e.repx != 0 || e.owner 0 != 31 || e.owner 1 != 31)) <|>
  firstBad es 11 (fun _ e => e.type == 1 && (badOwner e 0 || badOwner e 1 || (e.owner 0 == 31 && e.owner 1 == 31)))

/-- The word of CTB_CFGERR and BFY_CFGERR for a violation in table `t`. -/
def cfgErrWord (t : Nat) (v : Violation) : Word :=
  word (v.1.getD 0 + bit v.1.isNone * 2 ^ 10 + t * 2 ^ 11 + v.2 * 2 ^ 12)

/-- A refusal of the node's START or arm. -/
def State.nodeRefused (s : State) (t : Nat) (v : Violation) : State :=
  (s.setReg CTB_CFGERR (cfgErrWord t v)).setFlag CTB_STAT CTB_STAT_CFGERR true

/-- A refusal of the star's enable or arm. -/
def State.starRefused (s : State) (t : Nat) (v : Violation) : State :=
  (s.setReg BFY_CFGERR (cfgErrWord t v)).setFlag BFY_STAT BFY_STAT_CFGERR true

/-- Whether table `t` is validated. -/
def validOf (v : Bool × Bool) (t : Nat) : Bool := if t = 0 then v.1 else v.2

/-- The validation status with table `t` set. -/
def setValid (v : Bool × Bool) (t : Nat) (b : Bool) : Bool × Bool := if t = 0 then (b, v.2) else (v.1, b)

/-! ### Doorbells of state changes (R338, R359) -/

/-- The node's state doorbell. -/
def State.ringCtb (s : State) : State :=
  s.ringIf (s.flag CTB_EVT CTB_EVT_STEN) (s.fld CTB_EVT CTB_EVT_DBAGENT) (s.fld CTB_EVT CTB_EVT_STBIT)

/-- The star's state doorbell. -/
def State.ringBfy (s : State) : State :=
  s.ringIf (s.flag BFY_EVT BFY_EVT_STEN) (s.fld BFY_EVT BFY_EVT_DBAGENT) (s.fld BFY_EVT BFY_EVT_STBIT)

/-! ### Arm and cancel (R323, R324, R368) -/

/-- The node with its armed switch, or an arm under validation, cancelled. -/
def State.disarmNode (s : State) : State :=
  let s := (s.setFlag CTB_STAT CTB_STAT_ARMED false).setFlag CTB_SWITCH CTB_SWITCH_ARM false
  { s with camp := { s.camp with jobs := s.camp.jobs.filter fun j => j.2 != 2 } }

/-- The star with its armed switch cancelled. -/
def State.disarmStar (s : State) : State :=
  let s := (s.setFlag BFY_STAT BFY_STAT_ARMED false).setFlag BFY_SWITCH CTB_SWITCH_ARM false
  { s with star := { s.star with jobs := [] } }

/-- The node's switch to table `t` is armed; the last refusal is cleared. -/
def State.nodeArmed (s : State) : State :=
  ((s.setFlag CTB_STAT CTB_STAT_ARMED true).setFlag CTB_SWITCH CTB_SWITCH_ARM true).setFlag CTB_STAT CTB_STAT_CFGERR false

/-- The star's switch is armed. -/
def State.starArmed (s : State) : State :=
  ((s.setFlag BFY_STAT BFY_STAT_ARMED true).setFlag BFY_SWITCH CTB_SWITCH_ARM true).setFlag BFY_STAT BFY_STAT_CFGERR false

/-- An arm of the star's switch (R368). -/
def State.armStar (s : State) (t c : Nat) : State :=
  let s := s.disarmStar
  let s := (s.setFld BFY_SWITCH CTB_SWITCH_TBL t).setFld BFY_SWITCH CTB_SWITCH_CYC c
  let s := { s with star := { s.star with arm := (t, c) } }
  if s.fld BFY_STAT BFY_STAT_STATE = 0 then s.starRefused t (none, 10)
  else if validOf s.star.valid t then s.starArmed
  else { s with star := { s.star with jobs := [t] } }

/-- An arm of the node's switch (R323, R324), followed by the star where SWFOLLOW is 1 (R368). -/
def State.armNode (s : State) (t c : Nat) : State :=
  let s := s.disarmNode
  let s := (s.setFld CTB_SWITCH CTB_SWITCH_TBL t).setFld CTB_SWITCH CTB_SWITCH_CYC c
  let s := { s with camp := { s.camp with arm := (t, c) } }
  let s := if s.fld CTB_STAT CTB_STAT_STATE = 0 then s.nodeRefused t (none, 10)
    else if validOf s.camp.valid t then s.nodeArmed
    else { s with camp := { s.camp with jobs := s.camp.jobs ++ [(t, 2)] } }
  if s.flag BFY_CTL BFY_CTL_SWFOLLOW then s.armStar t c else s

/-- A cancel of the star's switch. -/
def State.cancelStar (s : State) : State :=
  if s.flag BFY_STAT BFY_STAT_ARMED || !s.star.jobs.isEmpty then s.disarmStar
  else if s.star.swEff = some s.star.cycnum then s.setFlag BFY_SWITCH CTB_SWITCH_TOOLATE true
  else s

/-- A cancel of the node's switch (R324): disarms, or is too late in the cycle whose start made the switch. -/
def State.cancelNode (s : State) : State :=
  let s := if s.flag CTB_STAT CTB_STAT_ARMED || s.camp.jobs.any (fun j => j.2 == 2) then s.disarmNode
    else if s.camp.swEff = some (s.reg CTB_CYCNUM).toNat then s.setFlag CTB_SWITCH CTB_SWITCH_TOOLATE true
    else s
  if s.flag BFY_CTL BFY_CTL_SWFOLLOW then s.cancelStar else s

end Sys2Proof.Machine
end

