-- ==== Sys2Proof/Machine/CampSync.lean ====
section
/-! DEFINITION. Campanile frames and the synchronisation algorithm shared by the node and the star (R317, R318, R345-R352).
Choices of the model: log entries 72, 73. -/

set_option autoImplicit false

namespace Sys2Proof.Machine

open Sys2Proof

/-! ### Frames (R317, R318) -/

/-- One bit of the header CRC: polynomial x^16 + x^12 + x^5 + 1, most significant bit first. -/
def crc16Bit (c : Nat) (b : Bool) : Nat :=
  let top := c / 2 ^ 15 % 2 == 1
  let s := c * 2 % 2 ^ 16
  if top != b then Nat.xor s 0x1021 else s

/-- One byte of the header CRC. -/
def crc16Byte (c : Nat) (b : Byte) : Nat :=
  [7, 6, 5, 4, 3, 2, 1, 0].foldl (fun c i => crc16Bit c (b.getLsbD i)) c

/-- HCRC over H0-H5. -/
def hcrc (h : List Byte) : Nat := (h.take 6).foldl crc16Byte 0xFFFF

/-- The header fields of a frame. -/
structure CampHdr where
  slotid : Nat
  cyc : Nat
  len : Nat
  sync : Bool
  startup : Bool
  leap : Bool
  nul : Bool
  node : Nat
  tbl : Nat
deriving DecidableEq, Repr

/-- The frame of a header and a payload, with both CRCs. -/
def campFrame (h : CampHdr) (payload : List Byte) : List Byte :=
  let v := h.slotid + h.cyc * 2 ^ 10 + h.len * 2 ^ 16 + bit h.sync * 2 ^ 24 + bit h.startup * 2 ^ 25 + bit h.leap * 2 ^ 26 +
    bit h.nul * 2 ^ 27 + h.node * 2 ^ 28 + h.tbl * 2 ^ 32
  let h6 := toBytes v 6
  let d := h6 ++ toBytes (hcrc h6) 2 ++ payload
  d ++ toBytes (crc32c d).toNat 4

/-- The header that received bytes spell. -/
def hdrOf (bs : List Byte) : CampHdr :=
  let v := ofBytes (bs.take 8)
  ⟨bitsOf v 0 10, bitsOf v 10 6, bitsOf v 16 8, v.testBit 24, v.testBit 25, v.testBit 26, v.testBit 27, bitsOf v 28 4, bitsOf v 32 1⟩

/-- Checks 2 and 3 of R332 on received bytes: 0 good, 2 header, 3 frame CRC. -/
def frameCheck (bs : List Byte) : Nat :=
  let v := ofBytes (bs.take 8)
  if bs.length < 8 || hcrc bs != bitsOf v 48 16 || bitsOf v 33 15 != 0 then 2
  else if bs.length != bitsOf v 16 8 + 12 ||
      toBytes (crc32c (bs.take (bs.length - 4))).toNat 4 != bs.drop (bs.length - 4) then 3
  else 0

/-! ### Fault-tolerant average (R347) -/

/-- Inserts a value with its index in ascending order. -/
def insVal (x : Int × Nat) : List (Int × Nat) → List (Int × Nat)
  | [] => [x]
  | y :: t => if x.1 ≤ y.1 then x :: y :: t else y :: insVal x t

/-- The values that enter the mean, with their indices (R347). -/
def ftaKept (l : List Int) : List (Int × Nat) :=
  let s := l.zipIdx.foldr insVal []
  let n := l.length
  let d := if n < 3 then 0 else if n < 8 then 1 else 2
  (s.drop d).take (n - 2 * d)

/-- The mean of the kept values in units of 1/`u`, truncated toward zero; none for no value. -/
def fta (u : Nat) (l : List Int) : Option Int :=
  let k := ftaKept l
  if k.isEmpty then none else some ((k.foldl (fun (t : Int) x => t + x.1) 0 * (u : Int)).tdiv (k.length : Int))

/-! ### Corrections (R346, R348-R350, R352) -/

/-- Adds a deviation value (R346): rejected beyond 2 x OCLIM; the 8 earliest slots of the cycle stay. -/
def insDev (v : DevVal) : List DevVal → List DevVal
  | [] => [v]
  | x :: t => if v.pos < x.pos then v :: x :: t else x :: insDev v t

/-- The synchronisation with a value added. -/
def Sync.add (y : Sync) (v : DevVal) : Sync := { y with vals := (insDev v y.vals).take 8 }

/-- RCLIM in ppm: 0 acts as 1, above 1,000 as 1,000. -/
def State.rclim (s : State) : Nat := max 1 (min 1000 (s.fld CTB_SYNCCFG CTB_SYNCCFG_RCLIM))

/-- The limit of rho in 1/16 ns (R350). -/
def State.rhoLimit (s : State) : Int := s.rclim * s.cl * 16 / 1000000

/-- Clamps to a limit. -/
def clampTo (l x : Int) : Int := max (-l) (min l x)

/-- What an offset-correction segment computes (R348, R350): the new synchronisation, and whether OC and rho were clamped. -/
structure Correction where
  sync : Sync
  ocSat : Bool
  rcSat : Bool
deriving DecidableEq, Repr

/-- The corrections at the offset-correction segment of a cycle of count `c`; `self` is this node's own identifier, whose
difference is 0 (R350). -/
def State.correct (s : State) (y : Sync) (c : Nat) (self : Option Nat) : Correction :=
  let raw := (fta 1 (y.vals.map (·.d))).getD 0
  let oc := clampTo s.oclim raw
  let ocSat := raw != oc
  let deltas := y.vals.filterMap fun v =>
    if self = some v.node then (if y.prev.any fun p => p.node == v.node then some 0 else none)
    else (y.prev.find? fun p => p.node == v.node).map fun p => v.d - p.d + y.oc
  let (rho, rcSat) :=
    if c % 2 = 1 then
      match fta 16 deltas with
      | none => (y.rho, false)
      | some f =>
        let r := y.rho + f.tdiv (2 ^ s.fld CTB_SYNCCFG CTB_SYNCCFG_RCSHIFT)
        let k := clampTo s.rhoLimit r
        (k, r != k)
    else (y.rho, false)
  let others := y.vals.any fun v => self != some v.node
  ⟨{ y with
      rho := rho, ocPrev := y.oc, oc := oc
      lossN := if others then 0 else y.lossN + 1
      lossO := if ocSat then y.lossO + 1 else 0
      lossR := if c % 2 = 0 then y.lossR else if rcSat then y.lossR + 1 else 0 }, ocSat, rcSat⟩

/-- Whether a condition of R352 has lasted LOSTCYC cycles. -/
def State.syncLost (s : State) (y : Sync) : Bool :=
  let n := max 1 (s.fld CTB_SYNCCFG CTB_SYNCCFG_LOSTCYC)
  Nat.ble n y.lossN || Nat.ble n y.lossO || Nat.ble n y.lossR

/-- The position in a cycle (CTB_CYCPOS) after `n` microticks of a cycle with rate correction `rho`: macrotick and microtick. -/
def State.cyclePos (s : State) (n : Nat) (rho : Int) : Nat × Nat :=
  let len : Int := s.cl / 8 * 128 + rho
  let mt := min (s.cyclen - 1) (n * 128 * s.cyclen / len.toNat)
  let st := (mt * len.toNat) / (128 * max 1 s.cyclen)
  (mt, n - st)

end Sys2Proof.Machine
end

