-- ==== Sys2Proof/Machine/Belfry.lean ====
section
/-! DEFINITION. The Belfry star: enabling, relaying and its guardian windows, isolation, leap locks, switch, synchronisation,
partial reset, registers (R356-R370).
Choices of the model: log entries 74, 75, 107. -/

set_option autoImplicit false

namespace Sys2Proof.Machine

open Sys2Proof

/-- The state with the star's record changed. -/
def State.updStar (s : State) (f : Star → Star) : State := { s with star := f s.star }

/-- The star's state (R359): 0 OFF, 1 OPEN, 2 GUARD. -/
def State.bfy (s : State) : Nat := s.fld BFY_STAT BFY_STAT_STATE

/-- The star's active table. -/
def State.bfyTbl (s : State) : Nat := s.fld BFY_STAT BFY_STAT_TBL

/-- The star's cycle count. -/
def State.bfyCyc (s : State) : Nat := s.fld BFY_STAT BFY_STAT_CYC

/-- A change of state with its doorbell (R359). -/
def State.enterBfy (s : State) (st : Nat) : State := (s.setFld BFY_STAT BFY_STAT_STATE st).ringBfy

/-- Whether `a` is word 3 of a star table entry: its lock state (R366). -/
def lockWord (a : Nat) : Bool := Nat.ble 0x600D8000 a && Nat.blt a 0x600E0000 && a % 16 == 12

/-- Every leap lock is freed. -/
def State.freeLocks (s : State) : State := s.resetRegs lockWord

/-- The star stops: relays end with idle, an armed switch is cancelled, the state is OFF. -/
def State.stopStar (s : State) : State :=
  let s := s.disarmStar
  let s := s.updStar fun x => { x with relayA := none, relayB := none, started := 0, viol := 0, good := [], used := [], valued := [] }
  if s.bfy = 0 then s else s.enterBfy 0

/-- ENA or ENB has become 1 in OFF (R359, R367): the TBLSEL table is validated; OPEN with rho and OC 0 and every leap entry
unlocked, or CFGERR. -/
def State.enableStar (s : State) : State :=
  let t := s.fld BFY_CTL BFY_CTL_TBLSEL
  let r := s.validateStar t
  let s := s.updStar fun x => { x with valid := setValid x.valid t r.isNone }
  match r with
  | some v => s.starRefused t v
  | none =>
    let s := ((s.setFld BFY_STAT BFY_STAT_TBL t).setFlag BFY_STAT BFY_STAT_CFGERR false).freeLocks
    (s.updStar fun x => { x with sync := Sync.init, relayA := none, relayB := none }).enterBfy 1

/-- The registers that a star partial reset clears (R370). -/
def bfyCounter (a : Nat) : Bool :=
  a == BFY_STAT || a == BFY_ISO || a == BFY_OFSCORR || a == BFY_RATECORR || a == BFY_LOSS || a == BFY_ADOPT || a == BFY_SWITCH_CNT ||
    (Nat.ble 0x600D0100 a && Nat.blt a 0x600D0320 && a % 32 != 0 && a % 32 != 28)

/-- The star partial reset (R370): configuration, tables and their validation status are kept; the alignment flags show the
receivers. -/
def bfyReset (s : State) : State :=
  let s := (s.stopStar.freeLocks).resetRegs bfyCounter
  let s := (List.range 17).foldl (fun (s : State) b => s.setReg (BFY_BR_STAT b) (s.reg (BFY_BR_STAT b) &&& 0x200)) s
  let s := (s.setFlag BFY_CTL BFY_CTL_ENA false).setFlag BFY_CTL BFY_CTL_ENB false
  s.updStar fun x => { Star.init with valid := x.valid }

/-- A write of BFY_CTL (R359, R369): ENA and ENB while the node is in CONFIG, TBLSEL while the star is OFF, BLKRST. -/
def bfyCtlWrite (v : Word) (s : State) : State :=
  if v.getLsbD 3 then (bfyReset s).answer .ok
  else
    let a := BFY_CTL
    let old := s.reg a
    let okEn := s.fld CTB_STAT CTB_STAT_STATE == 0 || (old ^^^ v) &&& 3 == 0
    let okTbl := s.bfy == 0 || (old ^^^ v) &&& 16 == 0
    let s := s.setFlag a BFY_CTL_SWFOLLOW (v.getLsbD 2)
    let s := if s.bfy == 0 then s.setFlag a BFY_CTL_TBLSEL (v.getLsbD 4) else s
    let s := if okEn then s.setReg a ((s.reg a &&& ~~~(3 : Word)) ||| (v &&& 3)) else s
    let new := s.reg a
    let s := if s.bfy = 0 && (new &&& ~~~old &&& 3) != 0 then s.enableStar
      else if (new &&& 3) == 0 then s.stopStar
      else s
    s.answer (if okEn && okTbl then .ok else .busError)

/-- STAR_ENABLE (R359): a write of BFY_CTL with the channels of `v` enabled. -/
def execStarEnable (i : Init) (v : Word) (s : State) : Host.Outcome State Fault Refusal :=
  .next (s.gate i BFY_CTL fun (s : State) => bfyCtlWrite ((s.reg BFY_CTL &&& 4) ||| (v &&& 0x17)) s)

/-- STAR_DISABLE (R359): a write of BFY_CTL with ENA and ENB 0. -/
def execStarDisable (i : Init) (s : State) : Host.Outcome State Fault Refusal :=
  .next (s.gate i BFY_CTL fun (s : State) => bfyCtlWrite (s.reg BFY_CTL &&& 0x14) s)

/-- BFY_BLKRST (R370). -/
def execBfyBlkrst (i : Init) (s : State) : Host.Outcome State Fault Refusal :=
  .next (s.gate i BFY_CTL (bfyCtlWrite 8))

/-! ### Relay and guardian windows (R356-R362, R364, R365) -/

/-- The relay of channel `c` (0 A, 1 B). -/
def State.relay (s : State) (c : Nat) : Option Relay := if c = 0 then s.star.relayA else s.star.relayB

/-- The state with the relay of channel `c` replaced. -/
def State.setRelay (s : State) (c : Nat) (r : Option Relay) : State :=
  s.updStar fun x => if c = 0 then { x with relayA := r } else { x with relayB := r }

/-- Whether branch `b` is isolated. -/
def State.isolated (s : State) (b : Nat) : Bool := s.flag (BFY_BR_STAT b) BFY_BR_STAT_ISO

/-- The branch that leap entry `k` of table `t` is locked to on channel `c`. -/
def State.lockOf (s : State) (t k c : Nat) : Option Nat :=
  let w := (s.reg (BFY_TBL t k 3)).toNat
  if w.testBit (8 * c + 5) then some (bitsOf w (8 * c) 5) else none

/-- The state with the lock of entry `k` on channel `c` set, its silent windows `sil`. -/
def State.setLock (s : State) (t k c : Nat) (b : Option Nat) (sil : Nat) : State :=
  let a := BFY_TBL t k 3
  let v := match b with | some b => b + 32 | none => 0
  s.setReg a ((Fld.mk (16 + 8 * c) 8).put ((Fld.mk (8 * c) 6).put (s.reg a) v) sil)

/-- Whether the window of entry `e` in a cycle of count `cyc` is open at `pos` ns after its start: from TOL microticks before the
slot start to the slot end (R361). -/
def State.windowOpen (s : State) (e : SchedEntry) (cyc : Nat) (pos : Int) : Bool :=
  let m : Int := s.mtlen * 8
  e.applies cyc && decide (e.start * m - s.fld BFY_GUARD BFY_GUARD_TOL * 8 ≤ pos) && decide (pos < (e.start + e.dur) * m)

/-- The open windows at `pos`, of this cycle or of the one about to start, by entry. -/
def State.openWindows (s : State) (pos : Int) : List Nat :=
  (List.range 1024).filter fun k =>
    let e := s.starEntry s.bfyTbl k
    s.windowOpen e s.bfyCyc pos || s.windowOpen e ((s.bfyCyc + 1) % 64) (pos - s.cl)

/-- The window in which a start on branch `b` of channel `c` may be relayed: one that the branch owns, or an unlocked leap
window (R361, R362, R364). -/
def State.ownWindow (s : State) (b c : Nat) (pos : Int) : Option Nat :=
  (s.openWindows pos).find? fun k =>
    let e := s.starEntry s.bfyTbl k
    if e.type = 1 then e.owner c == b
    else match s.lockOf s.bfyTbl k c with
      | some o => o == b
      | none => true

/-- A start sequence on branch `b` of channel `c`, `pos` ns into the star's cycle (R358, R362-R364). Starts of one microtick are
sent in ascending branch number. -/
def starStart (c b : Nat) (pos : Int) (s : State) : State :=
  if s.bfy = 0 || !s.onChannel b c then s
  else
    let s := s.updStar fun x => { x with started := x.started ||| BitVec.ofNat 17 (2 ^ b) }
    if s.isolated b then s.countSat (BFY_BR_CUT b) 1
    else if s.bfy = 1 then
      if (s.relay c).isSome then s.countSat (BFY_BR_BLOCK b) 1
      else (s.setRelay c (some ⟨b, none⟩)).count (BFY_BR_RELAY b) 1
    else
      match s.ownWindow b c pos with
      | none =>
        (s.updStar fun x => { x with viol := x.viol ||| BitVec.ofNat 17 (2 ^ b) }).countSat (BFY_BR_CUT b) 1
      | some k =>
        let leap := (s.starEntry s.bfyTbl k).type == 2 && (s.lockOf s.bfyTbl k c).isNone
        if (s.relay c).isSome || (leap && s.star.used.contains (k, c)) then s.countSat (BFY_BR_BLOCK b) 1
        else
          let s := if leap then s.updStar fun x => { x with used := (k, c) :: x.used } else s
          (s.setRelay c (some ⟨b, some k⟩)).count (BFY_BR_RELAY b) 1

/-- STAR_START_SEQUENCE (R362). -/
def execStarStartSequence (c : Fin 2) (b : Fin 17) (pos : Int) (s : State) : Host.Outcome State Fault Refusal :=
  .next (starStart c b pos s)

/-- An OPEN star meets a relayed frame that was good (R360): it adopts the timing of a sync frame that its table owns to the
branch; `ago` ns have passed since the frame's first bit. -/
def State.starAdopt (s : State) (b c : Nat) (bs : List Byte) (ago : Int) : State :=
  let h := hdrOf bs
  let e? := ((List.range 1024).map (s.starEntry s.bfyTbl)).find? fun e =>
    e.type == 1 && e.slotid == h.slotid && e.applies h.cyc && e.owner c == b
  match h.sync, e? with
  | true, some e =>
    let dly : Int := s.fld (BFY_BR_CFG b) BFY_BR_CFG_DLY
    let back := (ago + (e.start * s.mtlen + s.apo : Nat) * 8 + dly) / 8
    let s := (s.disarmStar.setFld BFY_STAT BFY_STAT_CYC h.cyc).count BFY_ADOPT 1
    let s := s.updStar fun x => { x with
      start := (s.ticks - back).toNat, cycnum := h.cyc, swEff := none, viol := 0, good := [], used := [], valued := []
      sync := { x.sync with vals := [], prev := [] } }
    s.enterBfy 2
  | _, _ => s

/-- A deviation value of the star (R360): one per frame, the copy that starts first; one beyond 2 x OCLIM is discarded. -/
def State.starValue (s : State) (b k : Nat) (bs : List Byte) (pos : Int) : State :=
  let h := hdrOf bs
  let e := s.starEntry s.bfyTbl k
  let d := pos - ((e.start * s.mtlen + s.apo : Nat) * 8 + s.fld (BFY_BR_CFG b) BFY_BR_CFG_DLY)
  if !h.sync || e.slotid != h.slotid || h.cyc != s.bfyCyc || s.star.valued.contains k then s
  else
    let s := s.updStar fun x => { x with valued := k :: x.valued }
    if 2 * s.oclim < d.natAbs then s else s.updStar fun x => { x with sync := x.sync.add ⟨h.node, d, e.start⟩ }

/-- A good frame relayed in leap entry `k` (R364): it locks an unlocked entry, or shows that the locking branch is present. -/
def State.starLeap (s : State) (b k c : Nat) : State :=
  let s := s.updStar fun x => { x with good := (k, c) :: x.good }
  match s.lockOf s.bfyTbl k c with
  | none => (s.setLock s.bfyTbl k c (some b) 0).ringBfy
  | some _ => s

/-- The relay of channel `c` ends (R358, R360, R363, R364): the bytes relayed, and the ns since the cycle start of the first and the
last bit. -/
def starRelayEnd (c : Nat) (how : RelayEnd) (bs : List Byte) (start stop : Int) (s : State) : State :=
  match s.relay c with
  | none => s
  | some r =>
    let b := r.branch
    let s := s.setRelay c none
    match how with
    | .codeError => s.countSat (BFY_BR_BRCODE b) 1
    | .tooLong => s.countSat (BFY_BR_TRUNC b) 1
    | .windowEnd =>
      (s.updStar fun x => { x with viol := x.viol ||| BitVec.ofNat 17 (2 ^ b) }).countSat (BFY_BR_TRUNC b) 1
    | .endSeq =>
      if frameCheck bs != 0 then s
      else if s.bfy = 1 then s.starAdopt b c bs (stop - start)
      else match r.entry with
        | none => s
        | some k => if (s.starEntry s.bfyTbl k).type = 2 then s.starLeap b k c else s.starValue b k bs start

/-- STAR_RELAY_END (R358). -/
def execStarRelayEnd (c : Fin 2) (how : RelayEnd) (bs : List Byte) (start stop : Int) (s : State) :
    Host.Outcome State Fault Refusal := .next (starRelayEnd c how bs start stop s)

/-! ### Cycle end (R363, R364, R368) -/

/-- Branch `b` is released (R363). -/
def State.releaseBranch (s : State) (b : Nat) : State :=
  if s.isolated b then
    let s := s.setReg (BFY_BR_STAT b) (s.reg (BFY_BR_STAT b) &&& 0x200)
    (s.setReg BFY_ISO (s.reg BFY_ISO &&& ~~~word (2 ^ b))).ringBfy
  else s

/-- Violation and quiet counts of branch `b` at a cycle end (R363). -/
def State.branchCycle (s : State) (b : Nat) : State :=
  let a := BFY_BR_STAT b
  let st := s.star.started.getLsbD b
  if s.isolated b then
    if st then s.setFld a BFY_BR_STAT_QUIET 0
    else
      let q := min 15 (s.fld a BFY_BR_STAT_QUIET + 1)
      let s := s.setFld a BFY_BR_STAT_QUIET q
      if max 1 (s.fld BFY_GUARD BFY_GUARD_ISOQ) ≤ q then s.releaseBranch b else s
  else if s.bfy != 2 then s
  else if s.star.viol.getLsbD b then
    let n := min 15 (s.fld a BFY_BR_STAT_VIOL + 1)
    let s := s.setFld a BFY_BR_STAT_VIOL n
    if max 1 (s.fld BFY_GUARD BFY_GUARD_N) ≤ n then
      let s := ((s.setFlag a BFY_BR_STAT_ISO true).setFld a BFY_BR_STAT_QUIET 0).setReg BFY_ISO (s.reg BFY_ISO ||| word (2 ^ b))
      (s.countSat (BFY_BR_ISOCNT b) 1).ringBfy
    else s
  else if st then s.setFld a BFY_BR_STAT_VIOL 0
  else s

/-- The lock of leap entry `k` on channel `c` after a cycle: freed at the M-th window without a good frame of its branch. -/
def State.lockCycle (s : State) (k c : Nat) : State :=
  let t := s.bfyTbl
  match s.lockOf t k c with
  | none => s
  | some b =>
    if s.star.good.contains (k, c) then s.setLock t k c (some b) 0
    else
      let sil := bitsOf (s.reg (BFY_TBL t k 3)).toNat (16 + 8 * c) 8 + 1
      if max 1 (s.fld BFY_GUARD BFY_GUARD_M) ≤ sil then (s.setLock t k c none 0).ringBfy else s.setLock t k c (some b) sil

/-- The armed star switch takes effect (R323, R368): a lock survives where the new table has the same leap window. -/
def State.starSwitch (s : State) : State :=
  let t := s.star.arm.1
  let old := s.bfyTbl
  let locks := (List.range 1024).filterMap fun k =>
    let e := s.starEntry old k
    if e.type = 2 && e.w3 != 0 then some e else none
  let s := s.freeLocks
  let s := (List.range 1024).foldl (fun (s : State) j =>
    let e := s.starEntry t j
    match e.type == 2, locks.find? fun l => l.slotid == e.slotid && l.start == e.start && l.dur == e.dur with
    | true, some l => s.setReg (BFY_TBL t j 3) (word l.w3)
    | _, _ => s) s
  let s := s.disarmStar
  let s := ((s.setFld BFY_STAT BFY_STAT_TBL t).setFlag BFY_SWITCH BFY_SWITCH_DONE true).count BFY_SWITCH_CNT 1
  (s.updStar fun x => { x with swEff := some x.cycnum }).ringBfy

/-- A star cycle ends; in OPEN a nominal cycle, which counts quiet branches only. -/
def starCycleEnd (s : State) : State :=
  if s.bfy = 0 then s
  else
    let s := (List.range 17).foldl (fun (s : State) b => s.branchCycle b) s
    let s := if s.bfy = 2 then
        (List.range 1024).foldl (fun (s : State) k =>
          if (s.starEntry s.bfyTbl k).type = 2 then (s.lockCycle k 0).lockCycle k 1 else s) s
      else s
    let s := s.updStar fun x => { x with started := 0, viol := 0, good := [], used := [], valued := [] }
    if s.bfy = 2 then
      let s := s.setFld BFY_STAT BFY_STAT_CYC ((s.bfyCyc + 1) % 64)
      let s := s.updStar fun x => { x with
        cycnum := x.cycnum + 1, start := s.ticks, sync := { x.sync with prev := x.sync.vals, vals := [] } }
      if s.flag BFY_STAT BFY_STAT_ARMED && s.star.arm.2 == s.bfyCyc then s.starSwitch else s
    else s

/-- STAR_CYCLE_END (R363). -/
def execStarCycleEnd (s : State) : Host.Outcome State Fault Refusal := .next (starCycleEnd s)

/-- The star's offset and rate correction, and its loss of synchronisation (R352, R359, R360). -/
def starOffsetCorrection (s : State) : State :=
  if s.bfy = 2 then
    let r := s.correct s.star.sync s.bfyCyc none
    let s := (s.setReg BFY_OFSCORR (wordOfInt r.sync.oc)).setReg BFY_RATECORR (wordOfInt r.sync.rho)
    if s.syncLost r.sync then
      let s := s.updStar fun x => { x with sync := { r.sync with lossN := 0, lossO := 0, lossR := 0 } }
      (s.countSat BFY_LOSS 1).enterBfy 1
    else s.updStar fun x => { x with sync := r.sync }
  else s

/-- STAR_OFFSET_CORRECTION (R360). -/
def execStarOffsetCorrection (s : State) : Host.Outcome State Fault Refusal := .next (starOffsetCorrection s)

/-! ### Registers (R363, R368, R369) -/

/-- A write of BFY_REL: the branches whose bit is 1 are released. -/
def bfyRelWrite (v : Word) (s : State) : State :=
  ((List.range 17).foldl (fun (s : State) b => if v.getLsbD b then s.releaseBranch b else s) s).answer .ok

/-- BRANCH_RELEASE (R363). -/
def execBranchRelease (i : Init) (v : Word) (s : State) : Host.Outcome State Fault Refusal :=
  .next (s.gate i BFY_REL (bfyRelWrite v))

/-- A write of BFY_SWITCH (R368): as CTB_SWITCH. -/
def bfySwitchWrite (v : Word) (s : State) : State :=
  let a := BFY_SWITCH
  let s := s.setReg a (s.reg a &&& ~~~(v &&& 0xC0000))
  let s := if v.getLsbD 17 then s.cancelStar else s
  (if v.getLsbD 16 then s.armStar (v.toNat % 2) (bitsOf v.toNat 8 6)
   else s.setReg a ((s.reg a &&& ~~~(0x3F01 : Word)) ||| (v &&& 0x3F01))).answer .ok

/-- STAR_SWITCH_ARM (R368): a write of BFY_SWITCH with ARM. -/
def execStarSwitchArm (i : Init) (v : Word) (s : State) : Host.Outcome State Fault Refusal :=
  .next (s.gate i BFY_SWITCH (bfySwitchWrite (v ||| 0x10000)))

/-- STAR_SWITCH_CANCEL (R368): a write of BFY_SWITCH with CANCEL, its other fields as they stand. -/
def execStarSwitchCancel (i : Init) (s : State) : Host.Outcome State Fault Refusal :=
  .next (s.gate i BFY_SWITCH fun (s : State) => bfySwitchWrite ((s.reg BFY_SWITCH &&& 0x3F01) ||| 0x20000) s)

/-- Whether star table `t` is quiescent (R368). -/
def State.starQuiet (s : State) (t : Nat) : Bool :=
  s.bfy == 0 || !(s.bfyTbl == t || ((s.flag BFY_STAT BFY_STAT_ARMED || !s.star.jobs.isEmpty) && s.star.arm.1 == t))

/-- A write in the BFY block. -/
def bfyWrite (a : Nat) (v : Word) (s : State) : State :=
  if Nat.ble 0x600D8000 a then
    let t := (a - 0x600D8000) / 0x4000
    if a % 16 = 12 then s.answer .ok
    else if s.starQuiet t then ((s.setReg a v).updStar fun x => { x with valid := setValid x.valid t false }).answer .ok
    else s.answer (if v = s.reg a then .ok else .busError)
  else if a = BFY_CTL then bfyCtlWrite v s
  else if a = BFY_SWITCH then bfySwitchWrite v s
  else if a = BFY_REL then bfyRelWrite v s
  else if a = BFY_EVT then s.plainWrite true a (s.keepFld a BFY_EVT_DBAGENT (fun n => Nat.ble 36 n) v)
  else if a = BFY_PORTMAP then
    s.plainWrite (s.bfy == 0) a ((List.range 16).foldl (fun (v : Word) i => s.keepFld a ⟨2 * i, 2⟩ (fun n => n == 3) v) v)
  else s.plainWrite (s.bfy == 0) a v

/-- A read in the BFY block: the cycle position and the channel of a branch are computed. -/
def bfyRead (events : Word) (a : Nat) (s : State) : State :=
  if a = BFY_CYCPOS then
    if s.bfy = 2 then
      let (m, u) := s.cyclePos (s.ticks - s.star.start) s.star.sync.rho
      s.answerWord (word (m + u % 2048 * 2 ^ 16 + 2 ^ 31))
    else s.answerWord 0
  else if Nat.ble (BFY_BR_STAT 0) a && Nat.ble a (BFY_BR_STAT 16) && a % 32 == 28 then
    let b := (a - BFY_BR_STAT 0) / 32
    let ch := if b = 16 then bit (s.onChannel 16 0) + 2 * bit (s.onChannel 16 1) else s.branchCh b
    s.answerWord (BFY_BR_STAT_CH.put (s.reg a) ch)
  else s.plainRead events a

end Sys2Proof.Machine
end

