-- ==== Sys2Proof/Machine/Bridge.lean ====
section
/-! DEFINITION. The backplane bridge (R489-R513): outbound accesses and their far cycles, locked sequences, prefetch, inbound
accesses, system controller, polls, interrupt lines, logs, partial reset.
Choices of the model: log entries 82, 83, 84, 85, 107. -/

set_option autoImplicit false

namespace Sys2Proof.Machine

open Sys2Proof

/-- The state with the hidden state of the bridge changed by `f`. -/
def State.updBb (s : State) (f : Bridge → Bridge) : State := { s with bridge := f s.bridge }

/-- The active profile (R489): 0 P0, 1 P1, 2 P2. -/
def State.bbProf (s : State) : Nat := s.fld BPB_CTL BPB_CTL_PROF

/-- Whether the bridge is enabled. -/
def State.bbEn (s : State) : Bool := s.flag BPB_CTL BPB_CTL_EN

/-- Whether the bridge owns the bus: as obtained on P0; on P1 and P2 always except while it yields (R495). -/
def State.bbOwn (s : State) : Bool :=
  if s.bbProf = 0 then s.flag BPB_STAT BPB_STAT_OWN else s.bbEn && !s.flag BPB_STAT BPB_STAT_YLD && !s.bridge.sysIn

/-- Whether a far cycle may start: enabled, bus owned, no SYSRESET (R495, R504, BPB_CTL.EN). -/
def State.bbMayRun (s : State) : Bool := s.bbEn && s.bbOwn && !s.bridge.sysIn

/-! ### Outbound windows (R492, R493) -/

/-- The size of outbound window `w` in bytes, its fabric base, its far base with bits below SIZE taken as 0. -/
def State.obSize (s : State) (w : Nat) : Nat := 2 ^ s.fld (BPB_OB_ATTR w) BPB_OB_ATTR_SIZE
def State.obBase (s : State) (w : Nat) : Nat := s.fld (BPB_OB_BASE w) BPB_OB_BASE_BASE * 0x10000
def State.obFar (s : State) (w : Nat) : Nat := (s.reg (BPB_OB_FAR w)).toNat / s.obSize w * s.obSize w

/-- The lowest-numbered enabled window that decodes `a`. -/
def State.obDecode (s : State) (a : Nat) : Option Nat :=
  (List.range 16).find? fun w =>
    s.flag (BPB_OB_BASE w) BPB_OB_BASE_EN && Nat.ble (s.obBase w) a && Nat.blt a (s.obBase w + s.obSize w)

/-- The swap unit of a SWAP code: 1, 2 or 4 bytes. -/
def swapUnit (code : Nat) : Nat := if code = 1 then 2 else if code = 2 then 4 else 1

/-- Bytes with each group of `u` reversed. -/
def swapBytes (u : Nat) (l : List Byte) : List Byte :=
  (List.range l.length).map fun j => l.getD (j / u * u + (u - 1 - j % u)) 0

/-- Where `n` bytes at `a` lie on the other side of swap unit `u` (R493): below a unit the address moves within it. -/
def swapAddr (u a n : Nat) : Nat := if n < u then Nat.xor a (u - n) else a

/-- The largest naturally aligned single cycles of at most `m` bytes that cover `n` bytes from `a`, ascending. -/
def singles (m : Nat) : Nat → Nat → Nat → List (Nat × Nat)
  | 0, _, _ => []
  | f + 1, a, n =>
    if n = 0 then []
    else
      let k := if 4 ≤ m && a % 4 = 0 && 4 ≤ n then 4 else if 2 ≤ m && a % 2 = 0 && 2 ≤ n then 2 else 1
      (a, k) :: singles m f (a + k) (n - k)

/-- The far cycles of `n` bytes at fabric address `a` through window `w` (R493): `d` the data of a write. -/
def State.farCycles (s : State) (w a n : Nat) (d : Option (List Byte)) : List FarCyc :=
  let at' := BPB_OB_ATTR w
  let am := s.fld at' BPB_OB_ATTR_AM
  let dw := s.fld at' BPB_OB_ATTR_DW
  let blk := if s.bbProf = 0 && n = 32 && a % 32 = 0 then s.fld at' BPB_OB_ATTR_BLK else 0
  let u := swapUnit (s.fld at' BPB_OB_ATTR_SWAP)
  let parts : List (Nat × Nat) :=
    if blk = 1 then (if dw = 2 then (List.range 8).map fun j => (a + 4 * j, 4) else (List.range 16).map fun j => (a + 2 * j, 2))
    else if blk = 2 then (List.range 4).map fun j => (a + 8 * j, 8)
    else singles (if s.bbProf = 1 then 1 else 2 ^ dw) n a n
  let am' := if blk = 1 then am / 4 * 4 + 3 else if blk = 2 then am / 4 * 4 else am
  parts.map fun (x, k) =>
    ⟨swapAddr u (s.obFar w + (x - s.obBase w)) k, k, am', d.map fun l => swapBytes (min u k) ((l.drop (x - a)).take k)⟩

/-! ### Logs (R508, R509) -/

/-- Unread entries of a log with indices WR and RD. -/
def State.logLevel (s : State) (wr rd : Nat) : Nat := ((s.reg wr).toNat + 32 - (s.reg rd).toNat) % 32

/-- An entry of four words is logged in slot WR mod 16 at `base`, or dropped and counted at a full log (R508). -/
def State.logEntry (s : State) (wr rd lost base : Nat) (w0 w1 w2 w3 : Word) : State :=
  if s.logLevel wr rd = 16 then s.countSat lost 1
  else
    let b := base + 16 * ((s.reg wr).toNat % 16)
    ((((s.setReg b w0).setReg (b + 4) w1).setReg (b + 8) w2).setReg (b + 12) w3).setReg wr
      (word (((s.reg wr).toNat + 1) % 32))

/-- An error-log entry (R509). -/
def State.bbLog (s : State) (win rpn bytes cause : Nat) (posted wr inb : Bool) (faddr data : Nat) : State :=
  s.logEntry BPB_ELOG_WR BPB_ELOG_RD BPB_ELOG_LOST (BPB_ELOG 0 0) (word faddr) (word data)
    (word (win % 16 + rpn % 64 * 2 ^ 4 + bytes % 64 * 2 ^ 10 + cause % 16 * 2 ^ 16 + bit posted * 2 ^ 20 + bit wr * 2 ^ 21 +
      bit inb * 2 ^ 22)) (s.t32 0)

/-- A vector-log entry (R509). -/
def State.bbVector (s : State) (v line : Nat) (err : Bool) : State :=
  s.logEntry BPB_VLOG_WR BPB_VLOG_RD BPB_VLOG_LOST (BPB_VLOG 0 0) (word v)
    (word (line % 8 + bit err * 8 + s.fld BPB_IRQCTL BPB_IRQCTL_IACKW * 16)) (s.t32 0) 0

/-- The error doorbell and the vector doorbell of BPB_EVT. -/
def State.ringEdb (s : State) : State :=
  s.ringIf (s.flag BPB_EVT BPB_EVT_EDBEN) (s.fld BPB_EVT BPB_EVT_EAGENT) (s.fld BPB_EVT BPB_EVT_EDB)
def State.ringVdb (s : State) : State :=
  s.ringIf (s.flag BPB_EVT BPB_EVT_VDBEN) (s.fld BPB_EVT BPB_EVT_VAGENT) (s.fld BPB_EVT BPB_EVT_VDB)

/-- ARM[l] clears (R506). -/
def State.disarm (s : State) (l : Nat) : State := s.setReg BPB_IRQCTL (s.reg BPB_IRQCTL &&& ~~~word (2 ^ (8 + l)))

/-- The first data word of a write; 0 for a read. -/
def firstWord (op : Access) : Nat :=
  match op with
  | .read _ _ => 0
  | .write _ d => ofBytes (d.take 4)

/-! ### Completion to the initiator (R33, R37, R496) -/

/-- The end of a non-posted access: it completes the transaction of its initiator that waits for it, else it is the answer of
the access; a failed access of the PCIe host is handled as R37. -/
def State.bbDeliver (s : State) (i : Init) (op : Access) (r : Resp) : State :=
  let s := if i = .pcie && r == .busError then s.hostFail op.addr else s
  match (List.range s.outst.length).find? fun k =>
      match s.outst[k]? with
      | some t => t.init == i && t.op == op && t.done == some .idle
      | none => false with
  | some k =>
    match s.outst[k]? with
    | some t => { s with outst := s.outst.set k { t with done := some r } }
    | none => s
  | none => s.answer r

/-! ### Prefetch blocks (R497) -/

/-- The block that window `w` holds. -/
def State.prefBlk (s : State) (w : Nat) : Option PrefBlk := Tbl.get (fun _ => none) s.bridge.pref w

/-- The state with the block of window `w` set. -/
def State.setPref (s : State) (w : Nat) (b : Option PrefBlk) : State :=
  s.updBb fun x => { x with pref := Tbl.set (fun _ => none) x.pref w b }

/-- Window `w` drops its block: counted where some byte was never returned. -/
def State.dropPref (s : State) (w : Nat) : State :=
  match s.prefBlk w with
  | none => s
  | some b =>
    let s := s.setPref w none
    if b.returned = BitVec.allOnes 32 then s else (s.countSat BPB_PFDISC 1).setReg BPB_PFADDR (word b.faddr)

/-- Bytes `o` to `o + n - 1` of a block as a mask. -/
def byteMask (o n : Nat) : BitVec 32 := BitVec.ofNat 32 ((2 ^ n - 1) * 2 ^ o)

/-- A read of `n` bytes at far address `f` that the block of window `w` serves: no more than 2 us (250 ticks) old. -/
def State.prefHit (s : State) (w f n : Nat) : Option PrefBlk :=
  match s.prefBlk w with
  | none => none
  | some b =>
    if s.flag (BPB_OB_ATTR w) BPB_OB_ATTR_PREF && Nat.ble b.faddr f && Nat.ble (f + n) (b.faddr + 32) &&
      Nat.ble (s.ticks - b.tick) 250 then some b else none

/-! ### The head of the queue -/

/-- The accesses of outbound initiators held (R494). -/
def State.bbHeld (s : State) : Nat :=
  s.bridge.queue.length + (match s.bridge.head with
    | some h => bit (h.kind == .access)
    | none => 0)

/-- The block read that a prefetching read becomes (R497): fabric address and bytes. -/
def State.bbRange (s : State) (h : BbAcc) : Nat × Nat :=
  if h.kind = .access && !h.op.isWrite && s.flag (BPB_OB_ATTR h.win) BPB_OB_ATTR_PREF && Nat.blt h.op.len 32
  then (h.op.addr / 32 * 32, 32) else (h.op.addr, h.op.len)

/-- The bytes of an IACK cycle by IACKW (R506). -/
def State.iackLen (s : State) : Nat := 2 ^ s.fld BPB_IRQCTL BPB_IRQCTL_IACKW

/-- The far cycles of an access. -/
def State.bbCycles (s : State) (h : BbAcc) : List FarCyc :=
  match h.kind with
  | .iack l => [⟨2 * l, s.iackLen, 0, none⟩]
  | _ =>
    let (a, n) := s.bbRange h
    s.farCycles h.win a n (match h.op with
      | .read _ _ => none
      | .write _ d => some d)

/-- The head's far cycles start, or go on, if they may (R495); a read after which AS stays asserted is joined by a write of the
same far address and size (R498). -/
def State.bbStart (s : State) : State :=
  if s.bbMayRun then
    match s.bridge.head, s.bridge.run with
    | some h, none =>
      let cs := s.bbCycles h
      let same := match cs.head?, s.bridge.asHeld with
        | some c, some (a, n) => h.op.isWrite && c.addr == a && c.len == n
        | _, _ => false
      s.updBb fun x => { x with run := some ⟨cs, [], false, true⟩, asHeld := if same then x.asHeld else none }
    | some _, some r => s.updBb fun x => { x with run := some { r with live := true } }
    | none, _ => s
  else s

/-- A poll ends with an error (R505): logged with cause 7 and RPN 63, PSTAT.ERR set. -/
def State.pollError (s : State) (k faddr : Nat) : State :=
  let w := s.reg (BPB_POLL k 0)
  let s := s.bbLog (bitsOf w.toNat 1 4) 63 (2 ^ bitsOf w.toNat 5 2) 7 false false false faddr 0
  let st := (s.reg (BPB_POLL k 6)).toNat
  s.setReg (BPB_POLL k 6) (word (st % 65536 + 65536))

/-- The far address that poll entry `k` reads. -/
def State.pollFar (s : State) (k : Nat) : Nat :=
  s.obFar (bitsOf (s.reg (BPB_POLL k 0)).toNat 1 4) + (s.reg (BPB_POLL k 1)).toNat

/-- Due polls of a disabled window end with cause 7 (R513). -/
def State.failPolls (s : State) : State :=
  let dead : BbKind → Bool := fun d =>
    match d with
    | .poll k => !s.flag (BPB_OB_BASE (bitsOf (s.reg (BPB_POLL k 0)).toNat 1 4)) BPB_OB_BASE_EN
    | _ => false
  let ks := s.bridge.due.filter dead
  let s := s.updBb fun x => { x with due := x.due.filter fun d => !dead d }
  ks.foldl (fun (s : State) d =>
    match d with
    | .poll k => s.pollError k (s.pollFar k)
    | _ => s) s

/-- The access of a due item. -/
def State.dueAcc (s : State) (d : BbKind) : BbAcc :=
  match d with
  | .poll k =>
    let w := (s.reg (BPB_POLL k 0)).toNat
    ⟨d, .bridge, bitsOf w 1 4, .read (s.obBase (bitsOf w 1 4) + (s.reg (BPB_POLL k 1)).toNat) (2 ^ bitsOf w 5 2), false⟩
  | .iack l => ⟨d, .bridge, 0, .read (2 * l) s.iackLen, false⟩
  | .access => ⟨d, .bridge, 0, .read 0 1, false⟩

/-- An access becomes the head; the first one of its RPN through a lock window opens a sequence (R498). -/
def State.bbTake (s : State) (h : BbAcc) : State :=
  let n := s.fld (BPB_OB_ATTR h.win) BPB_OB_ATTR_LCKN
  s.updBb fun x => { x with
    head := some h
    lock := if x.lock.isNone && h.kind == .access && n != 0 then some ⟨h.init.rpn, h.win, n, 0, h.op⟩ else x.lock }

/-- The next head, if none stands: within a locked sequence the oldest access of its RPN; else due IACK cycles and polls, then
the oldest access (R494, R498, R505, R506). Its cycles start if they may. -/
def State.bbNext (s : State) : State :=
  if s.bridge.head.isSome then s.bbStart
  else
    let s := s.failPolls
    let b := s.bridge
    match b.lock with
    | some l =>
      match b.queue.findIdx? fun q => q.init.rpn == l.rpn with
      | some k =>
        match b.queue[k]? with
        | some h => ((s.updBb fun x => { x with queue := x.queue.eraseIdx k }).bbTake h).bbStart
        | none => s
      | none => s
    | none =>
      match b.due with
      | d :: t => ((s.updBb fun x => { x with due := t }).bbTake (s.dueAcc d)).bbStart
      | [] =>
        match b.queue with
        | h :: t => ((s.updBb fun x => { x with queue := t }).bbTake h).bbStart
        | [] => s

/-- The bus is released (P0) on request or at an empty queue; on P1 and P2 the bridge yields to a hold request. No release within
a locked sequence (R495, R498). -/
def State.bbRelease (s : State) : State :=
  let b := s.bridge
  let idle := b.queue.isEmpty && b.due.isEmpty && b.head.isNone
  if b.lock.isSome then s
  else if s.bbProf = 0 then
    if !s.flag BPB_STAT BPB_STAT_OWN then s
    else if b.bclrIn || (b.reqIn && idle) then
      ((s.setFlag BPB_STAT BPB_STAT_OWN false).count BPB_YIELD 1).updBb fun x => { x with bclrIn := false, reqIn := false }
    else if !s.bbEn || (idle && !s.flag BPB_ARB BPB_ARB_REL) then s.setFlag BPB_STAT BPB_STAT_OWN false
    else s
  else if s.bbEn && b.hold && !s.flag BPB_STAT BPB_STAT_YLD then
    let s := (s.setFlag BPB_STAT BPB_STAT_YLD true).count BPB_YIELD 1
    s.updBb fun x => { x with run := x.run.map fun r => { r with live := false } }
  else s

/-- The head has ended: its locked sequence counts it, the bus is released where R495 says so, and the next head follows. -/
def State.bbAdvance (s : State) (faddr : Nat) (endLock : Bool) : State :=
  let b := s.bridge
  let lock := match b.lock, b.head with
    | some l, some h =>
      if endLock then none
      else if h.kind == .access && h.init.rpn == l.rpn then
        (if h.win = l.win then (if l.left ≤ 1 then none else some { l with left := l.left - 1, faddr := faddr, last := h.op })
         else some { l with faddr := faddr, last := h.op })
      else some l
    | l, _ => if endLock then none else l
  let s := s.updBb fun x => { x with head := none, run := none, lock := lock, asHeld := if lock.isNone then none else x.asHeld }
  s.bbRelease.bbNext.bbRelease

/-- The far address of the present cycle of the head, or of its first cycle. -/
def State.bbFaddr (s : State) : Nat :=
  match s.bridge.head with
  | none => 0
  | some h =>
    match s.bridge.run with
    | some r => ((r.left.head?).map fun c => c.addr).getD 0
    | none => (((s.bbCycles h).head?).map fun c => c.addr).getD 0

/-- The report of an access that ends with an error (R496). -/
def State.bbReport (s : State) (h : BbAcc) (cause faddr : Nat) : State :=
  match h.kind with
  | .access =>
    let s := s.bbLog h.win h.init.rpn h.op.len cause h.posted h.op.isWrite false faddr (firstWord h.op)
    if h.posted then s.ringEdb else s.bbDeliver h.init h.op .busError
  | .poll k => s.pollError k faddr
  | .iack l =>
    ((s.bbVector 0 l true).bbLog 0 63 s.iackLen 6 false false false faddr 0).disarm l

/-- The head ends with an error (R496): 1 far BERR, 2 acknowledge, 3 ownership time-out, 4 abort, 5 lock time-out. -/
def State.bbFail (s : State) (cause : Nat) : State :=
  match s.bridge.head with
  | none => s
  | some h =>
    let f := s.bbFaddr
    ((s.bbReport h cause f).updBb fun x => { x with asHeld := none }).bbAdvance f (cause == 4 || cause == 5)

/-- Whether a cycle of the head is on the bus. -/
def State.bbLive (s : State) : Bool :=
  match s.bridge.run with
  | some r => r.live
  | none => false

/-! ### Outbound accesses (R494) -/

/-- An access to the outbound range. `busError`: no right or no window; `waiting`: 64 accesses are held, nothing happens;
`ok` or data: completed at once (a posted write, a read that a prefetch block serves); `idle`: held, its completion follows. With
`force` the access joins the queue however many are held: its initiator keeps it until the bridge takes it. -/
def outboundReqWith (force : Bool) (i : Init) (op : Access) (s : State) : Resp × State :=
  if !rights i .outbound then (.busError, s)
  else
    match s.obDecode op.addr with
    | none => (.busError, s)
    | some w =>
      let f := s.obFar w + (op.addr - s.obBase w)
      match if op.isWrite then none else s.prefHit w f op.len with
      | some b =>
        let s := s.setPref w (some { b with returned := b.returned ||| byteMask (f - b.faddr) op.len })
        (.data ((b.data.drop (f - b.faddr)).take op.len), s.count BPB_OBCNT 1)
      | none =>
        if !force && Nat.ble 64 s.bbHeld then (.waiting, s)
        else
          let posted := op.isWrite && s.flag (BPB_OB_ATTR w) BPB_OB_ATTR_POST
          let s := if op.isWrite then (List.range 16).foldl (fun (s : State) w => s.dropPref w) s else s
          let s := (s.updBb fun x => { x with queue := x.queue ++ [⟨.access, i, w, op, posted⟩] }).bbNext
          (if posted then .ok else .idle, s)

/-- An access to the outbound range that waits while 64 are held. -/
def outboundReq (i : Init) (op : Access) (s : State) : Resp × State := outboundReqWith false i op s

/-- OUTBOUND_ACCESS. -/
def outboundAccess (i : Init) (op : Access) (s : State) : State :=
  if s.boot.held || s.hostClosed i op.addr then (s.answer .busError).reported i op.addr
  else
    let (r, s) := outboundReq i op (s.answer .idle)
    if r = .idle then s else (s.answer r).reported i op.addr

/-- OUTBOUND_ACCESS (R492-R494, R497). -/
def execOutboundAccess (i : Init) (op : Access) (s : State) : Host.Outcome State Fault Refusal := .next (outboundAccess i op s)

/-- BUS_ACQUIRED: the bus is obtained and the head's far cycles start (R491, R495). -/
def busAcquired (s : State) : State :=
  if s.bridge.head.isSome && s.bbEn && !s.bridge.sysIn && !s.bbLive then
    if s.bbProf = 0 then (s.setFlag BPB_STAT BPB_STAT_OWN true).bbStart else s.bbStart
  else s

/-- BUS_ACQUIRED (R495). -/
def execBusAcquired (s : State) : Host.Outcome State Fault Refusal := .next (busAcquired s)

/-- The result of a poll (R505): LAST, MATCH, ring per MODE. -/
def State.pollResult (s : State) (k v : Nat) : State :=
  let w := (s.reg (BPB_POLL k 0)).toNat
  let mask := s.reg (BPB_POLL k 2)
  let st := (s.reg (BPB_POLL k 6)).toNat
  let ran := s.bridge.polled.contains k
  let hit := word v &&& mask == s.reg (BPB_POLL k 3) &&& mask
  let rings :=
    if bitsOf w 7 1 = 0 then !hit && (!ran || bitsOf st 17 1 == 1)
    else ran && word v &&& mask != s.reg (BPB_POLL k 5) &&& mask
  let s := s.setReg (BPB_POLL k 5) (word v)
  let s := s.setReg (BPB_POLL k 6) (word ((st % 65536 + bit rings) % 65536 + bit hit * 2 ^ 17))
  let s := s.updBb fun x => { x with polled := if ran then x.polled else x.polled ++ [k] }
  s.ringIf rings (bitsOf w 8 6) (bitsOf w 14 5)

/-- The head has received its last far acknowledge with data `got` in fabric order. -/
def State.bbDone (s : State) (h : BbAcc) (got : List Byte) (faddr : Nat) : State :=
  match h.kind with
  | .poll k => (s.pollResult k (ofBytes got)).bbAdvance faddr false
  | .iack l => (((s.bbVector (ofBytes got) l false).ringVdb).disarm l).bbAdvance faddr false
  | .access =>
    let s := s.count BPB_OBCNT 1
    if h.op.isWrite then
      ((if h.posted then s else s.bbDeliver h.init h.op .ok).updBb fun x => { x with asHeld := none }).bbAdvance faddr false
    else
      let (a, n) := s.bbRange h
      let o := h.op.addr - a
      let s := if n = h.op.len then s
        else (s.dropPref h.win).setPref h.win
          (some ⟨s.obFar h.win + (a - s.obBase h.win), got, byteMask o h.op.len, s.ticks⟩)
      let s := s.updBb fun x => { x with asHeld := if s.bbProf = 0 && x.lock.isSome then some (faddr, h.op.len) else none }
      (s.bbDeliver h.init h.op (.data ((got.drop o).take h.op.len))).bbAdvance faddr false

/-- FAR_ACKNOWLEDGE with the bytes `d` of a read cycle in ascending far address (of an IACK cycle: data lines from D0 upwards):
the cycle ends; the access completes, or its next cycle starts (R491, R494). -/
def farAcknowledge (d : List Byte) (s : State) : State :=
  match s.bridge.head, s.bridge.run with
  | some h, some r =>
    match r.live, r.left with
    | true, c :: rest =>
      let u := swapUnit (s.fld (BPB_OB_ATTR h.win) BPB_OB_ATTR_SWAP)
      let l := (List.range c.len).map fun j => d.getD j 0
      let l := match h.kind with
        | .iack _ => l
        | _ => swapBytes (min u c.len) l
      let got := if h.op.isWrite then r.got else r.got ++ l
      if rest.isEmpty then s.bbDone h got c.addr
      else
        let s := s.updBb fun x => { x with run := some ⟨rest, got, true, s.bbMayRun⟩ }
        if s.bbProf = 0 && s.bbEn then s else s.bbRelease
    | _, _ => s
  | _, _ => s

/-- FAR_ACKNOWLEDGE (R491). -/
def execFarAcknowledge (d : List Byte) (s : State) : Host.Outcome State Fault Refusal := .next (farAcknowledge d s)

/-- FAR_BERR (R496, R506): a far BERR ends the access on the bus. -/
def farBerr (s : State) : State := if s.bbLive && s.bbProf == 0 then s.bbFail 1 else s

/-- FAR_BERR (R496). -/
def execFarBerr (s : State) : Host.Outcome State Fault Refusal := .next (farBerr s)

/-- ACK_TIMEOUT (R495): no far acknowledge within ACKTMO. -/
def ackTimeout (s : State) : State := if s.bbLive then s.bbFail 2 else s

/-- ACK_TIMEOUT (R495). -/
def execAckTimeout (s : State) : Host.Outcome State Fault Refusal := .next (ackTimeout s)

/-- OWN_TIMEOUT (R495): the head has waited OWNTMO for the bus. -/
def ownTimeout (s : State) : State := if s.bridge.head.isSome && !s.bbLive then s.bbFail 3 else s

/-- OWN_TIMEOUT (R495). -/
def execOwnTimeout (s : State) : Host.Outcome State Fault Refusal := .next (ownTimeout s)

/-- LOCK_TIMEOUT (R498): the sequence ends with cause 5: its access at the head ends so; with none there, the entry names the
access last carried out. -/
def lockTimeout (s : State) : State :=
  match s.bridge.lock with
  | none => s
  | some l =>
    if s.bridge.head.isSome then s.bbFail 5
    else (s.bbLog l.win l.rpn l.last.len 5 false l.last.isWrite false l.faddr (firstWord l.last)).bbAdvance l.faddr true

/-- LOCK_TIMEOUT (R498). -/
def execLockTimeout (s : State) : Host.Outcome State Fault Refusal := .next (lockTimeout s)

/-- PREFETCH_EXPIRY (R497): the block of window `w` is 2 us old and dropped. -/
def prefetchExpiry (w : Fin 16) (s : State) : State := s.dropPref w

/-- PREFETCH_EXPIRY (R497). -/
def execPrefetchExpiry (w : Fin 16) (s : State) : Host.Outcome State Fault Refusal := .next (prefetchExpiry w s)

/-- BUS_CLEAR_IN (R495): BCLR (`bclr`) or, under release-on-request, another request. The bus goes at once where no access is
carried out. -/
def busClearIn (bclr : Bool) (s : State) : State :=
  if s.bbProf = 0 && s.flag BPB_STAT BPB_STAT_OWN then
    let s := s.updBb fun x => { x with bclrIn := x.bclrIn || bclr, reqIn := x.reqIn || (!bclr && s.flag BPB_ARB BPB_ARB_REL) }
    if s.bridge.run.isSome then s else s.bbRelease
  else s

/-- BUS_CLEAR_IN (R495). -/
def execBusClearIn (bclr : Bool) (s : State) : Host.Outcome State Fault Refusal := .next (busClearIn bclr s)

/-- HOLD_REQUEST_IN (R495): P1 and P2; an enabled bridge yields now unless a far cycle or a locked sequence is open. -/
def holdRequestIn (s : State) : State :=
  if s.bbProf = 0 then s
  else
    let s := s.updBb fun x => { x with hold := true }
    if s.bbLive then s else s.bbRelease

/-- HOLD_REQUEST_IN (R495). -/
def execHoldRequestIn (s : State) : Host.Outcome State Fault Refusal := .next (holdRequestIn s)

/-- HOLD_REQUEST_END (R495): the bridge reclaims the bus. -/
def holdRequestEnd (s : State) : State :=
  ((s.updBb fun x => { x with hold := false }).setFlag BPB_STAT BPB_STAT_YLD false).bbNext

/-- HOLD_REQUEST_END (R495). -/
def execHoldRequestEnd (s : State) : Host.Outcome State Fault Refusal := .next (holdRequestEnd s)

/-- Whether an initiator may write the BPB block (R511): the host and the Keep. -/
def bpbWriter (i : Init) : Bool := i == .keep || i == .pcie || i == .localBus

/-- The access at the head of the queue: with none carried out or waiting for the bus, the oldest one that waits for the end of a
locked sequence (R499). -/
def State.bbHeadTaken (s : State) : State :=
  match s.bridge.head, s.bridge.queue with
  | none, h :: t => s.updBb fun x => { x with head := some h, queue := t }
  | _, _ => s

/-- BPB_ABORT.GO (R499): an abort before the commit point releases the bus. -/
def bpbAbort (i : Init) (s : State) : State :=
  if !bpbWriter i then s.answer .busError
  else
    let done (s : State) (r : Nat) : State := (s.setFld BPB_ABORT BPB_ABORT_RES r).answer .ok
    let s := s.bbHeadTaken
    match s.bridge.head with
    | none => done s 3
    | some _ =>
      if (s.bridge.run.map fun r => r.acked).getD false then done s 2
      else
        done ((s.setFlag BPB_STAT BPB_STAT_OWN false).bbFail 4) 1

/-- BPB_ABORT (R499). -/
def execBpbAbort (i : Init) (s : State) : Host.Outcome State Fault Refusal :=
  .next (s.gate i BPB_ABORT (bpbAbort i))

/-! ### Inbound accesses (R500-R502) -/

/-- Whether an address modifier selects an inbound window of SPACE `sp`, with supervisory codes if `sup` (R500). -/
def amMatch (sp : Nat) (sup : Bool) (am : Nat) : Bool :=
  match sp with
  | 0 => am == 0x29 || (sup && am == 0x2D)
  | 1 => [0x38, 0x39, 0x3A, 0x3B].contains am || (sup && [0x3C, 0x3D, 0x3E, 0x3F].contains am)
  | 2 => [0x08, 0x09, 0x0A, 0x0B].contains am || (sup && [0x0C, 0x0D, 0x0E, 0x0F].contains am)
  | _ => false

/-- Size, far base and target of inbound window `w`. -/
def State.ibSize (s : State) (w : Nat) : Nat := 2 ^ s.fld (BPB_IB_ATTR w) BPB_IB_ATTR_SIZE
def State.ibFar (s : State) (w : Nat) : Nat := (s.reg (BPB_IB_FAR w)).toNat / s.ibSize w * s.ibSize w
def State.ibTgt (s : State) (w : Nat) : Nat := (s.reg (BPB_IB_TGT w)).toNat / s.ibSize w * s.ibSize w

/-- The lowest-numbered enabled inbound window that accepts far address `f` with modifier `am`. -/
def State.ibDecode (s : State) (f am : Nat) : Option Nat :=
  (List.range 8).find? fun w =>
    let at' := BPB_IB_ATTR w
    s.flag at' BPB_IB_ATTR_EN && Nat.ble (s.ibFar w) f && Nat.blt f (s.ibFar w + s.ibSize w) &&
      (s.bbProf != 0 || amMatch (s.fld at' BPB_IB_ATTR_SPACE) (s.flag at' BPB_IB_ATTR_SUPER) am)

/-- An inbound error (R501): cause 9, RPN 35. -/
def State.inError (s : State) (w f : Nat) (op : Access) : State :=
  s.bbLog w 35 op.len 9 false op.isWrite true f (firstWord op)

/-- The oldest buffered inbound write completes at its target (R501). -/
def inboundWriteComplete (s : State) : State :=
  match s.bridge.inq with
  | [] => s
  | (w, f, op) :: t =>
    let s := s.updBb fun x => { x with inq := t }
    match op with
    | .read _ _ => s
    | .write a d =>
      match s.moverWrite .bridge a d with
      | (some _, s) => s.inError w f op
      | (none, s) =>
        let at' := BPB_IB_ATTR w
        (s.count BPB_INCNT 1).ringIf (s.flag at' BPB_IB_ATTR_DBEN) (s.fld at' BPB_IB_ATTR_DBAGENT) (s.fld at' BPB_IB_ATTR_DBBIT)

/-- INBOUND_WRITE_COMPLETE (R501). -/
def execInboundWriteComplete (s : State) : Host.Outcome State Fault Refusal := .next (inboundWriteComplete s)

/-- Every buffered inbound write completes. -/
def State.drainInbound (s : State) : State := (List.range s.bridge.inq.length).foldl (fun (s : State) _ => inboundWriteComplete s) s

/-- The answer to an inbound access in error (R501): BERR on P0; on P2 a read returns ones and a write is discarded. -/
def State.inAnswer (s : State) (op : Access) : State :=
  if s.bbProf = 0 then { s.answer .busError with bridge := { s.bridge with berrs := s.bridge.berrs + 1 } }
  else if op.isWrite then s.answer .ok
  else s.answer (.data (List.replicate op.len 0xFF))

/-- INBOUND_ACCESS: a far access of another master, `op` with its far address, modifier `am` on P0. The completion `idle` is no
answer; `waiting` a write that finds the buffer of 16 full and is not acknowledged. -/
def inboundAccess (am : BitVec 6) (op : Access) (s : State) : State :=
  let s := s.answer .idle
  if !s.bbEn || !s.flag BPB_CTL BPB_CTL_INEN || s.bbProf == 1 || (s.bbProf == 2 && !s.flag BPB_STAT BPB_STAT_YLD) then s
  else
    let f := op.addr
    match s.ibDecode f am.toNat with
    | none => s
    | some w =>
      let at' := BPB_IB_ATTR w
      if !s.flag at' (if op.isWrite then BPB_IB_ATTR_WR else BPB_IB_ATTR_RD) then (s.inError w f op).inAnswer op
      else
        let u := swapUnit (s.fld at' BPB_IB_ATTR_SWAP)
        let a := swapAddr u (s.ibTgt w + (f - s.ibFar w)) op.len
        let k := min u op.len
        match op with
        | .write _ d =>
          if Nat.ble 16 s.bridge.inq.length then s.answer .waiting
          else (s.updBb fun x => { x with inq := x.inq ++ [(w, f, .write a (swapBytes k d))] }).answer .ok
        | .read _ n =>
          match s.drainInbound.moverRead .bridge a n with
          | (_, some _, s) => (s.inError w f op).inAnswer op
          | (l, none, s) => (s.count BPB_INCNT 1).answer (.data (swapBytes k l))

/-- INBOUND_ACCESS (R500, R501). -/
def execInboundAccess (am : BitVec 6) (op : Access) (s : State) : Host.Outcome State Fault Refusal := .next (inboundAccess am op s)

/-! ### System controller (R503, R504) -/

/-- The level that the arbiter grants among the requests `req` (R503): highest first, round robin after the last one, or BR3
alone. -/
def arbitrate (mode last : Nat) (req : BitVec 4) : Option Nat :=
  let order := if mode = 0 then [3, 2, 1, 0] else if mode = 1 then [(last + 3) % 4, (last + 2) % 4, (last + 1) % 4, last % 4] else [3]
  order.find? fun l => req.getLsbD l

/-- BUS_REQUEST_IN: the request lines `req` while the bus is busy or free. -/
def busRequestIn (req : BitVec 4) (busy : Bool) (s : State) : State :=
  if s.bbProf != 0 || !s.bbEn || !s.flag BPB_ARB BPB_ARB_SYSCON then s
  else
    let mode := s.fld BPB_ARB BPB_ARB_ARBMODE
    let b := s.bridge
    match arbitrate mode b.lastLevel req with
    | none => s
    | some l =>
      if busy then s.updBb fun x => { x with bclrOut := x.bclrOut || (mode == 0 && Nat.blt x.lastLevel l) }
      else s.updBb fun x => { x with grant := some l, lastLevel := l, bclrOut := false }

/-- BUS_REQUEST_IN (R503). -/
def execBusRequestIn (req : BitVec 4) (busy : Bool) (s : State) : Host.Outcome State Fault Refusal := .next (busRequestIn req busy s)

/-- BUS_TIMER_EXPIRY: BERR after BTO without acknowledge; it ends the bridge's own cycle where that is on the bus. -/
def busTimerExpiry (s : State) : State :=
  if s.bbProf != 0 || !s.bbEn || !s.flag BPB_ARB BPB_ARB_SYSCON then s
  else farBerr (s.updBb fun x => { x with berrs := x.berrs + 1 })

/-- BUS_TIMER_EXPIRY (R503). -/
def execBusTimerExpiry (s : State) : Host.Outcome State Fault Refusal := .next (busTimerExpiry s)

/-- CTL.SYSRST (R504): the pulse is driven on P0 with SYSCON 1 only. -/
def State.sysrstGo (s : State) : State :=
  if s.bbProf = 0 && s.flag BPB_ARB BPB_ARB_SYSCON then s.setFlag BPB_CTL BPB_CTL_SYSRST true else s

/-- SYSRST: a write of CTL.SYSRST. -/
def sysrst (i : Init) (s : State) : State := if bpbWriter i then s.sysrstGo.answer .ok else s.answer .busError

/-- SYSRST (R504). -/
def execSysrst (i : Init) (s : State) : Host.Outcome State Fault Refusal :=
  .next (s.gate i BPB_CTL (sysrst i))

/-- SYSRESET_PULSE_END: 200 ms have passed. -/
def sysresetPulseEnd (s : State) : State := s.setFlag BPB_CTL BPB_CTL_SYSRST false

/-- SYSRESET_PULSE_END (R504). -/
def execSysresetPulseEnd (s : State) : Host.Outcome State Fault Refusal := .next (sysresetPulseEnd s)

/-- SYSRESET_IN: SYSRESET of another board asserted (`on`) or deasserted (R504). -/
def sysresetIn (on : Bool) (s : State) : State :=
  if s.bbProf != 0 then s
  else if on then
    let live := s.bbLive
    let s := (s.updBb fun x => { x with sysIn := true }).setFlag BPB_STAT BPB_STAT_OWN false
    if live then s.bbFail 4 else s.updBb fun x => { x with lock := none, asHeld := none }
  else (s.updBb fun x => { x with sysIn := false }).bbNext

/-- SYSRESET_IN (R504). -/
def execSysresetIn (on : Bool) (s : State) : Host.Outcome State Fault Refusal := .next (sysresetIn on s)

/-! ### Polls and interrupts (R505-R507) -/

/-- The rank of a due item: IACK cycles first, highest line first; then polls in ascending entry. -/
def dueRank (d : BbKind) : Nat :=
  match d with
  | .iack l => 7 - l
  | .poll k => 8 + k
  | .access => 0

/-- A due item takes its place, once. -/
def State.addDue (s : State) (d : BbKind) : State :=
  if s.bridge.due.contains d then s
  else
    (s.updBb fun x => { x with
      due := (x.due.filter fun e => Nat.blt (dueRank e) (dueRank d)) ++ d :: x.due.filter fun e => Nat.blt (dueRank d) (dueRank e) }).bbNext

/-- POLL_DUE (R505): an enabled entry enters unless it still waits. -/
def pollDue (k : Fin 64) (s : State) : State :=
  let waits := (s.bridge.head.map fun h => h.kind == .poll k).getD false && !s.bbLive
  if (s.reg (BPB_POLL k 0)).getLsbD 0 && !waits then s.addDue (.poll k) else s

/-- POLL_DUE (R505). -/
def execPollDue (k : Fin 64) (s : State) : Host.Outcome State Fault Refusal := .next (pollDue k s)

/-- IRQ_LINE_ASSERTED: line `l` low for 3 samples (R506). -/
def irqLineAsserted (l : Fin 8) (s : State) : State :=
  let w := s.reg BPB_IRQCTL
  if !w.getLsbD l || !w.getLsbD (8 + l) then s
  else if s.bbProf = 0 then
    if l.val = 0 || (s.bridge.head.map fun h => h.kind == .iack l).getD false then s else s.addDue (.iack l)
  else ((s.bbVector 0 l false).ringVdb).disarm l

/-- IRQ_LINE_ASSERTED (R506). -/
def execIrqLineAsserted (l : Fin 8) (s : State) : Host.Outcome State Fault Refusal := .next (irqLineAsserted l s)

/-- A write of BPB_IRQCTL: HEN, IACKW (3 keeps its value), and ARM set where 1. -/
def irqRearm (i : Init) (v : Word) (s : State) : State :=
  if !bpbWriter i then s.answer .busError
  else
    let v := s.keepFld BPB_IRQCTL BPB_IRQCTL_IACKW (fun n => n == 3) v
    let arm := (s.reg BPB_IRQCTL ||| v) &&& 0xFF00
    (s.setReg BPB_IRQCTL ((v &&& 0x300FF) ||| arm)).answer .ok

/-- IRQ_REARM (R506). -/
def execIrqRearm (i : Init) (v : Word) (s : State) : Host.Outcome State Fault Refusal :=
  .next (s.gate i BPB_IRQCTL (irqRearm i v))

/-- IACK_IN: an IACK cycle at level `l` reaches IACKIN (R507): answered with its vector, or passed on (no answer). -/
def iackIn (l : Fin 8) (s : State) : State :=
  if s.bbProf = 0 && s.bbEn && l.val != 0 && s.irqReq.getLsbD l then
    ({ s with irqReq := s.irqReq &&& ~~~BitVec.ofNat 8 (2 ^ l.val) }).answer
      (.data [BitVec.ofNat 8 (bitsOf (s.reg BPB_IRQVEC).toNat 3 5 * 8 + l)])
  else s.answer .idle

/-- IACK_IN (R507). -/
def execIackIn (l : Fin 8) (s : State) : Host.Outcome State Fault Refusal := .next (iackIn l s)

/-! ### Enables (R513) -/

/-- Why outbound window `w` with BASE word `v` may not be enabled (R513); 0: it may. -/
def State.obCheck (s : State) (w : Nat) (v : Word) : Nat :=
  let at' := BPB_OB_ATTR w
  let base := v.toNat / 65536 * 65536
  let size := s.fld at' BPB_OB_ATTR_SIZE
  let am := s.fld at' BPB_OB_ATTR_AM
  let dw := s.fld at' BPB_OB_ATTR_DW
  let blk := s.fld at' BPB_OB_ATTR_BLK
  if Nat.blt base 0x80000000 || Nat.blt (2 ^ 32) (base + 2 ^ size) || base % 2 ^ size != 0 then 1
  else if Nat.blt size 16 || dw == 3 || blk == 3 || s.fld at' BPB_OB_ATTR_SWAP == 3 || (s.bbProf != 0 && blk != 0) ||
    (s.bbProf == 2 && dw == 2) then 2
  else if blk != 0 && (am % 4 != 1 || am == 0x29 || am == 0x2D || (blk == 2 && dw != 2) || dw == 0) then 3
  else if s.fld at' BPB_OB_ATTR_LCKN != 0 && (s.flag at' BPB_OB_ATTR_POST || s.flag at' BPB_OB_ATTR_PREF) then 4
  else 0

/-- Why inbound window `w` with ATTR word `v` may not be enabled. -/
def State.ibCheck (s : State) (w : Nat) (v : Word) : Nat :=
  let size := BPB_IB_ATTR_SIZE.get v
  let t := (s.reg (BPB_IB_TGT w)).toNat / 2 ^ size * 2 ^ size
  if (s.bbProf == 0 && BPB_IB_ATTR_SPACE.get v == 3) || Nat.blt size 12 || size == 31 || BPB_IB_ATTR_SWAP.get v == 3 ||
    Nat.ble 36 (BPB_IB_ATTR_DBAGENT.get v) then 2
  else if s.bbProf == 1 || !((Nat.ble 0x4C000000 t && Nat.ble (t + 2 ^ size) 0x4C040000) || Nat.ble (t + 2 ^ size) s.dramSize)
    then 5
  else 0

/-- Why poll entry `k` with word 0 `v` may not be enabled. -/
def State.pollCheck (s : State) (k : Nat) (v : Word) : Nat :=
  let w := bitsOf v.toNat 1 4
  let z := bitsOf v.toNat 5 2
  let ofs := (s.reg (BPB_POLL k 1)).toNat
  let int := bitsOf (s.reg (BPB_POLL k 4)).toNat 0 17
  if z == 3 || Nat.ble 36 (bitsOf v.toNat 8 6) then 2
  else if !s.flag (BPB_OB_BASE w) BPB_OB_BASE_EN || ofs % 2 ^ z != 0 || Nat.blt (s.obSize w) (ofs + 2 ^ z) || int == 0 ||
    Nat.blt 100000 int then 6
  else 0

/-- Whether outbound window `w` is quiescent (R511): EN 0 and no access through it held. -/
def State.obQuiet (s : State) (w : Nat) : Bool :=
  !s.flag (BPB_OB_BASE w) BPB_OB_BASE_EN && s.bridge.queue.all (fun q => q.win != w) &&
    (s.bridge.head.map fun h => h.win != w || dueRank h.kind < 8 && h.kind != .access).getD true

/-- The register that holds the enable of a window or poll entry, whether it is quiescent, and its check. -/
def winReg (x : BpbWin) : Nat :=
  match x with
  | .ob w => BPB_OB_BASE w
  | .ib w => BPB_IB_ATTR w
  | .poll k => BPB_POLL k 0
def State.winQuiet (s : State) (x : BpbWin) : Bool :=
  match x with
  | .ob w => s.obQuiet w
  | .ib w => !s.flag (BPB_IB_ATTR w) BPB_IB_ATTR_EN
  | .poll k => !(s.reg (BPB_POLL k 0)).getLsbD 0
def State.winCheck (s : State) (x : BpbWin) (v : Word) : Nat :=
  match x with
  | .ob w => s.obCheck w v
  | .ib w => s.ibCheck w v
  | .poll k => s.pollCheck k v

/-- The masks of word `j` of a poll entry (R512): its RW and RWQ bits. -/
def pollMasks (j : Nat) : Nat × Nat :=
  if j = 0 then (1, 0x7FFFE) else if j < 4 then (0, 0xFFFFFFFF) else if j = 4 then (0, 0x1FFFF) else (0, 0)

/-- A plain write of word `j` of poll entry `k`. -/
def State.pollWrite (s : State) (k j : Nat) (v : Word) : State :=
  s.maskWrite (!(s.reg (BPB_POLL k 0)).getLsbD 0) (BPB_POLL k j) (pollMasks j).1 (pollMasks j).2 v

/-- The plain write of an enable word. -/
def State.enWrite (s : State) (x : BpbWin) (v : Word) : State :=
  match x with
  | .poll k => s.pollWrite k 0 v
  | _ => s.plainWrite (s.winQuiet x) (winReg x) v

/-- A write of the word that holds an enable (R512, R513): a refused enable leaves EN 0 and sets CFGERR and CFGC; an accepted one
clears CFGERR, and a poll entry reads at once. -/
def State.winWrite (s : State) (x : BpbWin) (v : Word) : State :=
  let a := winReg x
  let on := v.getLsbD 0 && !(s.reg a).getLsbD 0
  let code := if on then s.winCheck x v else 0
  let s1 := s.enWrite x (if code = 0 then v else v &&& ~~~1)
  if !on || s1.resp != .ok then s1
  else if code != 0 then (s1.setFlag BPB_STAT BPB_STAT_CFGERR true).setFld BPB_STAT BPB_STAT_CFGC code
  else
    let s2 := s1.setFlag BPB_STAT BPB_STAT_CFGERR false
    match x with
    | .poll k => (s2.updBb fun y => { y with polled := y.polled.filter fun j => j != k.val }).addDue (.poll k)
    | _ => s2

/-- WINDOW_ENABLE: a write of the enable word of a window or poll entry. -/
def windowEnable (i : Init) (x : BpbWin) (v : Word) (s : State) : State :=
  if bpbWriter i then s.winWrite x v else s.answer .busError

/-- WINDOW_ENABLE (R513). -/
def execWindowEnable (i : Init) (x : BpbWin) (v : Word) (s : State) : Host.Outcome State Fault Refusal :=
  .next (s.gate i (winReg x) (windowEnable i x v))

/-- A write of an RD index past WR completes with a bus error (R508, R266). -/
def State.logRd (s : State) (wr rd : Nat) (v : Word) : State :=
  if Nat.blt (s.logLevel wr rd) ((v.toNat % 32 + 32 - (s.reg rd).toNat) % 32) then s.answer .busError
  else (s.setReg rd (word (v.toNat % 32))).answer .ok

/-- LOG_RD_WRITE: RD of the vector log or of the error log. -/
def logRdWrite (i : Init) (vector : Bool) (v : Word) (s : State) : State :=
  if !bpbWriter i then s.answer .busError
  else if vector then s.logRd BPB_VLOG_WR BPB_VLOG_RD v
  else s.logRd BPB_ELOG_WR BPB_ELOG_RD v

/-- LOG_RD_WRITE (R508). -/
def execLogRdWrite (i : Init) (vector : Bool) (v : Word) (s : State) : Host.Outcome State Fault Refusal :=
  .next (s.gate i (if vector then BPB_VLOG_RD else BPB_ELOG_RD) (logRdWrite i vector v))

/-! ### Partial reset (R510) -/

/-- An access that the reset ends in the queue: a non-posted one with a bus error; a posted write is discarded, counted, and
logged with cause 8 while the log has room. -/
def State.bbDiscard (s : State) (h : BbAcc) : State :=
  if h.kind != .access then s
  else if h.posted then
    let s := s.countSat BPB_PWLOST 1
    if s.logLevel BPB_ELOG_WR BPB_ELOG_RD = 16 then s
    else s.bbLog h.win h.init.rpn h.op.len 8 true true false
      ((((s.bbCycles h).head?).map fun c => c.addr).getD 0) (firstWord h.op)
  else s.bbDeliver h.init h.op .busError

/-- The bridge partial reset (R510). -/
def State.bpbReset (s : State) : State :=
  let b := s.bridge
  let s := match b.head with
    | none => s
    | some h => if s.bbLive then s.bbReport h 4 s.bbFaddr else s.bbDiscard h
  let s := b.queue.foldl (fun (s : State) h => s.bbDiscard h) s
  let s := s.drainInbound
  let s := { s with bridge := { Bridge.init with hold := b.hold, sysIn := b.sysIn } }
  let s := (s.setReg BPB_STAT 1).setReg BPB_ABORT 0
  let s := s.setReg BPB_IRQCTL (s.reg BPB_IRQCTL &&& 0x300FF)
  let s := (List.range 64).foldl (fun (s : State) k =>
    s.setReg (BPB_POLL k 6) (word ((s.reg (BPB_POLL k 6)).toNat % 65536))) s
  let s := (s.setFlag BPB_CTL BPB_CTL_EN false).setFlag BPB_CTL BPB_CTL_SYSRST false
  s.advanceEpoch 3

/-- BPB_BLKRST: a write of CTL.BLKRST. -/
def bpbBlkrst (i : Init) (s : State) : State := if bpbWriter i then s.bpbReset.answer .ok else s.answer .busError

/-- BPB_BLKRST (R510). -/
def execBpbBlkrst (i : Init) (s : State) : Host.Outcome State Fault Refusal :=
  .next (s.gate i BPB_CTL (bpbBlkrst i))

/-! ### Register block (R511) -/

/-- STAT as read: IDLE, LOCK, QLEV and, on P1 and P2, OWN are computed. -/
def State.bbStat (s : State) : Word :=
  let b := s.bridge
  let idle := b.queue.isEmpty && b.head.isNone && b.due.isEmpty && b.inq.isEmpty
  let w := BPB_STAT_IDLE.put (s.reg BPB_STAT) (bit idle)
  let w := BPB_STAT_OWN.put w (bit s.bbOwn)
  BPB_STAT_QLEV.put (BPB_STAT_LOCK.put w (bit b.lock.isSome)) s.bbHeld

/-- Whether the block is quiescent. -/
def State.bpbQuiet (s : State) : Bool := !s.bbEn && s.bbStat.getLsbD 0

/-- A write of BPB_CTL: PROF 3 keeps its value; BLKRST resets after the write; EN 0 releases a bus on which no cycle runs. -/
def bpbCtlWrite (v : Word) (s : State) : State :=
  let v := s.keepFld BPB_CTL BPB_CTL_PROF (fun n => n == 3) v
  let s1 := s.plainWrite s.bpbQuiet BPB_CTL v
  let s1 := if BPB_CTL_SYSRST.get v = 1 then s1.sysrstGo else s1
  if BPB_CTL_BLKRST.get v = 1 then s1.bpbReset
  else if s1.bbEn then (if s.bbEn then s1 else s1.bbRelease.bbNext)
  else if s1.bbLive then s1 else s1.bbRelease

/-- A write in the BPB block. -/
def bpbWrite (i : Init) (a : Nat) (v : Word) (s : State) : State :=
  let o := a - BPB_CTL
  let w := o % 0x100 / 0x10
  if !bpbWriter i then s.answer .busError
  else if a = BPB_CTL then bpbCtlWrite v s
  else if a = BPB_ARB then s.plainWrite s.bpbQuiet a (s.keepFld a BPB_ARB_ARBMODE (fun n => n == 3) v)
  else if a = BPB_IRQCTL then irqRearm i v s
  else if a = BPB_ABORT then (if v.getLsbD 0 then bpbAbort i s else s.answer .ok)
  else if a = BPB_EVT then
    s.plainWrite true a (s.keepFld a BPB_EVT_VAGENT (fun n => Nat.ble 36 n) (s.keepFld a BPB_EVT_EAGENT (fun n => Nat.ble 36 n) v))
  else if a = BPB_ELOG_RD then s.logRd BPB_ELOG_WR a v
  else if a = BPB_VLOG_RD then s.logRd BPB_VLOG_WR a v
  else if Nat.ble 0x100 o && Nat.blt o 0x200 then
    if h : w < 16 then (if o % 16 = 0 then s.winWrite (.ob ⟨w, h⟩) v else s.plainWrite (s.obQuiet w) a v) else s.answer .ok
  else if Nat.ble 0x200 o && Nat.blt o 0x280 then
    if h : w < 8 then (if o % 16 = 8 then s.winWrite (.ib ⟨w, h⟩) v else s.plainWrite (s.winQuiet (.ib ⟨w, h⟩)) a v)
    else s.answer .ok
  else if Nat.ble 0x400 o && Nat.blt o 0xC00 then
    let k := (o - 0x400) / 0x20
    if h : k < 64 then (if o % 0x20 = 0 then s.winWrite (.poll ⟨k, h⟩) v else s.pollWrite k (o % 0x20 / 4) v)
    else s.answer .ok
  else s.plainWrite s.bpbQuiet a v

/-- A read in the BPB block. -/
def bpbRead (events : Word) (a : Nat) (s : State) : State :=
  if a = BPB_STAT then s.answerWord s.bbStat
  else if a = BPB_CTL || a = BPB_IRQCTL then s.answerWord (s.reg a)
  else s.plainRead events a

/-! ### Outputs (R490, R503, R507) -/

/-- Whether the transceiver enables BB_AOE_N, BB_DOE_N, BB_COE_N are low: only of an enabled bridge that owns the bus. -/
def State.bbDrives (s : State) : Bool := s.bbEn && s.bbOwn

/-- BB_IACKOUT_N on P1 and P2 (R507): low while bit 0 of agent 3 is pending and unmasked. -/
def State.bbIrqOut (s : State) : Bool :=
  s.bbEn && s.bbProf != 0 && (s.reg (XCH_A_DB_PEND 3) &&& s.reg (XCH_A_DB_MASK 3)).getLsbD 0

end Sys2Proof.Machine
end

