-- ==== Sys2Proof/Machine/Almanac.lean ====
section
/-! DEFINITION. Network clocks, cross-stamps, pin time, read latches and the capture log (R234-R244, R265-R267).
Choices of the model: log entries 66, 67. -/

set_option autoImplicit false

namespace Sys2Proof.Machine

open Sys2Proof

/-! ### Clocks (R234-R238) -/

/-- The state with clock `n` changed. -/
def State.updClock (s : State) (n : Nat) (f : Clock → Clock) : State :=
  { s with tc := s.tc.setIfInBounds n (f (s.clock n)) }

/-- The modulus of a clock value: 2^48 s. -/
def clockMod : Nat := secUnits * 2 ^ 48

/-- Nanoseconds of TC`n` since 0 s, without the fraction. -/
def State.clockNs (s : State) (n : Nat) : Int := (s.clock n).t / 65536

/-- A signed word as an integer. -/
def sInt (w : Word) : Int := w.toInt

/-- The rate adjustment of TC`n` in units per 250,000 ticks; with CKSTEER the rate of TC0 is in the tick itself (R242). -/
def State.rateOf (s : State) (n : Nat) : Int :=
  sInt (s.reg (ALM_TC_RATE n)) - (if s.flag ALM_CTL ALM_CTL_CKSTEER then sInt (s.reg (ALM_TC_RATE 0)) else 0)

/-- One tick of a clock (R234, R235, R237): 8 ns, the rate adjustment `r`, and at most `sl` of the slew, in 250,000ths. -/
def Clock.tick (c : Clock) (r sl : Int) : Clock :=
  let d := max (-sl) (min sl c.slew)
  let x := c.rem + r + d
  ⟨((c.t : Int) + 524288 + x.fdiv 250000).toNat % clockMod, x.fmod 250000, c.slew - d⟩

/-- TC`n` ticks; a slew that ends clears SLEWING. -/
def State.tickClock (s : State) (n : Nat) : State :=
  let sl := 131072 * 2 ^ s.fld (ALM_TC_CTL n) ALM_TC_CTL_SLEWR
  let r := s.rateOf n
  let s := s.updClock n fun c => c.tick r sl
  if (s.clock n).slew = 0 then s.setFlag (ALM_TC_STAT n) ALM_TC_STAT_SLEWING false else s

/-- The T96 words of a time in units. -/
def State.putT96 (s : State) (a0 a1 a2 : Nat) (t : Nat) : State :=
  let (w0, w1, w2) := t96Of t
  ((s.setReg a0 w0).setReg a1 w1).setReg a2 w2

/-- The pin-time counter after a tick (R244): within one count of TC0 time from its origin, which of the three a free value,
and never backwards. -/
def State.tickPtc (s : State) : State :=
  let e := ((s.clock 0).t + clockMod - s.ptcOrg) % clockMod * 2 / (5 * 65536)
  let (f, s) := s.free
  { s with ptc := max s.ptc (e + f.toNat % 3 - 1) % 2 ^ 64 }

/-! ### Read latches (R239) -/

/-- Register groups that latch: TC0-TC3 NOW 0-3, PTC 4, ANG0 and ANG1 5 and 6, LIN0 7, MNS0 8, further groups of other blocks. -/
def State.setLatch (s : State) (g rpn : Nat) (w : Word × Word) : State :=
  { s with latch := Tbl.set (fun _ => (0, 0)) s.latch (64 * g + rpn) w }

/-- The latch of group `g` for an RPN. -/
def State.getLatch (s : State) (g rpn : Nat) : Word × Word := Tbl.get (fun _ => (0, 0)) s.latch (64 * g + rpn)

/-! ### Cross-stamp (R243) -/

/-- TC0-TC3 and the pin-time counter are latched in one tick. -/
def State.crossStamp (s : State) : State :=
  let s := [0, 1, 2, 3].foldl (fun s n => s.putT96 (ALM_XS_TC_0 n) (ALM_XS_TC_1 n) (ALM_XS_TC_2 n) (s.clock n).t) s
  ((s.setReg ALM_XS_PTC0 (word s.ptc)).setReg ALM_XS_PTC1 (word (s.ptc / 2 ^ 32))).count ALM_XS_SEQ 1

/-- CROSS_STAMP (R243): a write of ALM_XS_CTL.GO. -/
def execCrossStamp (i : Init) (s : State) : Host.Outcome State Fault Refusal :=
  .next (s.gate i ALM_XS_CTL fun (s : State) => s.crossStamp.answer .ok)

/-! ### Capture log (R265-R267) -/

/-- Unread entries of the log. -/
def State.unread (s : State) : Nat := ((s.reg ALM_CAP_WR).toNat + 512 - (s.reg ALM_CAP_RD).toNat) % 512

/-- The capture doorbell. -/
def State.ringCap (s : State) : State :=
  s.ringIf (s.flag ALM_CAP_CTL ALM_CAP_CTL_DBEN) (s.fld ALM_CAP_CTL ALM_CAP_CTL_DBAGENT) (s.fld ALM_CAP_CTL ALM_CAP_CTL_DBBIT)

/-- A capture (R265, R266): word 0, stamp in units, VAL; dropped and counted at a full log, discarded while EN is 0. -/
def State.capture (s : State) (w0 : Nat) (t : Nat) (val : Word) : State :=
  if !s.flag ALM_CAP_CTL ALM_CAP_CTL_EN then s
  else
    let n := s.unread
    if n = 256 then
      if s.reg ALM_CAP_LOST = 0 then
        ((s.countSat ALM_CAP_LOST 1).putT96 ALM_CAP_FL0 ALM_CAP_FL1 ALM_CAP_FL2 (s.clock 0).t).ringCap
      else s.countSat ALM_CAP_LOST 1
    else
      let k := (s.reg ALM_CAP_WR).toNat % 256
      let s := (((s.setReg (ALM_CAPLOG k 0) (word w0)).setReg (ALM_CAPLOG k 1) (t32Of t)).setReg (ALM_CAPLOG k 2)
        (word (unitsSec t))).setReg (ALM_CAPLOG k 3) val
      let s := s.setReg ALM_CAP_WR (word (((s.reg ALM_CAP_WR).toNat + 1) % 512))
      let lv := max 1 (s.fld ALM_CAP_CTL ALM_CAP_CTL_LEVEL)
      if n < lv && lv ≤ n + 1 then s.ringCap else s

/-- Word 0 of a capture: SRCN, SRC, CLK, BASE, SRCST, TAG. -/
def capWord (srcn src clk base srcst tag : Nat) : Nat :=
  srcn + src * 2 ^ 11 + clk * 2 ^ 14 + base * 2 ^ 16 + srcst * 2 ^ 19 + tag * 2 ^ 24

/-- A field event (R265): its code, its source stamp in ns of TC0. -/
def State.fieldEvent (s : State) (code : Nat) (ns : Int) : State :=
  s.capture (capWord code 3 0 0 1 0) (ns.toNat * 65536) 0

/-- A write of ALM_CAP_SW captures TC0 (R265). -/
def softwareCapture (i : Init) (v : Word) (s : State) : State :=
  if !rights i .regs then s.answer .busError
  else (s.capture (capWord 0 1 0 0 0 (v.toNat % 256)) (s.clock 0).t 0).answer .ok

/-- SOFTWARE_CAPTURE (R265). -/
def execSoftwareCapture (i : Init) (v : Word) (s : State) : Host.Outcome State Fault Refusal :=
  .next (s.gate i ALM_CAP_SW (softwareCapture i v))

/-- A write of ALM_CAP_RD (R266): refused where it would move RD past WR. -/
def captureRdWrite (i : Init) (v : Word) (s : State) : State :=
  let rd := (s.reg ALM_CAP_RD).toNat
  let new := v.toNat % 512
  if !rights i .regs || s.unread < (new + 512 - rd) % 512 then s.answer .busError
  else (s.setReg ALM_CAP_RD (word new)).answer .ok

/-- CAPTURE_RD_WRITE (R266). -/
def execCaptureRdWrite (i : Init) (v : Word) (s : State) : Host.Outcome State Fault Refusal :=
  .next (s.gate i ALM_CAP_RD (captureRdWrite i v))

end Sys2Proof.Machine
end

