-- ==== Sys2Proof/Machine/Lanes.lean ====
section
/-! DEFINITION. Pass-through lanes (R176-R189): attachment, blocks, forwarding, shadow and swap.
Choices of the model: log entries 29, 70. -/

set_option autoImplicit false

namespace Sys2Proof.Machine

open Sys2Proof

/-! ### Attachment and lane state -/

/-- Ingress port of lane `l` (R176). -/
def laneIn (l : Nat) : Nat := l

/-- Egress port of lane `l` (R176). -/
def laneOut (l : Nat) : Nat := if l % 2 = 0 then l + 1 else l - 1

/-- The primary engine of lane `l`: attached, or finishing the frame being forwarded (R178). -/
def State.primaryOf (s : State) (l : Nat) : Option Nat :=
  if s.flag (ETH_LANE_CTL l) ETH_LANE_CTL_PRIEN then some (s.fld (ETH_LANE_CTL l) ETH_LANE_CTL_PRI) else (s.lane l).linger

/-- The shadow engine of lane `l`. -/
def State.shadowOf (s : State) (l : Nat) : Option Nat :=
  if s.flag (ETH_LANE_CTL l) ETH_LANE_CTL_SHDEN then some (s.fld (ETH_LANE_CTL l) ETH_LANE_CTL_SHD) else none

/-- The lane that engine `e` serves, and whether as its primary (true) or its shadow. -/
def State.laneOf (s : State) (e : Nat) : Option (Nat × Bool) :=
  (List.range 6).findSome? fun l =>
    if s.primaryOf l = some e then some (l, true)
    else if s.shadowOf l = some e then some (l, false)
    else none

/-- Whether lane `l` can be ACTIVE: both ports of its pair have link at the same speed of 10, 100 or 1,000 Mbit/s (R177). -/
def State.pairUp (s : State) (l : Nat) : Bool :=
  let a := ETH_STAT (laneIn l)
  let b := ETH_STAT (laneOut l)
  s.flag (ETH_CTL (laneIn l)) ETH_CTL_EN && s.flag (ETH_CTL (laneOut l)) ETH_CTL_EN &&
    s.flag a ETH_STAT_LINK && s.flag b ETH_STAT_LINK && s.fld a ETH_STAT_SPEED == s.fld b ETH_STAT_SPEED &&
    Nat.blt (s.fld a ETH_STAT_SPEED) 3

/-- The state of lane `l` (ETH_LANEl_STAT.STATE): 0 DETACHED, 1 ACTIVE, 2 SUSPENDED, 3 NO_PRIMARY. -/
def State.laneState (s : State) (l : Nat) : Nat :=
  if s.primaryOf l = none then 0
  else if (s.lane l).absent then 3
  else if s.pairUp l then 1
  else 2

/-- Home tower of lane `l` (R26, R176). -/
def laneHome (l : Nat) : Nat := l / 2

/-- EV2 of engine `e` (R63, R180): a block waits and fewer than 16 are held. -/
def State.ev2 (s : State) (e : Nat) : Bool :=
  match s.laneOf e with
  | some (l, true) => !(s.lane l).rxP.isEmpty && Nat.blt (s.lane l).heldP.length 16
  | some (l, false) => !(s.lane l).rxS.isEmpty && Nat.blt (s.lane l).heldS.length 16
  | none => false

/-- EV3 of engine `e` (R63): the lane can accept a block; always for the shadow. -/
def State.ev3 (s : State) (e : Nat) : Bool :=
  match s.laneOf e with
  | some (l, true) => Nat.blt (s.lane l).tx.length 128
  | some (_, false) => true
  | none => false

/-- The lane doorbell of R188: bit DBBIT of the Keep, if DBEN. -/
def State.ringLane (s : State) (l : Nat) : State :=
  s.ringIf (s.flag (ETH_LANE_CTL l) ETH_LANE_CTL_DBEN) 1 (s.fld (ETH_LANE_CTL l) ETH_LANE_CTL_DBBIT)

/-- Rings the lane doorbell if the lane's state is not `old` any more (R188). -/
def State.ringLaneChange (s : State) (l old : Nat) : State := if s.laneState l = old then s else s.ringLane l

/-! ### Block status words (R180) -/

/-- SOF, EOF and the matching part of a block status word. -/
def stSof (w : Word) : Bool := w.getLsbD 31
def stEof (w : Word) : Bool := w.getLsbD 30
def stMatch (w : Word) : Word := w &&& 0xC0FFFF1F

/-- A status word: CNT, ERRC, BIDX, FSEQ, EOF. -/
def mkStatus (cnt errc bidx fseq : Nat) (eof : Bool) : Word :=
  word (cnt + errc * 2 ^ 5 + bidx % 1024 * 2 ^ 8 + fseq % 64 * 2 ^ 18 + bit (errc != 0) * 2 ^ 29 + bit eof * 2 ^ 30 +
    bit (bidx == 0) * 2 ^ 31)

/-! ### Forwarding -/

/-- Bytes of a block that count. -/
def Block.bytes (b : Block) : List Byte := b.data.take (bitsOf b.status.toNat 0 5)

/-- Moves returned blocks of the started frame to the wire; at the block that ends the frame, hands it on. A status bit 27
marks a frame ended early, bit 28 a propagated FCS error: both invert the FCS (R182, R183). The result counts the frames
forwarded whole. -/
def pumpBlocks (wire : List Byte) (out : List (List Byte × Bool)) :
    List Block → List Byte × List (List Byte × Bool) × List Block × Bool × Nat
  | [] => (wire, out, [], true, 0)
  | b :: t =>
    let w := wire ++ b.bytes
    if stEof b.status then
      ([], out ++ [(w, b.status.getLsbD 27 || b.status.getLsbD 28)], t, false, bit (!b.status.getLsbD 27))
    else pumpBlocks w out t

/-- Sends on what has been returned of a frame whose egress has started. -/
def State.pump (s : State) (l : Nat) : State :=
  let x := s.lane l
  if x.egress then
    let (w, o, t, eg, n) := pumpBlocks x.wire x.out x.tx
    let s := s.updLane l fun x => { x with wire := w, out := o, tx := t, egress := eg, linger := if eg then x.linger else none }
    s.count (ETH_LANE_FWD l) n
  else s

/-- Whether the oldest frame of the egress buffer may start: 1 + TXHOLD blocks of it, or its end, have been returned. -/
def State.laneReady (s : State) (l : Nat) : Bool :=
  let x := s.lane l
  !x.egress && (Nat.ble (1 + s.fld (ETH_LANE_CTL l) ETH_LANE_CTL_TXHOLD) x.tx.length || x.tx.any fun b => stEof b.status)

/-- The egress of lane `l`'s oldest frame starts (R289). -/
def State.laneStart (s : State) (l : Nat) : State :=
  if s.laneReady l then (s.updLane l fun x => { x with egress := true }).pump l else s

/-- Marks the last returned block as the end of a frame ended early (R182). -/
def cutLast (l : List Block) : List Block :=
  match l.reverse with
  | [] => []
  | b :: t => if stEof b.status then l else (⟨b.data, b.status ||| 0x48000000⟩ :: t).reverse

/-- The egress frame is ended early (R182): what was delivered is sent with an inverted FCS. -/
def State.endEgress (s : State) (l : Nat) : State :=
  let x := s.lane l
  if x.egress && x.tx.isEmpty then
    s.updLane l fun x => { x with egress := false, wire := [], out := x.out ++ [(x.wire, true)] }
  else (s.updLane l fun x => { x with tx := cutLast x.tx }).pump l

/-- Replaces the blocks of frame `f` not yet taken by one error block with code `errc` (R182). -/
def errBlock (f errc nidx : Nat) (rx : List Block) : List Block :=
  let mine := rx.filter fun b => bitsOf b.status.toNat 18 6 == f % 64
  let idx := match mine with
    | [] => nidx
    | b :: _ => bitsOf b.status.toNat 8 10
  (rx.filter fun b => bitsOf b.status.toNat 18 6 != f % 64) ++ [⟨[], mkStatus 0 errc idx f true⟩]

/-- Ends the frame being received for the primary with error code `errc` (R182); its egress ends early. -/
def State.cutPrimary (s : State) (l errc : Nat) : State :=
  let x := s.lane l
  let s := s.updLane l fun x => { x with rxP := errBlock x.fseq errc x.bidx x.rxP, cutP := true, skipP := true }
  if x.egress || !x.tx.isEmpty then s.endEgress l else s

/-- Ends the frame being received for the shadow with error code 3, and sets SHDLAG (R186). -/
def State.cutShadow (s : State) (l : Nat) : State :=
  let was := s.flag (ETH_LANE_STAT l) ETH_LANE_STAT_SHDLAG
  let s := s.updLane l fun x => { x with rxS := errBlock x.fseq 3 x.bidx x.rxS, cutS := true }
  let s := s.setFlag (ETH_LANE_STAT l) ETH_LANE_STAT_SHDLAG true
  if was then s else s.ringLane l

/-- The primary of lane `l` is lost: the frame in transit ends early and the lane counts as without primary until its engine
runs again (R178, R182). -/
def State.losePrimary (s : State) (l : Nat) : State :=
  let x := s.lane l
  let busy := x.inFrame || x.egress || !x.rxP.isEmpty || !x.heldP.isEmpty || !x.tx.isEmpty
  let s := if x.egress || !x.tx.isEmpty then s.endEgress l else s
  let s := if busy then s.countSat (ETH_LANE_CUT l) 1 else s
  let old := s.laneState l
  (s.updLane l fun x => { x with rxP := [], heldP := [], cutP := true, skipP := true, absent := true }).ringLaneChange l old

/-- Shadow delivery of lane `l` ends at once (R178). -/
def State.loseShadow (s : State) (l : Nat) : State :=
  s.updLane l fun x => { x with rxS := [], heldS := [], cutS := true, aheadS := [], aheadP := 0 }

/-- Engine `e` is reset, isolated or stopped by a double fault: its lane goes on without it (R178). -/
def State.laneEngineGone (s : State) (e : Nat) : State :=
  match s.laneOf e with
  | some (l, true) => s.losePrimary l
  | some (l, false) => s.loseShadow l
  | none => s

/-- Engine `e` runs again: its lane has its primary back (R178). -/
def State.laneEngineRuns (s : State) (e : Nat) : State :=
  match s.laneOf e with
  | some (l, true) =>
    let old := s.laneState l
    (s.updLane l fun x => { x with absent := false }).ringLaneChange l old
  | _ => s

/-! ### Ingress -/

/-- Delivers one block of the frame being received to primary and shadow; a full buffer of 16 overruns (R182, R186). -/
def State.laneBlock (s : State) (l : Nat) (b : Block) : State :=
  let x := s.lane l
  let s :=
    if x.cutP then s
    else if 16 ≤ x.rxP.length then (s.cutPrimary l 3).countSat (ETH_LANE_OVR l) 1
    else s.updLane l fun x => { x with rxP := x.rxP ++ [b] }
  let s :=
    if (s.shadowOf l).isNone || x.cutS then s
    else if 16 ≤ x.rxS.length then s.cutShadow l
    else
      let s := s.updLane l fun x => { x with rxS := x.rxS ++ [b] }
      if stEof b.status then s.setFlag (ETH_LANE_STAT l) ETH_LANE_STAT_SHDLAG false else s
  s.updLane l fun x => { x with bidx := x.bidx + 1, inBytes := x.inBytes + bitsOf b.status.toNat 0 5 }

/-- Delivers a chunk of a frame as 16-byte blocks; `fuel` bounds the blocks. -/
def State.laneChunk (s : State) (l : Nat) (last : Bool) (errc : Nat) : Nat → List Byte → State
  | 0, _ => s
  | fuel + 1, bs =>
    if bs.isEmpty then s
    else
      let rest := bs.drop 16
      let eof := last && rest.isEmpty
      let x := s.lane l
      let total := x.inBytes + (bs.take 16).length
      let code := if eof then (if errc != 0 then errc else if total + 4 < 64 then 5 else 0) else 0
      if 9216 < total + 4 && !x.cutP then
        ((s.cutPrimary l 4).countSat (ETH_LANE_CUT l) 1).updLane l fun x => { x with cutS := true, inBytes := total }
      else
        let s := s.laneBlock l ⟨bs.take 16, mkStatus (min 16 bs.length) code x.bidx x.fseq eof⟩
        State.laneChunk s l last errc fuel rest

/-- The stamp of a frame received at port `p` now: the clock selected for the port (R27, R185). -/
def State.portClock (s : State) (p : Nat) : Nat := (s.reg (ETH_TSCFG p)).toNat % 4

/-- A part of a frame received on the ingress port of lane `l` (R179, R180): `first` carries its SFD, `last` its end, `err` an
FCS (1) or alignment (2) error; its end counts the frame in the port's statistics (R308). Without an active primary, NOENG drops
and counts the frame. -/
def laneIngressFrame (l : Nat) (first last : Bool) (chunk : List Byte) (err : Nat) (s : State) : State :=
  if s.laneState l != 1 then
    let s := if first && s.flag (ETH_LANE_CTL l) ETH_LANE_CTL_NOENG then s.countSat (ETH_LANE_DROP l) 1 else s
    s.updLane l fun x => { x with inFrame := false }
  else if !first && !(s.lane l).inFrame then s
  else
    let clk := s.portClock (laneIn l)
    let s := if first then
        s.updLane l fun x => { x with
          fseq := (x.fseq + 1) % 64, inFrame := true, inBytes := 0, bidx := 0, cutP := false, cutS := (s.shadowOf l).isNone
          stamps := ((x.fseq + 1) % 64, s.t32 clk, clk) :: x.stamps.take 63 }
      else s
    let s := s.setFlag (ETH_LANE_STAT l) ETH_LANE_STAT_INFRM true
    let s := s.laneChunk l last err (chunk.length / 16 + 1) chunk
    let p := laneIn l
    let n := (s.lane l).inBytes + 4
    let s := if !last then s
      else if err = 1 then s.countSat (ETH_RXFCS p) 1
      else if err = 2 then s.countSat (ETH_RXALN p) 1
      else if n < 64 then s.countSat (ETH_RXRUNT p) 1
      else (s.count (ETH_RXOK p) 1).count (ETH_RXOCT p) n
    if last then (s.updLane l fun x => { x with inFrame := false }).setFlag (ETH_LANE_STAT l) ETH_LANE_STAT_INFRM false else s

/-- LANE_INGRESS_FRAME (R179). -/
def execLaneIngressFrame (l : Fin 6) (first last : Bool) (chunk : List Byte) (err : Fin 3) (s : State) :
    Host.Outcome State Fault Refusal := .next (laneIngressFrame l first last chunk err s)

/-! ### SRX and STX at the lane (R180-R182) -/

/-- The block that engine `e` takes by SRX, and the state after it has been taken. -/
def State.laneTake (s : State) (e : Nat) : Option (Block × State) :=
  match s.laneOf e with
  | some (l, true) =>
    match (s.lane l).rxP with
    | [] => none
    | b :: t => some (b, s.updLane l fun x => { x with
        rxP := t, heldP := x.heldP ++ [b]
        lastP := if stSof b.status then some (bitsOf b.status.toNat 18 6) else x.lastP })
  | some (l, false) =>
    match (s.lane l).rxS with
    | [] => none
    | b :: t => some (b, s.updLane l fun x => { x with
        rxS := t, heldS := x.heldS ++ [b]
        lastS := if stSof b.status then some (bitsOf b.status.toNat 18 6) else x.lastS })
  | none => none

/-- Folds a returned block into a running frame CRC. -/
def foldCrc (c : Word) (b : Block) : Word :=
  b.bytes.foldl (crcByte polyC) (if stSof b.status then ~~~(0 : Word) else c)

/-- An STX of the primary that does not match: discarded, counted, the frame in transit ended early (R181). -/
def State.stxMismatch (s : State) (l : Nat) : State :=
  let s := ((s.countSat (ETH_LANE_SEQERR l) 1).countSat (ETH_LANE_CUT l) 1).endEgress l
  s.updLane l fun x => { x with skipP := true }

/-- An STX of the primary that matches the oldest block held `h`: forwarded, or the frame is dropped or cut as the engine asks
(R182). -/
def State.stxAccept (s : State) (l : Nat) (h b : Block) : State :=
  let x := s.lane l
  let c := foldCrc x.crcP b
  let s := if stEof b.status then s.setReg (ETH_LANE_CMPP l) (~~~c) else s
  let s := s.updLane l fun x => { x with
    crcP := c, skipP := false, aheadS := x.aheadS.drop 1, aheadP := if x.aheadS.isEmpty then x.aheadP + 1 else x.aheadP }
  let errIn := bitsOf h.status.toNat 5 3 == 1 || bitsOf h.status.toNat 5 3 == 2
  if 0 < x.dup then s.updLane l fun x => { x with dup := x.dup - 1 }
  else if b.status.getLsbD 28 && !x.egress then
    -- DROP before the egress has started: the frame is discarded without any transmission
    (s.updLane l fun x => { x with
      tx := (x.tx.reverse.dropWhile fun q => !stEof q.status).reverse, skipP := !stEof b.status }).countSat (ETH_LANE_DROP l) 1
  else if b.status.getLsbD 27 || b.status.getLsbD 28 then
    ((s.updLane l fun x => { x with
      tx := x.tx ++ [⟨b.data, (b.status &&& ~~~0x10000000) ||| 0x48000000⟩], skipP := !stEof b.status }).countSat
        (ETH_LANE_CUT l) 1).pump l
  else
    (s.updLane l fun x => { x with
      tx := x.tx ++ [⟨b.data, b.status ||| (if errIn then 0x10000000 else 0)⟩] }).pump l

/-- Engine `e` hands block `b` to its lane by STX. -/
def State.laneGive (s : State) (e : Nat) (b : Block) : State :=
  match s.laneOf e with
  | some (l, true) =>
    let x := s.lane l
    if x.skipP && !stSof b.status then
      match x.heldP with
      | h :: t => if stMatch h.status = stMatch b.status then s.updLane l fun x => { x with heldP := t } else s
      | [] => s
    else
      let held := if x.skipP then x.heldP.dropWhile fun h => !stSof h.status else x.heldP
      match held with
      | [] => s.stxMismatch l
      | h :: t =>
        if stMatch h.status = stMatch b.status then (s.updLane l fun x => { x with heldP := t }).stxAccept l h b
        else (s.updLane l fun x => { x with heldP := held }).stxMismatch l
  | some (l, false) =>
    let x := s.lane l
    match x.heldS with
    | [] => s
    | h :: t =>
      if stMatch h.status = stMatch b.status then
        let c := foldCrc x.crcS b
        let s := if stEof b.status then s.setReg (ETH_LANE_CMPS l) (~~~c) else s
        s.updLane l fun x => { x with
          heldS := t, crcS := c, aheadP := x.aheadP - 1, aheadS := if x.aheadP = 0 then x.aheadS ++ [b] else x.aheadS }
      else s
  | none => s

/-! ### Underrun, control, swap -/

/-- The egress needs a byte not yet delivered: the frame ends early and UNDR counts (R182). -/
def egressUnderrun (l : Nat) (s : State) : State :=
  let x := s.lane l
  if x.egress && x.tx.isEmpty then
    (((s.endEgress l).countSat (ETH_LANE_UNDR l) 1).updLane l fun x => { x with skipP := true })
  else s

/-- EGRESS_UNDERRUN (R182). -/
def execEgressUnderrun (l : Fin 6) (s : State) : Host.Outcome State Fault Refusal := .next (egressUnderrun l s)

/-- Whether engine `e` may serve lane `l` (R189): class C, not ISOLATED, not on another lane. -/
def State.laneEngineOk (s : State) (l e : Nat) : Bool :=
  Nat.blt (e % 8) 2 && (s.eng e).st != .isolated &&
    (List.range 6).all fun k => k == l || (s.primaryOf k != some e && s.shadowOf k != some e)

/-- A request to swap primary and shadow (R187). -/
def State.askSwap (s : State) (l : Nat) : State :=
  if s.flag (ETH_LANE_CTL l) ETH_LANE_CTL_SHDEN && !s.flag (ETH_LANE_STAT l) ETH_LANE_STAT_SHDLAG then
    ((s.setFlag (ETH_LANE_CTL l) ETH_LANE_CTL_SWAP true).setFlag (ETH_LANE_STAT l) ETH_LANE_STAT_SWAPREF false).updLane l
      fun x => { x with swap := true }
  else s.setFlag (ETH_LANE_STAT l) ETH_LANE_STAT_SWAPREF true

/-- A Keep write of ETH_LANEl_CTL (R188, R189): an attachment that R189 refuses leaves both fields and both enables and sets
CFGERR; the other fields are written, and a SWAP bit written as 1 asks for a swap. -/
def laneCtlWrite (i : Init) (l : Nat) (v : Word) (s : State) : State :=
  if i != .keep then s.answer .busError
  else
    let a := ETH_LANE_CTL l
    let pri := ETH_LANE_CTL_PRI.get v
    let pen := v.getLsbD 5
    let shd := ETH_LANE_CTL_SHD.get v
    let sen := v.getLsbD 13
    let ok := (!pen || s.laneEngineOk l pri) && (!sen || s.laneEngineOk l shd) && !(pen && sen && pri == shd)
    let x := s.lane l
    let hadP := s.flag a ETH_LANE_CTL_PRIEN
    let oldP := s.fld a ETH_LANE_CTL_PRI
    let hadS := s.flag a ETH_LANE_CTL_SHDEN
    let oldS := s.fld a ETH_LANE_CTL_SHD
    let st := s.laneState l
    let wr : Word := if ok then 0xFF1E3F3F else 0xFF1E0000
    let s := s.setReg a ((s.reg a &&& ~~~wr) ||| (v &&& wr))
    let s := s.setFlag (ETH_LANE_STAT l) ETH_LANE_STAT_CFGERR !ok
    let s :=
      if !ok then s
      else
        let s := if hadS && (!sen || oldS != shd) then s.loseShadow l else s
        if hadP && !pen then
          if x.inFrame || x.egress || !x.tx.isEmpty then s.updLane l fun x => { x with linger := some oldP }
          else s.updLane l fun x => { x with rxP := [], heldP := [], absent := false, linger := none }
        else if pen && (!hadP || oldP != pri) then
          s.updLane l fun x => { x with
            rxP := [], heldP := [], cutP := true, skipP := false, absent := !((s.eng pri).run), linger := none, lastP := none }
        else s
    let s := if v.getLsbD 16 then s.askSwap l else s
    (s.ringLaneChange l st).answer .ok

/-- LANE_CTL_WRITE (R189). -/
def execLaneCtlWrite (i : Init) (l : Fin 6) (v : Word) (s : State) : Host.Outcome State Fault Refusal :=
  .next (s.gate i (ETH_LANE_CTL l) (laneCtlWrite i l v))

/-- A Keep write of SWAP = 1 (R187). -/
def laneSwap (i : Init) (l : Nat) (s : State) : State :=
  if i != .keep then s.answer .busError else (s.askSwap l).answer .ok

/-- LANE_SWAP (R187). -/
def execLaneSwap (i : Init) (l : Fin 6) (s : State) : Host.Outcome State Fault Refusal :=
  .next (s.gate i (ETH_LANE_CTL l) (laneSwap i l))

/-- An accepted swap takes effect (R187): PRI and SHD exchange their values, the lane forwards the new primary's blocks from
the first one not yet in the egress buffer, SWAP reads 0, and the doorbell rings. -/
def laneSwapEffect (l : Nat) (s : State) : State :=
  let x := s.lane l
  if x.swap then
    let a := ETH_LANE_CTL l
    let p := s.fld a ETH_LANE_CTL_PRI
    let h := s.fld a ETH_LANE_CTL_SHD
    let s := ((s.setFld a ETH_LANE_CTL_PRI h).setFld a ETH_LANE_CTL_SHD p).setFlag a ETH_LANE_CTL_SWAP false
    let s := s.updLane l fun x => { x with
      swap := false, rxP := x.rxS, rxS := x.rxP, heldP := x.heldS, heldS := x.heldP, crcP := x.crcS, crcS := x.crcP
      lastP := x.lastS, lastS := x.lastP, cutP := x.cutS, cutS := x.cutP, skipP := false
      tx := x.tx ++ x.aheadS, aheadS := [], dup := x.aheadP, aheadP := 0 }
    (s.pump l).ringLane l
  else s

/-- LANE_SWAP_EFFECT (R187). -/
def execLaneSwapEffect (l : Fin 6) (s : State) : Host.Outcome State Fault Refusal := .next (laneSwapEffect l s)

/-! ### Lane registers -/

/-- The clock and stamp of the frame whose SOF block engine `e` (else the primary) last took (R185). -/
def State.laneStamp (s : State) (l : Nat) (i : Init) : Word × Word :=
  let x := s.lane l
  let f := match i with
    | .engine e => if s.shadowOf l = some e.val then x.lastS else x.lastP
    | _ => x.lastP
  match f with
  | none => (0, 0)
  | some f =>
    match x.stamps.find? fun t => t.1 == f with
    | none => (0, 0)
    | some (_, t, c) => (t, word (c + f * 2 ^ 8))

/-- A register read of lane `l` at offset `o` of its window. -/
def laneRead (i : Init) (events : Word) (l o : Nat) (s : State) : State :=
  let a := ETH_LANE_CTL l + o
  if o = 4 then
    let w := s.reg a
    let w := ETH_LANE_STAT_STATE.put w (s.laneState l)
    let w := ETH_LANE_STAT_TXLVL.put w (s.lane l).tx.length
    let remote := match s.primaryOf l with
      | some e => e / 8 != laneHome l
      | none => false
    s.answerWord (ETH_LANE_STAT_REMOTE.put w (bit remote))
  else if o = 8 then s.answerWord (s.laneStamp l i).1
  else if o = 12 then s.answerWord (s.laneStamp l i).2
  else s.plainRead events a

/-- A register write in the window of lane `l` at offset `o`. -/
def laneWrite (i : Init) (l o : Nat) (v : Word) (s : State) : State :=
  if i != .keep then s.answer .busError
  else if o = 0 then laneCtlWrite i l v s
  else s.plainWrite true (ETH_LANE_CTL l + o) v

end Sys2Proof.Machine
end

