-- ==== Sys2Proof/Machine/Engines.lean ====
section
/-! DEFINITION. Engine control: events, control-register values, run and halt, resets, isolation, state images, self-test, clock
gating, the MPU registers, program stores and the program loader (R62-R65, R103-R105, R159-R174).
Choices of the model: log entries 12, 18, 19, 26. -/

set_option autoImplicit false

namespace Sys2Proof.Machine

open Sys2Proof

/-! ### Classes, events and control registers -/

/-- Whether processor `e` has loops and control registers 0x3-0xC: class C engines, the Keep, Yofiaz-S (R83, R149). -/
def hasLoops (e : Nat) : Bool := Nat.ble 32 e || Nat.blt (e % 8) 2

/-- Whether processor `e` is a Cupola core (Yofiaz-S, R149). -/
def isSafe (e : Nat) : Bool := Nat.ble 33 e

/-- EV0 of processor `e` (R63, R516): its agent's doorbell; on the Cupola cores, MBX124 or MBX125 FULL. -/
def State.ev0 (s : State) (e : Nat) : Bool :=
  if isSafe e then s.flag (XCH_MBX_STAT 124) XCH_MBX_STAT_FULL || s.flag (XCH_MBX_STAT 125) XCH_MBX_STAT_FULL
  else
    let a := if e = 32 then 1 else 4 + e
    (s.reg (XCH_A_DB_PEND a) &&& s.reg (XCH_A_DB_MASK a)) != 0

/-- EVPEND[7:0] of processor `e`: latched bits and levels (R63). -/
def State.evPending (s : State) (e : Nat) : BitVec 8 :=
  ((s.eng e).evpend &&& 0xF2) ||| BitVec.ofNat 8 (bit (s.ev0 e) + 4 * bit (s.ev2 e) + 8 * bit (s.ev3 e))

/-- The PSW as read: TRAPDZ reads 1 on Yofiaz-S (R149). -/
def pswRead (e : Nat) (x : Engine) : Word := if isSafe e then x.psw ||| 0x200 else x.psw

/-- The PSW with its writable fields taken from `v` (R56, R130, R149). -/
def pswWrite (e : Nat) (v : Word) : Word := if isSafe e then v &&& 0x13F else v &&& 0x33F

/-- ENGID of processor `e` (R64): engine, tower, class; on the Keep only KEEP. The Cupola cores, which the spec gives no
identity, read 0 there (DESIGN CHOICE, log entry 12). -/
def engId (e : Nat) : Word :=
  if e < 32 then word (e % 8 + e / 8 * 8 + (if e % 8 < 2 then 0 else 32)) else if e = 32 then 0x40 else 0

/-- Loop depth and base after a write of LCTL (R64). -/
def Engine.setLctl (x : Engine) (depth base : Nat) : Engine := { x with depth := depth % 4, base := min (base % 4) (depth % 4) }

/-- The value of control register `y` (R62). -/
def State.crRead (s : State) (e y : Nat) : Word :=
  let x := s.eng e
  match y with
  | 0 => pswRead e x
  | 1 => (s.evPending e).zeroExtend 32
  | 2 => x.evie.zeroExtend 32
  | 3 => word (x.depth + 4 * x.base)
  | 4 => (x.ls.getD 0 0).zeroExtend 32
  | 5 => (x.le.getD 0 0).zeroExtend 32
  | 6 => x.lc.getD 0 0
  | 7 => (x.ls.getD 1 0).zeroExtend 32
  | 8 => (x.le.getD 1 0).zeroExtend 32
  | 9 => x.lc.getD 1 0
  | 10 => (x.ls.getD 2 0).zeroExtend 32
  | 11 => (x.le.getD 2 0).zeroExtend 32
  | 12 => x.lc.getD 2 0
  | 13 => x.tmr
  | 14 => engId e
  | _ => x.cycle

/-! ### Program-store fetch of one word (R170) -/

/-- The fabric address of program word `w` of engine `e` (R32). -/
def progAddr (e w : Nat) : Nat := 0x50000000 + 0x10000 * e + 2 * (w % 16384)

/-- A fetch of program word `w` by processor `e`: whether it is uncorrectable; a single-bit error is corrected, written back
and counted (R170). -/
def State.fetchWord (s : State) (e w : Nat) : Bool × State :=
  if e < 32 then s.checkGranule .prog e false (progAddr e w) else (false, s)

/-! ### Reset and isolation (R47, R65, R165, R167) -/

/-- The architectural state takes the values of R47 and R65, the PC program word `w0`; SYS_Ete_EXC becomes 0. -/
def Engine.zero (x : Engine) (w0 : PWord) : Engine :=
  { Engine.init with
    pc := w0, st := x.st, clken := x.clken, run := x.run, starting := x.starting, delayed := x.delayed, action := x.action,
    actErr := x.actErr, snapErr := x.snapErr, testRes := x.testRes, lastPc := x.lastPc }

/-- The number of transactions that requester `r` has outstanding (R21). -/
def State.outCount (s : State) (r : Nat) : Nat := (s.outst.filter fun t => t.rpn == r).length

/-- Address of the state image of engine `e`. -/
def State.imageAddr (s : State) (e : Nat) : Nat := (s.reg (SYS_E_SNAPA e)).toNat / 64 * 64

/-- 192 bytes at the image address become free values: a SNAP failed or was cut (R164). -/
def State.freeImage (s : State) (e : Nat) : State :=
  let a := s.imageAddr e
  match s.region a with
  | .tower | .central | .dram =>
    (List.range 48).foldl (fun s j => let (w, s) := s.free; s.setMemWord (a + 4 * j) w) s
  | _ => s

/-- RST or ISO ends a SNAP, RESTORE or TEST in progress (R162, R164, R168). -/
def State.cutAction (s : State) (e : Nat) : State :=
  match (s.eng e).action with
  | .snap => (s.freeImage e).updEng e fun x => { x with snapErr := true, action := .none }
  | .restore => s.updEng e fun x => { x with snapErr := true, action := .none }
  | _ => s.updEng e fun x => { x with action := .none }

/-- Step 1 of R165: the engine stops issuing at once; its lane treats it as absent (R178). -/
def State.stopEngine (s : State) (e : Nat) : State :=
  ((s.cutAction e).laneEngineGone e).updEng e fun x =>
    { x with stall := .none, haltReq := false, run := false, delayed := none, imprecise := none }

/-- RST or a partial reset of the tower (R165): held in RESET until the reset sequence completes; nothing on an ISOLATED
engine (R160). -/
def State.engineRst (s : State) (e : Nat) : State :=
  if (s.eng e).st = .isolated then s
  else (s.stopEngine e).updEng e fun x => { x with st := .reset, action := .rst }

/-- ISO (R167): the engine stops at once and is disconnected until power-on reset. -/
def State.engineIso (s : State) (e : Nat) : State := (s.stopEngine e).updEng e fun x => { x with st := .isolated }

/-- The reset sequence of engine `e` completes (R165): state of R47 and R65, epoch advanced, RUN 0, HALTED. -/
def State.engineFresh (s : State) (e : Nat) : State :=
  (s.updEng e fun x => { x.zero (s.progWord e 0) with st := .halted, run := false, action := .none }).advanceEpoch (4 + e)

/-- An engine's reset sequence ends once its transactions have settled (R165); after power-on reset it ends without an epoch
advance (SYS_Ete_EPOCH). -/
def engineResetComplete (e : Nat) (s : State) : State :=
  let x := s.eng e
  if x.st = .reset && s.outCount e = 0 then
    if x.action = .rst then s.engineFresh e
    else s.updEng e fun x => { x.zero (s.progWord e 0) with st := .halted }
  else s


/-! ### SYS_Ete_CTL (R161, R162, R166) -/

/-- Whether the program loader is BUSY on engine `e`'s program store (R162, R172). -/
def State.loaderOn (s : State) (e : Nat) : Bool :=
  s.fld SYS_LDR_STAT SYS_LDR_STAT_STATE == 1 && !(s.flag SYS_LDR_CTL SYS_LDR_CTL_MODE) &&
    bitsOf (s.reg SYS_LDR_DST).toNat 16 5 == e

/-- STAT.BUSY: SNAP, RESTORE or TEST in progress, or a delayed action (R161, R166). -/
def Engine.busy (x : Engine) : Bool :=
  x.action == .snap || x.action == .restore || x.action == .test || x.delayed.isSome

/-- The engine clock is gated now (R166, R167). -/
def Engine.gated (x : Engine) : Bool :=
  x.st == .isolated || (!x.clken && (x.st == .reset || x.st == .halted || x.st == .dfault))

/-- The action that a CTL write asks for: the first in the order ISO, RST, TEST, RESTORE, SNAP, STEP (R162). -/
inductive CtlAct where
  | none | iso | rst | test | restore | snap | step
deriving DecidableEq, Repr

/-- The action of a CTL value. -/
def ctlAct (v : Word) : CtlAct :=
  if v.getLsbD 3 then .iso
  else if v.getLsbD 1 then .rst
  else if v.getLsbD 7 then .test
  else if v.getLsbD 6 then .restore
  else if v.getLsbD 5 then .snap
  else if v.getLsbD 4 then .step
  else .none

/-- ENGINE_ACTION_REFUSED (R162): ACTERR is set. -/
def State.refuseAct (s : State) (e : Nat) : State := s.updEng e fun x => { x with actErr := true }

/-- A write of RUN (R162, R163): RUN := 1 starts a HALTED engine or withdraws a halt request; RUN := 0 requests a halt; ignored
in ISOLATED, DFAULT and TEST. -/
def State.writeRun (s : State) (e : Nat) (on : Bool) : State :=
  let x := s.eng e
  if x.st = .isolated || x.st = .dfault || x.st = .test then s
  else if !on then
    s.updEng e fun x => { x with run := false, haltReq := x.haltReq || x.st == .running || x.st == .waiting }
  else if s.loaderOn e || x.busy then s.refuseAct e
  else
    let s := s.updEng e fun x => { x with
      run := true, haltReq := false, actErr := false, st := if x.st = .halted then .running else x.st }
    if x.st = .halted then s.laneEngineRuns e else s

/-- Applies RUN or the action of a CTL value to an engine whose clock runs; `stepFn` executes a STEP. -/
def State.applyCtl (stepFn : Nat → State → State) (s : State) (e : Nat) (v : Word) : State :=
  let x := s.eng e
  let ok (s : State) : State := s.updEng e fun x => { x with actErr := false }
  match ctlAct v with
  | .test =>
    if x.st = .halted && (s.laneOf e).isNone && !s.loaderOn e && !x.busy then
      ((ok s).updEng e fun x => { x with st := .test, action := .test }).destroyStore e
    else (s.writeRun e (v.getLsbD 0)).refuseAct e
  | .restore =>
    if x.st = .halted && !s.loaderOn e && !x.busy then (ok s).updEng e fun x => { x with action := .restore }
    else (s.writeRun e (v.getLsbD 0)).refuseAct e
  | .snap =>
    if (x.st = .halted || x.st = .dfault) && !x.busy then (ok s).updEng e fun x => { x with action := .snap }
    else (s.writeRun e (v.getLsbD 0)).refuseAct e
  | .step =>
    if x.st = .halted && !s.loaderOn e && !x.busy then stepFn e (ok s)
    else (s.writeRun e (v.getLsbD 0)).refuseAct e
  | _ => s.writeRun e (v.getLsbD 0)

/-- A write of SYS_Ete_CTL with value `v` (R162, R166). A refused action leaves RUN and CLKEN to be written. -/
def State.writeCtl (stepFn : Nat → State → State) (s : State) (e : Nat) (v : Word) : State :=
  let x := s.eng e
  let clk := v.getLsbD 2
  let act := ctlAct v
  let setClk (s : State) : State := s.updEng e fun x => { x with clken := clk }
  match act with
  | .iso => ((setClk s).updEng e fun x => { x with actErr := false }).engineIso e
  | .rst =>
    if x.st = .isolated then setClk s else ((setClk s).updEng e fun x => { x with actErr := false }).engineRst e
  | _ =>
    let asks := v.getLsbD 0 || act != .none
    if x.starting && asks then setClk (s.refuseAct e)
    else if x.gated && x.st != .isolated then
      if clk then
        (setClk s).updEng e fun x =>
          { x with starting := true, delayed := if asks then some v else x.delayed, run := if asks then x.run else false }
      else if asks then s.refuseAct e
      else s.updEng e fun x => { x with run := false }
    else (setClk s).applyCtl stepFn e v

/-- A write of SYS_Ete_CTL by initiator `i`: only the Keep writes the per-engine registers (R104, R161). -/
def ctlWrite (stepFn : Nat → State → State) (i : Init) (e : Nat) (v : Word) (s : State) : State :=
  if i != .keep then s.answer .busError else (s.writeCtl stepFn e v).answer .ok

/-- CTL as it stands, with every action bit 0. -/
def State.ctlKeep (s : State) (e : Nat) : Word := word (bit (s.eng e).run + 4 * bit (s.eng e).clken)

/-- No STEP: the writes of the commands below carry none. -/
def noStep (_ : Nat) (s : State) : State := s

/-- ENGINE_RUN (R162): RUN := 1, CLKEN as it stands. -/
def execEngineRun (i : Init) (e : Fin 32) (s : State) : Host.Outcome State Fault Refusal :=
  .next (s.gate i (SYS_E_CTL e) fun (s : State) => ctlWrite noStep i e (s.ctlKeep e ||| 1) s)

/-- ENGINE_HALT_REQUEST (R163): RUN := 0. -/
def execEngineHaltRequest (i : Init) (e : Fin 32) (s : State) : Host.Outcome State Fault Refusal :=
  .next (s.gate i (SYS_E_CTL e) fun (s : State) => ctlWrite noStep i e (s.ctlKeep e &&& 4) s)

/-- RST (R165). -/
def execRst (i : Init) (e : Fin 32) (s : State) : Host.Outcome State Fault Refusal :=
  .next (s.gate i (SYS_E_CTL e) fun (s : State) => ctlWrite noStep i e (s.ctlKeep e ||| 2) s)

/-- ISO (R167). -/
def execIso (i : Init) (e : Fin 32) (s : State) : Host.Outcome State Fault Refusal :=
  .next (s.gate i (SYS_E_CTL e) fun (s : State) => ctlWrite noStep i e (s.ctlKeep e ||| 8) s)

/-- SNAP (R164). -/
def execSnap (i : Init) (e : Fin 32) (s : State) : Host.Outcome State Fault Refusal :=
  .next (s.gate i (SYS_E_CTL e) fun (s : State) => ctlWrite noStep i e (s.ctlKeep e ||| 0x20) s)

/-- RESTORE (R164). -/
def execRestore (i : Init) (e : Fin 32) (s : State) : Host.Outcome State Fault Refusal :=
  .next (s.gate i (SYS_E_CTL e) fun (s : State) => ctlWrite noStep i e (s.ctlKeep e ||| 0x40) s)

/-- TEST (R168). -/
def execEngineTest (i : Init) (e : Fin 32) (s : State) : Host.Outcome State Fault Refusal :=
  .next (s.gate i (SYS_E_CTL e) fun (s : State) => ctlWrite noStep i e (s.ctlKeep e ||| 0x80) s)

/-! ### State images (R164) -/

/-- The words of the state image of engine `e`. -/
def State.image (s : State) (e : Nat) : List Word :=
  let x := s.eng e
  x.d.toList ++ x.a.toList ++
    (List.range 4).flatMap (fun n => let c := x.ac.getD n 0; [c.truncate 32, (c >>> 32).truncate 32]) ++
    [x.pc.zeroExtend 32, 0, 0, 0, 0, 0, 0, 0] ++ (List.range 16).map (s.crRead e)

/-- The bytes of words, lowest first. -/
def wordsToBytes (l : List Word) : List Byte := l.flatMap fun w => toBytes w.toNat 4

/-- Whether the image address addresses tower SRAM, central SRAM or DRAM. -/
def State.imageOk (s : State) (e : Nat) : Bool :=
  match s.region (s.imageAddr e) with
  | .tower | .central | .dram => true
  | _ => false

/-- A SNAP ends: the image is written, or SNAPERR is set and the image is undefined (R164). -/
def snapComplete (e : Fin 32) (s : State) : State :=
  if (s.eng e).action = .snap then
    let s := s.updEng e fun x => { x with action := .none }
    if s.imageOk e then
      match s.moverWrite (.engine e) (s.imageAddr e) (wordsToBytes (s.image e)) with
      | (none, s) => s.updEng e fun x => { x with snapErr := false }
      | (some _, s) => (s.freeImage e).updEng e fun x => { x with snapErr := true }
    else s.updEng e fun x => { x with snapErr := true }
  else s

/-- SNAP_COMPLETE (R164). -/
def execSnapComplete (e : Fin 32) (s : State) : Host.Outcome State Fault Refusal := .next (snapComplete e s)

/-- Word `k` of an image's bytes. -/
def imgWord (l : List Byte) (k : Nat) : Word := word (ofBytes ((l.drop (4 * k)).take 4))

/-- The engine with the state of an image (R164): EVPEND level bits, ENGID and CYCLE are ignored. -/
def Engine.load (x : Engine) (e : Nat) (l : List Byte) : Engine :=
  let w := imgWord l
  let pw (k : Nat) : PWord := (w k).truncate 14
  { x with
    d := Vector.ofFn fun (k : Fin 8) => w k
    a := Vector.ofFn fun (k : Fin 8) => w (8 + k)
    ac := Vector.ofFn fun (k : Fin 4) => ((w (17 + 2 * k)).truncate 16 : BitVec 16) ++ w (16 + 2 * k)
    pc := pw 24
    psw := pswWrite e (w 32)
    evpend := (w 33).truncate 8 &&& 0xF2
    evie := (w 34).truncate 9
    depth := bitsOf (w 35).toNat 0 2
    base := min (bitsOf (w 35).toNat 2 2) (bitsOf (w 35).toNat 0 2)
    ls := #v[pw 36, pw 39, pw 42]
    le := #v[pw 37, pw 40, pw 43]
    lc := #v[w 38, w 41, w 44]
    tmr := w 45
    tmrNs := 0 }

/-- A RESTORE ends: the state is loaded, or SNAPERR is set and the engine's registers stay (R164). -/
def restoreComplete (e : Fin 32) (s : State) : State :=
  if (s.eng e).action = .restore then
    let s := s.updEng e fun x => { x with action := .none }
    if s.imageOk e then
      match s.moverRead (.engine e) (s.imageAddr e) 192 with
      | (l, none, s) =>
        if !hasLoops e && (List.range 10).any fun k => imgWord l (35 + k) != 0 then
          s.updEng e fun x => { x with snapErr := true }
        else s.updEng e fun x => { x.load e l with snapErr := false }
      | (_, some _, s) => s.updEng e fun x => { x with snapErr := true }
    else s.updEng e fun x => { x with snapErr := true }
  else s

/-- RESTORE_COMPLETE (R164). -/
def execRestoreComplete (e : Fin 32) (s : State) : Host.Outcome State Fault Refusal := .next (restoreComplete e s)

/-! ### Self-test (R168) -/

/-- A self-test ends: TESTRES, a failure reported (ECODE 5), and the passage through RESET to HALTED. -/
def engineTestComplete (e : Nat) (pass : Bool) (s : State) : State :=
  if (s.eng e).st = .test then
    let s := s.updEng e fun x => { x with testRes := if pass then 1 else 2 }
    let s := if pass then s else s.report 5 (resId 1 e) 0 0
    s.engineFresh e
  else s


/-! ### Clock gating (R166) -/

/-- 4 cycles after CLKEN := 1 the engine accepts actions, and a delayed RUN or action is applied, refused if CLKEN is 0 again
(R166). -/
def clkenDelayedAction (stepFn : Nat → State → State) (e : Nat) (s : State) : State :=
  let x := s.eng e
  if x.starting then
    let s := s.updEng e fun x => { x with starting := false, delayed := none }
    match x.delayed with
    | none => s
    | some v => if x.clken || x.st = .isolated then s.applyCtl stepFn e v else s.refuseAct e
  else s

/-! ### MPU registers (R103-R105) -/

/-- The bits of MPU register `off` (in words from 0x80) that a write sets. -/
def mpuMask (off : Nat) : Word :=
  if off = 0 then 1 else if off = 1 then 0 else if off % 2 = 0 then 0xFFFFFFE0 else 0x1F07

/-- A write of an MPU register (R104): only the Keep; a reserved SIZE leaves SIZE as it is. -/
def mpuWrite (i : Init) (e off : Nat) (v : Word) (s : State) : State :=
  if i != .keep then s.answer .busError
  else
    let a := SYS_E_MPU_CTL e + 4 * off
    let v := if 3 ≤ off && off % 2 = 1 then s.keepFld a SYS_E_MPU_ATTR_SIZE (fun n => Nat.blt n 5) v else v
    (s.setReg a (v &&& mpuMask off)).answer .ok

/-- MPU_REGISTER_WRITE (R104). -/
def execMpuRegisterWrite (i : Init) (e : Fin 32) (off : Fin 18) (v : Word) (s : State) : Host.Outcome State Fault Refusal :=
  .next (s.gate i (SYS_E_MPU_CTL e + 4 * off.val) (mpuWrite i e off v))

/-! ### Reads and writes of the per-engine window (R161) -/

/-- STATE codes (R159). -/
def EngState.code (t : EngState) : Nat :=
  match t with
  | .reset => 0
  | .halted => 1
  | .running => 2
  | .waiting => 3
  | .dfault => 4
  | .test => 5
  | .isolated => 6

/-- The value of the per-engine register at offset `o` of engine `e`'s window. -/
def State.engineWord (s : State) (e o : Nat) : Word :=
  let x := s.eng e
  match o with
  | 0x00 => word (bit x.run + 2 * bit (x.action == .rst) + 4 * bit x.clken + 8 * bit (x.st == .isolated) +
      32 * bit (x.action == .snap) + 64 * bit (x.action == .restore))
  | 0x04 => word (x.st.code + 8 * bit x.gated + 16 * bit (s.laneOf e).isSome + 32 * bit x.busy + 64 * x.testRes +
      256 * bit x.actErr + 512 * bit x.snapErr + 1024 * s.outCount e)
  | 0x08 => if x.st == .halted || x.st == .dfault then x.pc.zeroExtend 32 else x.lastPc.zeroExtend 32
  | 0x0C => word (x.lastVec + 32 * bit x.dflt + 65536 * x.excCnt)
  | 0x10 => s.reg (XCH_EPOCH (4 + e))
  | _ => s.reg (SYS_E_CTL e + o)

/-- A read in engine `e`'s window: the error counts clear (R9, R161). -/
def engineRead (events : Word) (e o : Nat) (s : State) : State :=
  if o = 0x14 then s.plainRead events (SYS_E_ECC e) else s.answerWord (s.engineWord e o)

/-- A write in engine `e`'s window. SNAPA is written in RESET, HALTED and DFAULT only (R161). -/
def engineWrite (stepFn : Nat → State → State) (i : Init) (e o : Nat) (v : Word) (s : State) : State :=
  if o = 0 then ctlWrite stepFn i e v s
  else if 0x80 ≤ o then mpuWrite i e ((o - 0x80) / 4) v s
  else if i != .keep then s.answer .busError
  else
    let st := (s.eng e).st
    s.plainWrite (st == .reset || st == .halted || st == .dfault) (SYS_E_CTL e + o) v

/-! ### Load port of the program stores (R32, R169, R170) -/

/-- A load-port write: whole halfwords only, in RESET or HALTED; bits [15:14] of each halfword are ignored. -/
def progWrite (i : Init) (a : Nat) (d : List Byte) (s : State) : Resp × State :=
  let e := (a - 0x50000000) / 0x10000
  let st := (s.eng e).st
  if !rights i .prog || s.region a != .prog || a % 2 != 0 || d.length % 2 != 0 || 0x8000 < a % 0x10000 + d.length then (.busError, s)
  else if st == .reset || st == .halted then
    (.ok, (List.range (d.length / 2)).foldl (fun s j =>
      (s.setProgWord e (a % 0x10000 / 2 + j) (BitVec.ofNat 14 (ofBytes ((d.drop (2 * j)).take 2)))).freshGranule (a + 2 * j)) s)
  else (.busError, s)

/-- A load-port read: corrects a single-bit error and writes it back; an uncorrectable word, or an ISOLATED engine, gives a
bus error. -/
def progRead (i : Init) (a n : Nat) (s : State) : Resp × State :=
  let e := (a - 0x50000000) / 0x10000
  if !rights i .prog || s.region a != .prog || 0x8000 < a % 0x10000 + n || (s.eng e).st == .isolated then (.busError, s)
  else
    let (bad, s) := s.checkGranules .prog i.rpn (i == .scrubber) (granules 2 a n)
    if bad then (.busError, s)
    else
      let w := a % 0x10000 / 2
      let l := (List.range (n / 2 + 1)).flatMap fun j => toBytes (s.progWord e (w + j)).toNat 2
      (.data ((l.drop (a % 2)).take n), s)

/-- PROGRAM_STORE_WRITE (R169). -/
def execProgramStoreWrite (i : Init) (addr : Nat) (data : List Byte) (s : State) : Host.Outcome State Fault Refusal :=
  let (r, s) := progWrite i addr data s
  .next ((s.answer r).reported i addr)

/-- PROGRAM_STORE_READ (R170). -/
def execProgramStoreRead (i : Init) (addr len : Nat) (upsets : List Upset) (s : State) : Host.Outcome State Fault Refusal :=
  let (r, s) := progRead i addr len (s.upset upsets)
  .next ((s.answer r).reported i addr)

/-! ### Program loader (R171-R174) -/

/-- Ends a loader operation with state `st` and error code `errc`: the doorbell rings once (R174). -/
def State.loaderEnd (s : State) (st errc : Nat) : State :=
  let s := (s.setFld SYS_LDR_STAT SYS_LDR_STAT_STATE st).setFld SYS_LDR_STAT SYS_LDR_STAT_ERRC errc
  s.ringIf (s.flag SYS_LDR_CTL SYS_LDR_CTL_DBEN) 1 (s.fld SYS_LDR_CTL SYS_LDR_CTL_DBBIT)

/-- Whether `n` bytes from `a` lie within SRAM, DRAM and the exchange region. -/
def State.inMemory (s : State) (a n : Nat) : Bool :=
  let ok (b : Nat) : Bool := match s.region b with
    | .tower | .central | .exchange | .dram => true
    | _ => false
  ok a && ok (a + n - 1) && s.region a == s.region (a + n - 1)

/-- Number of source bytes of the loader operation set up. -/
def State.loaderBytes (s : State) : Nat :=
  let n := bitsOf (s.reg SYS_LDR_LEN).toNat 0 24
  if s.flag SYS_LDR_CTL SYS_LDR_CTL_MODE then n else 2 * n

/-- The error code of the parameters set up, 0 where they are valid (R172, R173). -/
def State.loaderCheck (s : State) : Nat :=
  let src := (s.reg SYS_LDR_SRC).toNat
  let dst := (s.reg SYS_LDR_DST).toNat
  let len := bitsOf (s.reg SYS_LDR_LEN).toNat 0 24
  if s.flag SYS_LDR_CTL SYS_LDR_CTL_MODE then
    if src % 32 != 0 || dst % 32 != 0 || len % 32 != 0 || len < 32 || 0x1000000 - 32 < len ||
      !s.inMemory src len || !s.inMemory dst len || (src < dst + len && dst < src + len) then 1 else 0
  else
    let e := bitsOf dst 16 5
    let st := (s.eng e).st
    if 16384 < dst % 16384 + len || len = 0 || bitsOf dst 14 2 != 0 || bitsOf dst 21 11 != 0 || st == .isolated ||
      !s.inMemory src (2 * len) then 1
    else if !(st == .reset || st == .halted) then 2 else 0

/-- A Keep write of SYS_LDR_CTL (R171, R172): GO while not BUSY checks the parameters and starts the operation. -/
def loaderCtl (i : Init) (v : Word) (s : State) : State :=
  if i != .keep then s.answer .busError
  else if s.fld SYS_LDR_STAT SYS_LDR_STAT_STATE == 1 then
    s.answer (if ((s.reg SYS_LDR_CTL ^^^ v) &&& 0x3FC) != 0 then .busError else .ok)
  else
    let s := s.setReg SYS_LDR_CTL (v &&& 0x3FC)
    if v.getLsbD 0 then
      let s := ((s.setFlag SYS_LDR_STAT SYS_LDR_STAT_ABORTED false).setFlag SYS_LDR_STAT SYS_LDR_STAT_TOOLATE false).setReg
        SYS_LDR_RCRC 0
      match s.loaderCheck with
      | 0 =>
        { (s.setFld SYS_LDR_STAT SYS_LDR_STAT_STATE 1).setFld SYS_LDR_STAT SYS_LDR_STAT_ERRC 0 with
          loader := ⟨0, ~~~(0 : Word), false⟩ }.answer .ok
      | c => (s.loaderEnd 3 c).answer .ok
    else s.answer .ok

/-- LOADER_GO (R172). -/
def execLoaderGo (i : Init) (v : Word) (s : State) : Host.Outcome State Fault Refusal :=
  .next (s.gate i SYS_LDR_CTL (loaderCtl i (v ||| 1)))

/-- Program words written from halfwords; stops with an error code (R172): 5 at a halfword with bits [15:14], 4 at a
destination that refuses. -/
def State.loadWords (s : State) (e : Nat) : Nat → List Byte → Nat × State
  | w, b0 :: b1 :: t =>
    if bitsOf b1.toNat 6 2 != 0 then (5, s)
    else
      match progWrite .loader (progAddr e w) [b0, b1] s with
      | (.ok, s) => State.loadWords s e (w + 1) t
      | (_, s) => (4, s)
  | _, _ => (0, s)

/-- One 32-byte unit (or its rest) of the loader operation, at byte offset `o` of the source. -/
def State.loaderUnit (s : State) (o n : Nat) : Nat × State :=
  let src := (s.reg SYS_LDR_SRC).toNat + o
  let (l, f, s) := s.moverRead .loader src n
  match f with
  | some .uncorrectable => (7, s)
  | some _ => (3, s)
  | none =>
    let s := { s with loader := { s.loader with done := o + n, crc := l.foldl (crcByte polyC) s.loader.crc } }
    let dst := (s.reg SYS_LDR_DST).toNat
    if s.flag SYS_LDR_CTL SYS_LDR_CTL_MODE then
      match s.moverWrite .loader (dst + o) l with
      | (none, s) => (0, s)
      | (some _, s) => (4, s)
    else s.loadWords (bitsOf dst 16 5) (dst % 16384 + o / 2) l

/-- Units of the loader operation from byte offset `o`, at most `k`, until an error code arises. -/
def State.loaderRun (s : State) (total : Nat) : Nat → Nat → Nat × State
  | 0, _ => (0, s)
  | k + 1, o =>
    if total ≤ o then (0, s)
    else
      match s.loaderUnit o (min 32 (total - o)) with
      | (0, s) => State.loaderRun s total k (o + 32)
      | r => r

/-- Ends the operation after at most `k` units: ERROR where one failed, else DONE with ABORTED, or the CRC check at the end. -/
def State.loaderFinish (s : State) (k : Nat) (aborted : Bool) : State :=
  let (c, s) := s.loaderRun s.loaderBytes k 0
  let s := s.setReg SYS_LDR_RCRC (~~~s.loader.crc)
  if c != 0 then s.loaderEnd 3 c
  else if aborted then (s.setFlag SYS_LDR_STAT SYS_LDR_STAT_ABORTED true).loaderEnd 2 0
  else if s.flag SYS_LDR_CTL SYS_LDR_CTL_CRCCHK && s.reg SYS_LDR_RCRC != s.reg SYS_LDR_CRC then s.loaderEnd 3 6
  else s.loaderEnd 2 0

/-- ABORT (R174): `units` 32-byte units are copied before it takes effect, or it comes after the commit point (`none`, or no
fewer units than the operation has) and sets TOOLATE; without effect while not BUSY. -/
def loaderAbort (i : Init) (units : Option Nat) (s : State) : State :=
  if i != .keep then s.answer .busError
  else if s.fld SYS_LDR_STAT SYS_LDR_STAT_STATE != 1 then s.answer .ok
  else
    match units with
    | some k =>
      if 32 * k < s.loaderBytes then (s.loaderFinish k true).answer .ok
      else (s.setFlag SYS_LDR_STAT SYS_LDR_STAT_TOOLATE true).answer .ok
    | none => (s.setFlag SYS_LDR_STAT SYS_LDR_STAT_TOOLATE true).answer .ok

/-- LOADER_ABORT (R174). -/
def execLoaderAbort (i : Init) (units : Option Nat) (s : State) : Host.Outcome State Fault Refusal :=
  .next (s.gate i SYS_LDR_CTL (loaderAbort i units))

/-- The operation runs to its end (R174). -/
def loaderComplete (s : State) : State :=
  if s.fld SYS_LDR_STAT SYS_LDR_STAT_STATE == 1 then s.loaderFinish (s.loaderBytes / 32 + 1) false else s

/-- LOADER_COMPLETE (R174). -/
def execLoaderComplete (s : State) : Host.Outcome State Fault Refusal := .next (loaderComplete s)

/-- A write of a loader register (R171): only the Keep; RWQ fields while not BUSY. CTL with GO, or ABORT alone. -/
def loaderWrite (i : Init) (a : Nat) (v : Word) (s : State) : State :=
  if i != .keep then s.answer .busError
  else if a = SYS_LDR_CTL then
    if v.getLsbD 1 && s.fld SYS_LDR_STAT SYS_LDR_STAT_STATE == 1 then
      if ((s.reg SYS_LDR_CTL ^^^ v) &&& 0x3FC) != 0 then (loaderAbort i none s).answer .busError else loaderAbort i none s
    else loaderCtl i v s
  else s.plainWrite (s.fld SYS_LDR_STAT SYS_LDR_STAT_STATE != 1) a v

/-- A read of a loader register: GO reads 1 while BUSY. -/
def loaderRead (a : Nat) (s : State) : State :=
  let busy := s.fld SYS_LDR_STAT SYS_LDR_STAT_STATE == 1
  s.answerWord (s.plainValue a ||| (if a = SYS_LDR_CTL && busy then 1 else 0))

end Sys2Proof.Machine
end

