-- ==== Sys2Proof/Machine/Calendar.lean ====
section
/-! DEFINITION. Calendar entries: enable, commit, firing, repeat, prediction and freeze (R251-R264).
Choices of the model: log entries 61, 62, 64, 65. -/

set_option autoImplicit false

namespace Sys2Proof.Machine

open Sys2Proof

/-! ### Positions of the bases (R232, R246-R250, R252) -/

/-- Signed difference `a - b` modulo `m`. -/
def modDiff (m a b : Int) : Int := (a - b + m / 2).emod m - m / 2

/-- The modulus of a base's comparisons (R252): TC 2^32 s in ns, LIN and MNS 48 bits; angle differences never wrap. -/
def baseMod (b : Nat) : Int :=
  if b < 4 then 4294967296000000000 else if b < 6 then 2 ^ 66 else 2 ^ 48

/-- Counts per revolution; 0 is reserved and acts as 1. -/
def State.cpr (s : State) (n : Nat) : Nat := max 1 (s.fld (ALM_ANG_CPR n) ALM_ANG_CPR_CPR)

/-- The angle base. -/
def State.angle (s : State) (n : Nat) : Ang := s.ang.getD n Ang.init

/-- The state with angle base `n` changed. -/
def State.updAngle (s : State) (n : Nat) (f : Ang → Ang) : State :=
  { s with ang := s.ang.setIfInBounds n (f (s.angle n)) }

/-- The angle part of a count within the revolution, with ZOFS, before reduction modulo 2^32 (R246). -/
def State.angOf (s : State) (n c : Nat) : Int := c * 2 ^ 32 / s.cpr n + (s.reg (ALM_ANG_ZOFS n)).toNat

/-- The extended angle of the last record: REV x 2^32 + angle (R246). -/
def State.angExt (s : State) (n : Nat) : Int := (s.angle n).rev * 2 ^ 32 + s.angOf n (s.angle n).c

/-- The estimated extended angle at an instant (ns of TC0, R247). -/
def State.angAt (s : State) (n : Nat) (t : Int) : Int :=
  let x := s.angle n
  let d : Rat := ((t - x.stamp : Int) : Rat)
  s.angExt n + (x.v * d + x.a * d * d / 2).floor

/-- Mains position at an instant (ns of TC0): cycles x 2^16 + phase (R250). -/
def State.mnsAt (s : State) (t : Int) : Int :=
  let m := s.mns
  if m.run && m.period != 0 then m.cyc * 65536 + (t - m.zc) * 65536 / m.period else m.cyc * 65536 + m.ph

/-- The present position of a base, as R252 codes it. -/
def State.basePos (s : State) (b : Nat) : Int :=
  if b < 4 then s.clockNs b
  else if b < 6 then s.angAt (b - 4) (s.clockNs 0)
  else if b = 6 then s.lin.cnt
  else s.mnsAt (s.clockNs 0)

/-- Decodes the two words of a trigger or an interval (R252). -/
def decodePos (b : Nat) (lo hi : Word) : Int :=
  if b < 4 then hi.toNat * 1000000000 + lo.toNat
  else if b < 6 then hi.toInt * 2 ^ 32 + lo.toNat
  else if b = 6 then (bitsOf hi.toNat 0 16 : Nat) * 2 ^ 32 + lo.toNat
  else hi.toNat * 65536 + (bitsOf lo.toNat 0 16 : Nat)

/-- Codes a trigger into two words (R252). -/
def encodePos (b : Nat) (x : Int) : Word × Word :=
  if b < 4 then
    let y := (x.emod 4294967296000000000).toNat
    (word (y % 1000000000), word (y / 1000000000))
  else
    let y := (x.emod (2 ^ 64)).toNat
    if b = 7 then (word (y % 65536), word (y / 65536)) else (word y, word (if b = 6 then y / 2 ^ 32 % 65536 else y / 2 ^ 32))

/-! ### Entries (R251) -/

/-- Fields of word 0. -/
def calBase (w : Word) : Nat := bitsOf w.toNat 1 3
def calAction (w : Word) : Nat := bitsOf w.toNat 4 4
def calRepeat (w : Word) : Bool := w.getLsbD 8
def calDir (w : Word) : Nat := bitsOf w.toNat 10 2
def calStepm (w : Word) : Nat := bitsOf w.toNat 12 2

/-- Fields of word 7. -/
def cFIRED : Fld := ⟨0, 16⟩
def cMISS : Fld := ⟨16, 8⟩
def cLATE : Fld := ⟨24, 1⟩
def cSTEPF : Fld := ⟨25, 1⟩
def cTOOLATE : Fld := ⟨26, 1⟩
def cNOPRED : Fld := ⟨27, 1⟩
def cCFGERR : Fld := ⟨28, 1⟩
def cFROZEN : Fld := ⟨29, 1⟩

/-- Word `w` of entry `k`. -/
def State.cal (s : State) (k w : Nat) : Word := s.reg (CAL_W k w)

/-- The trigger of entry `k`. -/
def State.trig (s : State) (k : Nat) : Int := decodePos (calBase (s.cal k 0)) (s.cal k 1) (s.cal k 2)

/-- The repeat interval of entry `k`. -/
def State.interval (s : State) (k : Nat) : Int := decodePos (calBase (s.cal k 0)) (s.cal k 4) (s.cal k 5)

/-- The state with the trigger of entry `k` set. -/
def State.setTrig (s : State) (k : Nat) (x : Int) : State :=
  let (a, b) := encodePos (calBase (s.cal k 0)) x
  (s.setReg (CAL_W k 1) a).setReg (CAL_W k 2) b

/-- Bit EN of entry `k`. -/
def State.armed (s : State) (k : Nat) : Bool := (s.cal k 0).getLsbD 0

/-- The state with EN of entry `k` set to 0. -/
def State.unarm (s : State) (k : Nat) : State := s.setReg (CAL_W k 0) (s.cal k 0 &&& 0xFFFFFFFE)

/-- The armed entries, ascending. -/
def State.armedEntries (s : State) : List Nat :=
  s.regs.filterMap fun e =>
    if Nat.ble 0x60050000 e.1 && Nat.blt e.1 0x60060000 && e.1 % 32 == 0 && e.2.getLsbD 0 then some ((e.1 - 0x60050000) / 32)
    else none

/-- Whether a firing of the present arming of entry `k` is committed. -/
def State.committed (s : State) (k : Nat) : Bool := s.calPend.any fun (c : CalCommit) => c.k == k && c.armed

/-- Whether entry `k` is on a predicted base (R264). -/
def predicted (w : Word) : Bool := calBase w == 4 || calBase w == 5 || calBase w == 7

/-- Armed and unfrozen entries on ANG0, ANG1 and MNS0 (R264). -/
def State.predCount (s : State) : Nat :=
  (s.armedEntries.filter fun k => predicted (s.cal k 0) && !s.committed k).length

/-- Whether an action is timed (R253). -/
def timed (act : Nat) : Bool := act == 1 || act == 2

/-- Whether an ARG is one that R253 gives an action. -/
def argOk (act : Nat) (arg : Word) : Bool :=
  let a := arg.toNat
  match act with
  | 1 => Nat.ble (a % 8) 5 && a / 8 % 2 == 0 && a / 128 == 0
  | 2 => Nat.ble (a % 8) 5 && a / 8 % 32 == 0 && Nat.ble (a / 65536) 2
  | 3 => a / 8 % 32 == 0 && a / 4096 == 0
  | 4 => a / 32 == 0
  | 5 => Nat.ble (a % 64) 35 && a / 64 % 4 == 0 && a / 8192 == 0
  | 6 => a / 2 == 0
  | 7 => a / 2 % 128 == 0 && a / 16384 == 0
  | _ => false

/-! ### Firing (R253-R256) -/

/-- A CARILLON action (R253, R415): sets the Calendar flag of each masked sequencer; one found set sets CFOVR. -/
def State.setCarFlags (s : State) (c mask : Nat) : State :=
  (List.range 4).foldl (fun (s : State) q =>
    if mask.testBit q then
      let s := if s.carFlag.getLsbD (4 * c + q) then s.setFlag (CAR_SEQ_STAT c q) CAR_SEQ_STAT_CFOVR true else s
      { s with carFlag := s.carFlag ||| BitVec.ofNat 32 (2 ^ (4 * c + q)) }
    else s) s

/-- An event action takes effect (R253). A CAPTURE's log entry is written by the firing. -/
def State.calEvent (s : State) (act : Nat) (arg : Word) : State :=
  let a := arg.toNat
  match act with
  | 3 => s.setCarFlags (a % 8) (bitsOf a 8 4)
  | 4 => if (s.eng (a % 32)).st = .isolated then s else s.latchEv (a % 32) 1
  | 5 => s.ring (a % 64) (bitsOf a 8 5)
  | 6 => if arg.getLsbD 0 then s.crossStamp else s
  | 7 => s.armNode (a % 2) (bitsOf a 8 6)
  | _ => s

/-- The capture-log word VAL of a base (R265). -/
def State.capVal (s : State) (b : Nat) : Word :=
  if b < 4 then word (unitsFrac (s.clock b).t * 65536)
  else if b < 7 then word ((s.basePos b).emod (2 ^ 32)).toNat
  else
    let p := ((s.basePos b).emod (2 ^ 48)).toNat
    word (p % 65536 + p / 65536 % 65536 * 65536)

/-- How far a repeating entry's next trigger lies behind the base, not negative where it is already reached; a timed action
counts as reached when the clock is past next - 2 us (R256). -/
def State.behind (s : State) (k : Nat) (next : Int) : Int :=
  let w := s.cal k 0
  let b := calBase w
  if b < 4 && timed (calAction w) then modDiff (baseMod b) (s.basePos b) next + 1999
  else if calDir w = 2 then modDiff (baseMod b) next (s.basePos b)
  else modDiff (baseMod b) (s.basePos b) next

/-- After a firing (R256): a one-shot entry disarms; a repeating one advances by its interval past every trigger already
reached, counting MISS, and writes TRIG. -/
def State.rearm (s : State) (k : Nat) : State :=
  let w := s.cal k 0
  if !s.armed k then s
  else if !calRepeat w then s.unarm k
  else
    let i := s.interval k
    let sg : Int := if calDir w = 2 then -1 else 1
    let next := s.trig k + sg * i
    let g := s.behind k next
    let m : Int := if g < 0 || i ≤ 0 then 0 else g / i + 1
    (s.setTrig k (next + sg * (m * i))).countFldSat (CAL_W k 7) cMISS m.toNat

/-- Entry `k` fires (R253-R256, R265): its event action, its capture, the counts, and the repeat rule where the firing
belongs to the present arming. -/
def State.fire (s : State) (k : Nat) (w0 arg : Word) (late nopred armed : Bool) (src : Option Int) : State :=
  let b := calBase w0
  let act := calAction w0
  let clk := if b < 4 then b else 0
  let s := s.calEvent act arg
  let s := if w0.getLsbD 9 || act == 6 then
      let t := match src with
        | some x => x.toNat * 65536
        | none => (s.clock clk).t
      s.capture (capWord k 0 clk b (bit src.isSome) (bitsOf w0.toNat 16 8)) t (s.capVal b)
    else s
  let s := s.count CAL_FIRED 1
  let s := if late then s.countSat CAL_LATE 1 else s
  if !armed then s
  else
    let a := CAL_W k 7
    let s := s.setFld a cFIRED (s.fld a cFIRED + 1)
    let s := if late then s.setFlag a cLATE true else s
    let s := if nopred then s.setFlag a cNOPRED true else s
    (s.setFlag a cFROZEN false).rearm k

/-- A timed action is handed to its block (R253). -/
def State.hand (s : State) (k : Nat) (w0 arg : Word) (clk : Nat) (time : Int) : State :=
  if timed (calAction w0) then { s with handed := s.handed ++ [⟨k, calAction w0, arg, clk, time⟩] } else s

/-- The absolute time, in ns of its clock, of a TC trigger. -/
def State.tcTime (s : State) (k : Nat) : Int :=
  let b := calBase (s.cal k 0)
  s.clockNs b + modDiff (baseMod b) (s.trig k) (s.clockNs b)

/-- A TC entry fires at once (R255, R256): a timed action is handed with its trigger time first. -/
def State.fireNow (s : State) (k : Nat) (late : Bool) : State :=
  let w := s.cal k 0
  (s.hand k w (s.cal k 3) (calBase w) (s.tcTime k)).fire k w (s.cal k 3) late false true none

/-- The firing of entry `k` that is due now (R255, R257): a committed one whose time has come, else an uncommitted TC entry
whose trigger is reached; any other entry does not fire. -/
def calendarFire (k : Nat) (s : State) : State :=
  match s.calPend.find? (fun c => c.k == k && decide (c.time ≤ s.clockNs (if calBase c.w0 < 4 then calBase c.w0 else 0))) with
  | some c =>
    let late := !timed (calAction c.w0) &&
      decide (c.time + 1000 < s.clockNs (if calBase c.w0 < 4 then calBase c.w0 else 0))
    { s with calPend := s.calPend.erase c }.fire k c.w0 c.arg late false c.armed none
  | none =>
    let w := s.cal k 0
    if s.armed k && Nat.blt (calBase w) 4 && !s.committed k && decide (s.tcTime k ≤ s.clockNs (calBase w)) then
      s.fireNow k (!timed (calAction w) && decide (s.tcTime k + 1000 < s.clockNs (calBase w)))
    else s

/-- CALENDAR_FIRE (R255). -/
def execCalendarFire (k : Fin 2048) (s : State) : Host.Outcome State Fault Refusal := .next (calendarFire k s)

/-- 2 us before the trigger of an armed TC entry with a timed action, its action is handed over (R254). -/
def calendarCommit (k : Nat) (s : State) : State :=
  let w := s.cal k 0
  if s.armed k && Nat.blt (calBase w) 4 && timed (calAction w) && !s.committed k &&
      decide (s.tcTime k ≤ s.clockNs (calBase w) + 2000) then
    let t := s.tcTime k
    let s := s.hand k w (s.cal k 3) (calBase w) t
    { s with calPend := s.calPend ++ [⟨k, w, s.cal k 3, t, true⟩] }
  else s

/-- CALENDAR_COMMIT (R254). -/
def execCalendarCommit (k : Fin 2048) (s : State) : Host.Outcome State Fault Refusal := .next (calendarCommit k s)

/-! ### Enable and disable (R251, R254, R259) -/

/-- Whether the repeat interval of an entry meets its minimum (R252, R259). -/
def intervalOk (b : Nat) (lo hi : Word) : Bool :=
  if b < 4 then Nat.blt lo.toNat 1000000000 && Nat.ble 1000 (hi.toNat * 1000000000 + lo.toNat)
  else decodePos b lo hi != 0

/-- Whether the entry that word 0 `v` would arm is refused for what it holds (R259), the capacity apart. -/
def State.calBad (s : State) (k : Nat) (v : Word) : Bool :=
  let b := calBase v
  !argOk (calAction v) (s.cal k 3) || calDir v == 3 || ((Nat.blt b 4 || b == 7) && calDir v != 0) || calStepm v == 3 ||
    (Nat.blt b 4 && Nat.ble 1000000000 (s.cal k 1).toNat) || (calRepeat v && !intervalOk b (s.cal k 4) (s.cal k 5))

/-- A write of EN := 1 to an entry with EN 0 (R259): refused with CFGERR, or armed with word 7 cleared; a trigger that its
clock has reached fires at once with LATE (R255). -/
def State.calArm (s : State) (k : Nat) (v : Word) : State :=
  let v := v &&& 0x00FF3FFF
  let full := predicted v && Nat.ble 256 s.predCount
  if s.calBad k v || full then
    let s := (s.setReg (CAL_W k 0) (v &&& 0xFFFFFFFE)).setFlag (CAL_W k 7) cCFGERR true
    if full && !s.calBad k v then s.setFlag CAL_STAT CAL_STAT_PREDFULL true else s
  else
    let s := { s with calPend := s.calPend.map fun (c : CalCommit) => if c.k = k then { c with armed := false } else c }
    let s := ((s.setReg (CAL_W k 0) v).setReg (CAL_W k 6) 0).setReg (CAL_W k 7) 0
    if Nat.blt (calBase v) 4 && decide (s.tcTime k ≤ s.clockNs (calBase v)) then s.fireNow k true else s

/-- A write of word 0 of entry `k` (R251, R254, R259). -/
def calWord0 (k : Nat) (v : Word) (s : State) : State :=
  if s.armed k then
    if v.getLsbD 0 then s.answer (if (v &&& 0x00FF3FFF) = s.cal k 0 then .ok else .busError)
    else
      let s := if s.committed k then s.setFlag (CAL_W k 7) cTOOLATE true else s
      (s.setReg (CAL_W k 0) (v &&& 0x00FF3FFF)).answer .ok
  else if v.getLsbD 0 then (s.calArm k v).answer .ok
  else (s.setReg (CAL_W k 0) (v &&& 0x00FF3FFF)).answer .ok

/-- A write of another word of entry `k` (R251). -/
def calWordWrite (k w : Nat) (v : Word) (s : State) : State :=
  if w = 0 then calWord0 k v s
  else if Nat.ble 6 w then s.answer .ok
  else if s.armed k then s.answer (if v = s.cal k w then .ok else .busError)
  else (s.setReg (CAL_W k w) v).answer .ok

/-- CALENDAR_ENABLE (R259): a write of word 0 with EN = 1. -/
def execCalendarEnable (i : Init) (k : Fin 2048) (v : Word) (s : State) : Host.Outcome State Fault Refusal :=
  .next (s.gate i (CAL_W k 0) (calWord0 k (v ||| 1)))

/-- CALENDAR_DISABLE (R254): a write of word 0 with EN = 0. -/
def execCalendarDisable (i : Init) (k : Fin 2048) (v : Word) (s : State) : Host.Outcome State Fault Refusal :=
  .next (s.gate i (CAL_W k 0) (calWord0 k (v &&& 0xFFFFFFFE)))

/-- The first position after `x` that is congruent to `ph` modulo `p`. -/
def nextBoundary (x p ph : Int) : Int := x + 1 + (ph - (x + 1)).emod p

/-- The Keep arms entry `k` as the cycle event of engine `n` (R190, R208): base, period and phase of the channel, the next
boundary at least 20 us ahead on a clock. -/
def State.calCycle (s : State) (k base period phase n : Nat) : State :=
  let b := base % 8
  let s := s.unarm k
  let w : Word := word (2 * b + 4 * 16 + 256)
  let x := nextBoundary (if b < 4 then s.clockNs b + 19999 else s.basePos b) period phase
  let s := (s.setReg (CAL_W k 0) w).setTrig k x
  let (i0, i1) := encodePos b period
  (((s.setReg (CAL_W k 3) (word n)).setReg (CAL_W k 4) i0).setReg (CAL_W k 5) i1).calArm k (w ||| 1)

/-- The Keep disables cycle entry `k` (R214). -/
def State.calOff (s : State) (k : Nat) : State :=
  let r := s.resp
  (calWord0 k (s.cal k 0 &&& 0xFFFFFFFE) s).answer r

/-! ### Steps of a clock (R256) -/

/-- What a step of its clock from `old` to `new` (ns) does to the uncommitted entry `k` (R256). -/
def State.calStep (s : State) (old new : Int) (k : Nat) : State :=
  let w := s.cal k 0
  let m := baseMod (calBase w)
  let t := s.trig k
  let mode := if calStepm w = 2 && !calRepeat w then 0 else calStepm w
  let flag (s : State) : State := s.setFlag (CAL_W k 7) cSTEPF true
  let passed := old < new && 0 < modDiff m t old && 0 ≤ modDiff m new t
  match mode with
  | 0 => if passed then (flag s).fireNow k false else if new < old then flag s else s
  | 1 => flag (s.setTrig k (t + (new - old)))
  | _ =>
    let x := nextBoundary (new + 1999) (s.interval k) t
    if modDiff m x t = 0 then (if new < old then flag s else s) else flag (s.setTrig k x)

/-- The uncommitted armed entries on a stepped clock are handled (R256). -/
def State.calSteps (s : State) (n : Nat) (old new : Int) : State :=
  (s.armedEntries.filter fun k => calBase (s.cal k 0) == n && !s.committed k).foldl (fun s k => s.calStep old new k) s

/-! ### Prediction (R260, R261) -/

/-- The integer square root, by bits from the highest down. -/
def isqrt (n : Nat) : Nat :=
  ((List.range (n.log2 / 2 + 1)).reverse).foldl (fun r b => if (r + 2 ^ b) * (r + 2 ^ b) ≤ n then r + 2 ^ b else r) 0

/-- The square root of a rational that is not negative, to 64 bits after the point. -/
def ratSqrt (x : Rat) : Rat := (isqrt (x.num.toNat * x.den * 2 ^ 128) : Rat) / ((x.den : Rat) * 2 ^ 64)

/-- The time after which motion `v`, `a` covers the way `d` in a direction (1 increasing, 2 decreasing), if it does (R260). -/
def reachTime (d : Int) (v a : Rat) (dir : Nat) : Option Rat :=
  let sg : Rat := if dir = 2 then -1 else 1
  if a = 0 then (if sg * v ≤ 0 then none else some (d / v))
  else
    let q := v * v + 2 * a * d
    if q < 0 then none else some ((sg * ratSqrt q - v) / a)

/-- The direction of entry word 0 on an angle base: DIR 0 takes STAT.DIR (R260). -/
def State.dirOf (s : State) (w : Word) : Nat :=
  if calDir w = 0 then (if calBase w = 4 || calBase w = 5 then s.fld (ALM_ANG_STAT (calBase w - 4)) ALM_ANG_STAT_DIR + 1 else 0)
  else calDir w

/-- The predicted TC0 time in ns of an armed entry (R260), none where no prediction is made. -/
def State.predict (s : State) (k : Nat) : Option Int :=
  let w := s.cal k 0
  let b := calBase w
  let now := s.clockNs 0
  if b = 7 then
    if (s.flag ALM_MNS_STAT ALM_MNS_STAT_LOCK || s.flag ALM_MNS_STAT ALM_MNS_STAT_HOLD) && s.mns.run && s.mns.period != 0 then
      let d := modDiff (2 ^ 48) (s.trig k) (s.mnsAt now)
      if d < 0 then none
      else some (s.mns.zc + (modDiff (2 ^ 48) (s.trig k) (s.mns.cyc * 65536) * s.mns.period + 65535) / 65536)
    else none
  else
    let n := b - 4
    let x := s.angle n
    let st := ALM_ANG_STAT n
    if !s.flag st ALM_ANG_STAT_VALID || s.flag st ALM_ANG_STAT_STILL ||
        decide ((sInt (s.reg (ALM_ANG_VEL n))).natAbs < (s.reg (ALM_ANG_VMIN n)).toNat) then none
    else
      match reachTime (s.trig k - s.angExt n) x.v x.a (s.dirOf w) with
      | none => none
      | some d => if x.stamp + d.floor ≤ now then none else some (x.stamp + d.floor)

/-- The commit lead of a predicted base in ns (R261). -/
def State.leadNs (s : State) (b : Nat) : Int :=
  1000 * (if b = 7 then s.fld ALM_MNS_CTL ALM_MNS_CTL_LEAD else s.fld (ALM_ANG_CTL (b - 4)) ALM_ANG_CTL_LEAD)

/-- A re-prediction of entry `k` (R260), and its freeze within the lead (R261). -/
def anglePrediction (k : Nat) (s : State) : State :=
  let w := s.cal k 0
  if !s.armed k || !predicted w || s.committed k then s
  else
    match s.predict k with
    | none => s
    | some t =>
      let s := s.setReg (CAL_W k 6) (t32Of (t.toNat * 65536))
      if t ≤ s.clockNs 0 + s.leadNs (calBase w) then
        let s := (s.setFlag (CAL_W k 7) cFROZEN true).hand k w (s.cal k 3) 0 t
        { s with calPend := s.calPend ++ [⟨k, w, s.cal k 3, t, true⟩] }
      else s

/-- ANGLE_PREDICTION (R260). -/
def execAnglePrediction (k : Fin 2048) (s : State) : Host.Outcome State Fault Refusal := .next (anglePrediction k s)

/-! ### Detection (R258, R262) -/

/-- Whether an entry's target is crossed: at or past TRIG in its direction, in either direction between the positions before
and after the record where it has none. -/
def crossed (m : Int) (dir : Nat) (trig old new : Int) : Bool :=
  match dir with
  | 1 => decide (0 ≤ modDiff m new trig)
  | 2 => decide (modDiff m new trig ≤ 0)
  | _ => (decide (modDiff m old trig < 0) && decide (0 ≤ modDiff m new trig)) ||
      (decide (0 < modDiff m old trig) && decide (modDiff m new trig ≤ 0))

/-- An entry fires by detection (R258, R262): event actions at once, timed ones with the present time + 2 us; NOPRED. -/
def State.detectFire (s : State) (k : Nat) (src : Option Int) : State :=
  let w := s.cal k 0
  (s.hand k w (s.cal k 3) 0 (s.clockNs 0 + 2000)).fire k w (s.cal k 3) false true true src

/-- Detection over the armed unfrozen entries of base `b` after a record that moved it from `old` to `new`. -/
def State.detect (s : State) (b : Nat) (old new : Int) (src : Option Int) : State :=
  (s.armedEntries.filter fun k => calBase (s.cal k 0) == b && !s.committed k).foldl (fun s k =>
    if crossed (baseMod b) (if b = 7 then 1 else s.dirOf (s.cal k 0)) (s.trig k) old new then s.detectFire k src else s) s

end Sys2Proof.Machine
end

