-- ==== Sys2Proof/Machine/TimeBases.lean ====
section
/-! DEFINITION. Steering of the network clocks, angle, line and mains bases, and the registers of the Almanac block
(R235-R250, R268).
Choices of the model: log entries 61, 63, 64, 67. -/

set_option autoImplicit false

namespace Sys2Proof.Machine

open Sys2Proof

/-! ### Steering (R235-R238) -/

/-- Whether steering path `p` owns TC`n` (R238): 0 this block, 1 + port the alias of an Ethernet port, 7 the Campanile. -/
def State.owns (s : State) (n p : Nat) : Bool :=
  let a := ALM_TC_CTL n
  match s.fld a ALM_TC_CTL_OWN with
  | 0 => p == 0
  | 1 => p == 1 + s.fld a ALM_TC_CTL_OPORT
  | _ => p == 7 && n == 1

/-- A new rate (R235): clamped to 1,000 ppm. -/
def State.setRate (s : State) (n : Nat) (v : Word) : State :=
  let x := v.toInt
  let y := max (-131072000) (min 131072000 x)
  (s.setReg (ALM_TC_RATE n) (wordOfInt y)).setFlag (ALM_TC_STAT n) ALM_TC_STAT_RATELIM (x != y)

/-- A write of SLEW (R237): a new amount in ns, 0 ends the slew. -/
def State.setSlew (s : State) (n : Nat) (v : Word) : State :=
  (s.updClock n fun c => { c with slew := v.toInt * 65536 * 250000 }).setFlag (ALM_TC_STAT n) ALM_TC_STAT_SLEWING (v != 0)

/-- The amount still to apply, in ns (R237). -/
def State.slewLeft (s : State) (n : Nat) : Word := wordOfInt ((s.clock n).slew.tdiv (65536 * 250000))

/-- STEPERR (R236). -/
def State.stepErr (s : State) (n : Nat) : State := s.setFlag (ALM_TC_STAT n) ALM_TC_STAT_STEPERR true

/-- The clock takes the value `new` in units (R236, R244, R245, R248, R256): refused outside 0 to 2^48 s; accepted, the slew is
cancelled, EPOCH counts, STEPF is set; TC0 takes the pin-time origin and the stamps of held records with it. -/
def State.stepTo (s : State) (n : Nat) (new : Int) : State :=
  if new < 0 || (clockMod : Int) ≤ new then s.stepErr n
  else
    let old : Int := (s.clock n).t
    let o := s.clockNs n
    let st := ALM_TC_STAT n
    let s := s.updClock n fun c => { c with t := new.toNat, slew := 0 }
    let s := ((s.setFlag st ALM_TC_STAT_SLEWING false).setFlag st ALM_TC_STAT_STEPF true).setFld st ALM_TC_STAT_EPOCH
      (s.fld st ALM_TC_STAT_EPOCH + 1)
    let d := s.clockNs n - o
    let s := if n = 0 then
        let s := { s with ptcOrg := ((s.ptcOrg + (new - old)).emod clockMod).toNat }
        let s := s.putT96 ALM_PTCORG0 ALM_PTCORG1 ALM_PTCORG2 s.ptcOrg
        let mv (s : State) (n : Nat) : State := s.updAngle n fun x =>
          { x with stamp := x.stamp + d, recs := x.recs.map fun r => (r.1, r.2 + d) }
        let s := mv (mv s 0) 1
        { s with mns := { s.mns with zc := s.mns.zc + d, last := s.mns.last + d } }
      else s
    s.calSteps n o (s.clockNs n)

/-- STEP (R236). -/
def State.applyStep (s : State) (n : Nat) : State :=
  let sec := sInt (s.reg (ALM_TC_STEPS n))
  let ns := sInt (s.reg (ALM_TC_STEPNS n))
  if ns < -999999999 || 999999999 < ns then s.stepErr n
  else s.stepTo n ((s.clock n).t + (sec * 1000000000 + ns) * 65536)

/-- SET (R236). -/
def State.applySet (s : State) (n : Nat) : State :=
  let ns := bitsOf (s.reg (ALM_TC_SET0 n)).toNat 0 30
  let w2 := (s.reg (ALM_TC_SET2 n)).toNat
  if 1000000000 ≤ ns then s.stepErr n
  else s.stepTo n ((((w2 % 65536) * 2 ^ 32 + (s.reg (ALM_TC_SET1 n)).toNat) * secUnits + ns * 65536 + w2 / 65536 : Nat) : Int)

/-- SLEWSTOP (R237). -/
def State.applySlewstop (s : State) (n : Nat) : State := s.setSlew n 0

/-- The action bits of a CTL write, SET before STEP (R236, R237). -/
def State.steerActions (s : State) (n : Nat) (v : Word) : State :=
  let s := if ALM_TC_CTL_SLEWSTOP.get v = 1 then s.applySlewstop n else s
  if ALM_TC_CTL_SET.get v = 1 then s.applySet n
  else if ALM_TC_CTL_STEP.get v = 1 then s.applyStep n
  else s

/-- Steering registers of TC`n` by their offset 0x18-0x30 (R238): a write through path `p`. -/
def steerWrite (p n off : Nat) (v : Word) (s : State) : State :=
  if !s.owns n p then s.answer .busError
  else if off = 0x18 then (s.setRate n v).answer .ok
  else if off = 0x24 then (s.setSlew n v).answer .ok
  else (s.setReg (ALM_TC_CTL n + off) v).answer .ok

/-- A write of ALM_TCn_CTL in this block (R238): the fields always, the actions where OWN was 0. -/
def tcCtlWrite (n : Nat) (v : Word) (s : State) : State :=
  let a := ALM_TC_CTL n
  let mine := s.owns n 0
  let act := (v &&& 0xE0) != 0
  let w := s.keepFld a ALM_TC_CTL_OWN (fun o => o == 3 || (o == 2 && n != 1)) v
  let w := s.keepFld a ALM_TC_CTL_OPORT (fun o => Nat.ble 6 o) w
  let w := s.keepFld a ALM_TC_CTL_SLEWR (fun o => Nat.ble 11 o) w
  let s := s.setReg a (w &&& 0xF1F)
  if act && !mine then s.answer .busError else (s.steerActions n v).answer .ok

/-- RATE_WRITE (R235): a write of RATE in this block. -/
def execRateWrite (i : Init) (n : Fin 4) (v : Word) (s : State) : Host.Outcome State Fault Refusal :=
  .next (s.gate i (ALM_TC_RATE n) (steerWrite 0 n 0x18 v))

/-- CLOCK_STEP (R236): CTL.STEP := 1. -/
def execClockStep (i : Init) (n : Fin 4) (s : State) : Host.Outcome State Fault Refusal :=
  .next (s.gate i (ALM_TC_CTL n) fun (s : State) => tcCtlWrite n (s.reg (ALM_TC_CTL n) ||| 0x20) s)

/-- CLOCK_SET (R236): CTL.SET := 1. -/
def execClockSet (i : Init) (n : Fin 4) (s : State) : Host.Outcome State Fault Refusal :=
  .next (s.gate i (ALM_TC_CTL n) fun (s : State) => tcCtlWrite n (s.reg (ALM_TC_CTL n) ||| 0x40) s)

/-- SLEW_WRITE (R237): a write of SLEW in this block. -/
def execSlewWrite (i : Init) (n : Fin 4) (v : Word) (s : State) : Host.Outcome State Fault Refusal :=
  .next (s.gate i (ALM_TC_SLEW n) (steerWrite 0 n 0x24 v))

/-- SLEWSTOP (R237): CTL.SLEWSTOP := 1. -/
def execSlewstop (i : Init) (n : Fin 4) (s : State) : Host.Outcome State Fault Refusal :=
  .next (s.gate i (ALM_TC_CTL n) fun (s : State) => tcCtlWrite n (s.reg (ALM_TC_CTL n) ||| 0x80) s)

/-- SLEW_COMPLETE (R237): the rest of the amount is applied, and the slew stops exactly at it. -/
def slewComplete (n : Nat) (s : State) : State :=
  (s.updClock n fun c =>
    let x := c.rem + c.slew
    ⟨((c.t : Int) + x.fdiv 250000).toNat % clockMod, x.fmod 250000, 0⟩).setFlag (ALM_TC_STAT n) ALM_TC_STAT_SLEWING false

/-- SLEW_COMPLETE (R237). -/
def execSlewComplete (n : Fin 4) (s : State) : Host.Outcome State Fault Refusal := .next (slewComplete n s)

/-! ### Angle bases (R246-R248) -/

/-- A rational toward zero, saturated to a signed word. -/
def satWord (x : Rat) : Word := wordOfInt (max (-2147483648) (min 2147483647 (x.num.tdiv x.den)))

/-- VALID of an angle base falls: a field event where it was 1. -/
def State.angInvalid (s : State) (n : Nat) : State :=
  let a := ALM_ANG_STAT n
  if s.flag a ALM_ANG_STAT_VALID then (s.setFlag a ALM_ANG_STAT_VALID false).fieldEvent (4 + n) (s.clockNs 0) else s

/-- VEL, ACC and DIR from an estimate (R247, R248). -/
def State.setEstimate (s : State) (n : Nat) (v a : Rat) : State :=
  let s := s.updAngle n fun x => { x with v := v, a := a }
  let s := (s.setReg (ALM_ANG_VEL n) (satWord (v * 1000))).setReg (ALM_ANG_ACC n) (satWord (a * 65536000000))
  s.setFlag (ALM_ANG_STAT n) ALM_ANG_STAT_DIR ((s.reg (ALM_ANG_VEL n)).msb)

/-- The estimator after an entered record (R247). While FLDLOCK is 0 the base stays invalid (R245). -/
def State.estimate (s : State) (n : Nat) : State :=
  let w := max 1 (s.fld (ALM_ANG_CTL n) ALM_ANG_CTL_WIN)
  let recs := (s.angle n).recs
  match recs[0]?, recs[w]?, recs[2 * w]? with
  | some r0, some r1, some r2 =>
    if r0.2 = r1.2 || r1.2 = r2.2 || r0.2 = r2.2 then s
    else
      let q (x : Int) : Rat := (x : Rat)
      let v0 := q (r0.1 - r1.1) / q (r0.2 - r1.2)
      let v1 := q (r1.1 - r2.1) / q (r1.2 - r2.2)
      let a := (v0 - v1) / (q (r0.2 - r2.2) / 2)
      let v := v0 + a * (q (r0.2 - r1.2) / 2)
      let s := s.setEstimate n v a
      if s.flag ALM_STAT ALM_STAT_FLDLOCK then s.setFlag (ALM_ANG_STAT n) ALM_ANG_STAT_VALID true else s.angInvalid n
  | _, _, _ => s.angInvalid n

/-- The way of a position difference with DIRINV. -/
def invDir (inv : Bool) (d : Int) : Int := if inv then -d else d

/-- The angle base after a record (R246-R248): count and revolutions, Z reference, REVSET, stamp, estimator. -/
def State.angleRecord (s : State) (n : Nat) (pos : Int) (z : Bool) (stamp : Int) : State :=
  let ctl := ALM_ANG_CTL n
  let st := ALM_ANG_STAT n
  if !s.flag ctl ALM_ANG_CTL_EN then s
  else
    let x := s.angle n
    if x.seen && x.pos = pos && x.stamp = stamp then s
    else
      let inv := s.flag ctl ALM_ANG_CTL_DIRINV
      let cpr : Int := s.cpr n
      let raw := if x.seen then (x.c : Int) + invDir inv (pos - x.pos) else (invDir inv pos).fmod cpr
      let rev := x.rev + raw.fdiv cpr
      let c := (raw.fmod cpr).toNat
      let useZ := z && (s.fld ctl ALM_ANG_CTL_ZREF = 2 || x.zref)
      let (c, rev) := if useZ then (0, if 2 * (c : Int) < cpr then rev else rev + 1) else (c, rev)
      let rev := match x.revset with
        | some r => r - (s.angOf n c) / 2 ^ 32
        | none => rev
      let moved := !x.seen || x.pos != pos
      let wake := moved && s.flag st ALM_ANG_STAT_STILL
      let s := if moved then s.setFlag st ALM_ANG_STAT_STILL false else s
      let s := if z then s.setFlag st ALM_ANG_STAT_ZSEEN true else s
      let s := s.updAngle n fun x => { x with
        seen := true, pos := pos, stamp := stamp, c := c, rev := rev, revset := none
        zref := x.zref && !useZ, recs := if wake then [] else x.recs }
      let e := s.angExt n
      let s := s.updAngle n fun x => { x with recs := ((e, stamp) :: x.recs).take 63 }
      let s := (s.setReg (ALM_ANG_ANG n) (word (e.emod (2 ^ 32)).toNat)).setReg (ALM_ANG_TSTAMP n) (t32Of (stamp.toNat * 65536))
      s.estimate n

/-! ### Line base (R249) -/

/-- The line base after a record of encoder `n`. -/
def State.lineRecord (s : State) (n : Nat) (pos stamp : Int) : State :=
  if !s.flag ALM_LIN_CTL ALM_LIN_CTL_EN || s.fld ALM_LIN_CTL ALM_LIN_CTL_SRC != n then s
  else
    let x := s.lin
    let div : Int := s.fld ALM_LIN_CTL ALM_LIN_CTL_DIV + 1
    let d := if x.seen then invDir (s.flag ALM_LIN_CTL ALM_LIN_CTL_DIRINV) (pos - x.pos) else 0
    let raw : Int := x.frac + d
    let cnt := ((x.cnt : Int) + raw.fdiv div).emod (2 ^ 48)
    let cnt := if x.load then ((s.reg ALM_LIN_SET0).toNat + s.fld ALM_LIN_SET1 ALM_LIN_SET1_HI * 2 ^ 32 : Nat) else cnt.toNat
    let s := { s with lin := ⟨cnt, if x.load then 0 else (raw.fmod div).toNat, false, pos, true⟩ }
    (s.setReg ALM_LIN_TSTAMP (t32Of (stamp.toNat * 65536))).setFlag ALM_LIN_STAT ALM_LIN_STAT_VALID
      (s.flag ALM_STAT ALM_STAT_FLDLOCK)

/-- An encoder record (R246-R249, R258, R262): position in counts, whether a Z index lies in it, source stamp in ns of TC0. -/
def encoderRecord (n : Nat) (pos : Int) (z : Bool) (stamp : Int) (s : State) : State :=
  let oldA := s.angExt n
  let x := s.angle n
  let entered := !(x.seen && x.pos == pos && x.stamp == stamp)
  let oldL : Int := s.lin.cnt
  let s := if z then s.fieldEvent n stamp else s
  let s := s.angleRecord n pos z stamp
  let s := s.lineRecord n pos stamp
  let s := if entered && s.flag (ALM_ANG_CTL n) ALM_ANG_CTL_EN then s.detect (4 + n) oldA (s.angExt n) none else s
  if s.flag ALM_LIN_CTL ALM_LIN_CTL_EN && s.fld ALM_LIN_CTL ALM_LIN_CTL_SRC == n then
    s.detect 6 oldL s.lin.cnt (some stamp)
  else s

/-- ENCODER_RECORD (R247). -/
def execEncoderRecord (n : Fin 2) (pos : Int) (z : Bool) (stamp : Int) (s : State) : Host.Outcome State Fault Refusal :=
  .next (encoderRecord n pos z stamp s)

/-- No position change for STILL ms (R248). -/
def standstill (n : Nat) (s : State) : State :=
  if s.flag (ALM_ANG_CTL n) ALM_ANG_CTL_EN then (s.setEstimate n 0 0).setFlag (ALM_ANG_STAT n) ALM_ANG_STAT_STILL true else s

/-- STANDSTILL_TIMEOUT (R248). -/
def execStandstillTimeout (n : Fin 2) (s : State) : Host.Outcome State Fault Refusal := .next (standstill n s)

/-- Records missing for 3 record periods (R248, R249). -/
def recordTimeout (n : Nat) (s : State) : State :=
  let s := if s.flag (ALM_ANG_CTL n) ALM_ANG_CTL_EN then
      (((s.setFlag (ALM_ANG_STAT n) ALM_ANG_STAT_RECERR true).angInvalid n).updAngle n fun x => { x with recs := [] })
    else s
  if s.flag ALM_LIN_CTL ALM_LIN_CTL_EN && s.fld ALM_LIN_CTL ALM_LIN_CTL_SRC == n then
    (s.setFlag ALM_LIN_STAT ALM_LIN_STAT_RECERR true).setFlag ALM_LIN_STAT ALM_LIN_STAT_VALID false
  else s

/-- RECORD_TIMEOUT (R248). -/
def execRecordTimeout (n : Fin 2) (s : State) : Host.Outcome State Fault Refusal := .next (recordTimeout n s)

/-- A write of REVSET (R246). -/
def revsetWrite (n : Nat) (v : Word) (s : State) : State :=
  (s.updAngle n fun x => { x with revset := some v.toInt }).answer .ok

/-- REVSET_WRITE (R246). -/
def execRevsetWrite (i : Init) (n : Fin 2) (v : Word) (s : State) : Host.Outcome State Fault Refusal :=
  .next (s.gate i (ALM_ANG_REVSET n) (revsetWrite n v))

/-- A write of ALM_LIN_CTL (R249): LOAD arms the preset. -/
def linCtlWrite (v : Word) (s : State) : State :=
  let s := s.plainWrite true ALM_LIN_CTL v
  if ALM_LIN_CTL_LOAD.get v = 1 then { s with lin := { s.lin with load := true } }
  else s

/-- LIN_LOAD (R249): CTL.LOAD := 1. -/
def execLinLoad (i : Init) (s : State) : Host.Outcome State Fault Refusal :=
  .next (s.gate i ALM_LIN_CTL fun (s : State) => linCtlWrite (s.reg ALM_LIN_CTL ||| 8) s)

/-! ### Mains base (R250) -/

/-- LOCK falls: the phase goes on at the last frequency (HOLD), and the loss is a field event. -/
def State.mnsUnlock (s : State) (ns : Int) : State :=
  let a := ALM_MNS_STAT
  let s := s.setFld a ALM_MNS_STAT_LOCKCNT 0
  if s.flag a ALM_MNS_STAT_LOCK then
    (((s.setFlag a ALM_MNS_STAT_LOCK false).setFlag a ALM_MNS_STAT_HOLD true).setFld a ALM_MNS_STAT_FREQ 0).fieldEvent 3 ns
  else s

/-- A positive zero crossing at `stamp` (ns of TC0, R250). -/
def mainsZeroCrossing (stamp : Int) (s : State) : State :=
  if !s.flag ALM_MNS_CTL ALM_MNS_CTL_EN then s
  else
    let a := ALM_MNS_STAT
    let old := s.mnsAt stamp
    let m := s.mns
    let p := (stamp - m.last).toNat
    let first := m.period == 0 && !m.run
    let good := !first && Nat.ble 1000000000 (p * 65) && Nat.ble (p * 45) 1000000000
    let bad := !first && (Nat.blt (p * 66) 1000000000 || Nat.blt 1000000000 (p * 44))
    let s := s.setReg ALM_MNS_TZC (t32Of (stamp.toNat * 65536))
    let s := { s with mns := { m with last := stamp } }
    let s := if bad then s.mnsUnlock stamp
      else if good then s.setFld a ALM_MNS_STAT_LOCKCNT (min 8 (s.fld a ALM_MNS_STAT_LOCKCNT + 1))
      else if s.flag a ALM_MNS_STAT_LOCK then s
      else s.setFld a ALM_MNS_STAT_LOCKCNT 0
    let s := if s.flag a ALM_MNS_STAT_HOLD && s.fld a ALM_MNS_STAT_LOCKCNT != 8 then s
      else
        let turns := if m.run && m.period != 0 then max 1 ((2 * (stamp - m.zc).toNat + m.period) / (2 * m.period)) else 0
        { s with mns := ⟨(m.cyc + turns) % 2 ^ 32, stamp, stamp, if first then 0 else p, true, 0⟩ }
    let s := if s.fld a ALM_MNS_STAT_LOCKCNT = 8 && !s.flag a ALM_MNS_STAT_LOCK && s.flag ALM_STAT ALM_STAT_FLDLOCK then
        ((s.setFlag a ALM_MNS_STAT_LOCK true).setFlag a ALM_MNS_STAT_HOLD false).fieldEvent 2 stamp
      else s
    let s := if s.flag a ALM_MNS_STAT_LOCK && p != 0 then s.setFld a ALM_MNS_STAT_FREQ (min 65535 (1000000000000 / p)) else s
    if s.flag a ALM_MNS_STAT_LOCK || s.flag a ALM_MNS_STAT_HOLD then s.detect 7 old (s.mnsAt (s.clockNs 0)) none else s

/-- MAINS_ZERO_CROSSING (R250). -/
def execMainsZeroCrossing (stamp : Int) (s : State) : Host.Outcome State Fault Refusal := .next (mainsZeroCrossing stamp s)

/-- A crossing missing for 2 cycles (R250). -/
def mainsCrossingMissing (s : State) : State := if s.flag ALM_MNS_CTL ALM_MNS_CTL_EN then s.mnsUnlock (s.clockNs 0) else s

/-- MAINS_CROSSING_MISSING (R250). -/
def execMainsCrossingMissing (s : State) : Host.Outcome State Fault Refusal := .next (mainsCrossingMissing s)

/-- After 2 cycles of holdover the phase stops (R250). -/
def mainsHoldoverEnd (s : State) : State :=
  if !s.flag ALM_MNS_STAT ALM_MNS_STAT_HOLD then s
  else
    let p := ((s.mnsAt (s.clockNs 0)).emod (2 ^ 48)).toNat
    { s with mns := { s.mns with cyc := p / 65536, ph := p % 65536, run := false, period := 0 } }.setFlag ALM_MNS_STAT
      ALM_MNS_STAT_HOLD false

/-- MAINS_HOLDOVER_END (R250). -/
def execMainsHoldoverEnd (s : State) : Host.Outcome State Fault Refusal := .next (mainsHoldoverEnd s)

/-! ### Registers (R268) -/

/-- A write of ALM_ANGn_CTL: reserved encodings keep their field (R11); EN := 0 clears VALID; EN := 1 restarts the records;
ZREF 1 arms the next Z index. -/
def angCtlWrite (n : Nat) (v : Word) (s : State) : State :=
  let a := ALM_ANG_CTL n
  let v := s.keepFld a ALM_ANG_CTL_ZREF (fun x => x == 3) v
  let v := s.keepFld a ALM_ANG_CTL_LEAD (fun x => Nat.blt x 2 || Nat.blt 500 x) v
  let was := s.flag a ALM_ANG_CTL_EN
  let s := s.plainWrite true a v
  let on := s.flag a ALM_ANG_CTL_EN
  let s := if on then s else s.angInvalid n
  let s := if on && !was then
      (s.setFlag (ALM_ANG_STAT n) ALM_ANG_STAT_ZSEEN false).updAngle n fun x => { x with recs := [] }
    else s
  s.updAngle n fun x => { x with zref := s.fld a ALM_ANG_CTL_ZREF == 1 }

/-- A write in the Almanac block. -/
def almWrite (i : Init) (a : Nat) (v : Word) (s : State) : State :=
  if Nat.ble 0x60050000 a then calWordWrite ((a - 0x60050000) / 32) (a % 32 / 4) v s
  else if Nat.ble 0x60040100 a && Nat.blt a 0x60040200 then
    let n := (a - 0x60040100) / 0x40
    let o := a % 0x40
    if o = 0 then tcCtlWrite n v s
    else if Nat.ble 0x18 o && Nat.ble o 0x30 then steerWrite 0 n o v s
    else s.plainWrite true a v
  else if a = ALM_XS_CTL then (if v.getLsbD 0 then s.crossStamp else s).answer .ok
  else if a = ALM_ANG_CTL 0 then angCtlWrite 0 v s
  else if a = ALM_ANG_CTL 1 then angCtlWrite 1 v s
  else if a = ALM_ANG_CPR 0 || a = ALM_ANG_CPR 1 then s.plainWrite true a (s.keepFld a ALM_ANG_CPR_CPR (fun x => x == 0) v)
  else if a = ALM_ANG_REVSET 0 then revsetWrite 0 v s
  else if a = ALM_ANG_REVSET 1 then revsetWrite 1 v s
  else if a = ALM_LIN_CTL then linCtlWrite v s
  else if a = ALM_MNS_CTL then
    s.plainWrite true a (s.keepFld a ALM_MNS_CTL_LEAD (fun x => Nat.blt x 2 || Nat.blt 500 x) v)
  else if a = ALM_CAP_CTL then
    s.plainWrite true a (s.keepFld a ALM_CAP_CTL_DBAGENT (fun x => Nat.ble 36 x) v)
  else if a = ALM_CAP_RD then captureRdWrite i v s
  else if a = ALM_CAP_SW then softwareCapture i v s
  else s.plainWrite true a v

/-- A read that latches (R239): the words that follow are latched in group `g` for the reading RPN. -/
def State.latchRead (s : State) (g rpn : Nat) (v w1 w2 : Word) : State := (s.setLatch g rpn (w1, w2)).answerWord v

/-- A read in the Almanac block by an RPN; `events`: captures lost in the cycle of the read (R9, R266). -/
def almRead (rpn : Nat) (events : Word) (a : Nat) (s : State) : State :=
  if Nat.ble 0x60040100 a && Nat.blt a 0x60040200 then
    let n := (a - 0x60040100) / 0x40
    let o := a % 0x40
    let (w0, w1, w2) := t96Of (s.clock n).t
    if o = 0x08 then s.latchRead n rpn w0 w1 w2
    else if o = 0x0C then s.answerWord (s.getLatch n rpn).1
    else if o = 0x10 then s.answerWord (s.getLatch n rpn).2
    else if o = 0x14 then s.answerWord (s.t32 n)
    else if o = 0x24 then s.answerWord (s.slewLeft n)
    else s.plainRead 0 a
  else if a = ALM_PTC0 then s.latchRead 4 rpn (word s.ptc) (word (s.ptc / 2 ^ 32)) 0
  else if a = ALM_PTC1 then s.answerWord (s.getLatch 4 rpn).1
  else if a = ALM_ANG_ANG 0 || a = ALM_ANG_ANG 1 then
    let n := (a - 0x60040400) / 0x40
    s.latchRead (5 + n) rpn (s.reg a) (wordOfInt (s.angExt n / 2 ^ 32)) 0
  else if a = ALM_ANG_REV 0 || a = ALM_ANG_REV 1 then s.answerWord (s.getLatch (5 + (a - 0x60040400) / 0x40) rpn).1
  else if a = ALM_LIN_CNT0 then s.latchRead 7 rpn (word s.lin.cnt) (word (s.lin.cnt / 2 ^ 32)) 0
  else if a = ALM_LIN_CNT1 then s.answerWord (s.getLatch 7 rpn).1
  else if a = ALM_MNS_PHASE then
    let p := ((s.mnsAt (s.clockNs 0)).emod (2 ^ 48)).toNat
    s.latchRead 8 rpn (word (p % 65536)) (word (p / 65536)) 0
  else if a = ALM_MNS_CYC then s.answerWord (s.getLatch 8 rpn).1
  else if a = CAL_STAT then
    s.answerWord (CAL_STAT_PRED.put (CAL_STAT_ARMED.put (s.reg a) s.armedEntries.length) s.predCount)
  else if a = ALM_CAP_LOST then
    let s' := s.plainRead events a
    if events = 0 then s' else s'.putT96 ALM_CAP_FL0 ALM_CAP_FL1 ALM_CAP_FL2 (s.clock 0).t
  else s.plainRead events a

end Sys2Proof.Machine
end

