-- ==== Sys2Proof/Machine/Campanile.lean ====
section
/-! DEFINITION. Campanile node operation: startup and integration, transmission, reception, latest-value buffers, leap slots,
synchronisation, and the node's registers (R309-R355).
Choices of the model: log entries 71, 72, 73, 107. -/

set_option autoImplicit false

namespace Sys2Proof.Machine

open Sys2Proof

/-- The state with the node's record changed. -/
def State.updCamp (s : State) (f : Camp → Camp) : State := { s with camp := f s.camp }

/-- The node's state (R325): 0 CONFIG, 1 LISTEN, 2 COLDSTART, 3 INTEGRATE, 4 ACTIVE, 5 ALONE. -/
def State.ctb (s : State) : Nat := s.fld CTB_STAT CTB_STAT_STATE

/-- The active table. -/
def State.ctbTbl (s : State) : Nat := s.fld CTB_STAT CTB_STAT_TBL

/-- The cycle count (R313). -/
def State.cyc (s : State) : Nat := (s.reg CTB_CYCNUM).toNat % 64

/-- The node's identifier. -/
def State.nodeId (s : State) : Nat := s.fld CTB_NODE CTB_NODE_NODEID

/-- The clock that frames are stamped against (R334). -/
def State.ctbClk (s : State) : Nat :=
  if s.fld (ALM_TC_CTL 1) ALM_TC_CTL_OWN = 2 then 1 else s.fld CTB_TSCFG CTB_TSCFG_CLK

/-- The data mover of the Campanile. -/
abbrev campInit : Init := .campMover

/-! ### State changes (R325) -/

/-- Ends the ownership or claim of a leap slot; the leap state becomes `st` (R341). -/
def State.leapEnd (s : State) (st : Nat) : State :=
  let owned := s.flag CTB_STAT CTB_STAT_LEAPOWN
  let s := (s.setFlag CTB_STAT CTB_STAT_LEAPOWN false).setFld CTB_LEAPSTAT CTB_LEAPSTAT_STATE st
  let s := s.updCamp fun x => { x with leap := none, leapMiss := 0 }
  if owned then s.ringCtb else s

/-- The silence counts start at 0 (R339). -/
def State.watchFresh (s : State) : State :=
  s.updCamp fun x => { x with silence := Vector.replicate 8 0, reach := [], unwatched := [] }

/-- Leaving ACTIVE: leap ownership ends; TC1 goes on without slew and unlocked (R341, R354). -/
def State.leaveActive (s : State) : State :=
  if s.ctb = 4 then
    let s := s.leapEnd 0
    let s := s.setFlag CTB_SYNCSTAT CTB_SYNCSTAT_TC1LOCK false
    if s.owns 1 7 && s.flag CTB_TC1CFG CTB_TC1CFG_EN then s.setSlew 1 0 else s
  else s

/-- The node enters a state: LISTEN counts STARTS, ACTIVE starts watching, ALONE is flagged; the state doorbell rings. -/
def State.enterCtb (s : State) (st : Nat) : State :=
  let s := s.leaveActive
  let s := s.setFld CTB_STAT CTB_STAT_STATE st
  let s := s.updCamp fun x => { x with wins := [], fetched := [], sentCyc := false, echoCyc := false, resp := false }
  let s := if st = 1 then s.count CTB_STARTS 1 else s
  let s := if st = 4 then
      let s := s.watchFresh
      let s := s.updCamp fun x => { x with noEcho := 0 }
      s.setFld CTB_LEAPSTAT CTB_LEAPSTAT_STATE (s.fld CTB_LEAPCFG CTB_LEAPCFG_EN)
    else s
  let s := if st = 5 then s.setFlag CTB_STAT CTB_STAT_ALONE true else s
  s.ringCtb

/-- START of a valid configuration: LISTEN, with the TBLSEL table, rho 0. -/
def State.startCtb (s : State) : State :=
  let s := (s.setFlag CTB_STAT CTB_STAT_CFGERR false).setFld CTB_STAT CTB_STAT_ATTEMPT 0
  let s := s.setFld CTB_STAT CTB_STAT_TBL (s.fld CTB_NODE CTB_NODE_TBLSEL)
  (s.updCamp fun x => { x with sync := Sync.init }).enterCtb 1

/-- CTB_START (R325, R343): ignored outside CONFIG; a bad register is refused at once, the table is validated. -/
def ctbStart (s : State) : State :=
  let t := s.fld CTB_NODE CTB_NODE_TBLSEL
  if s.ctb != 0 then s
  else if !s.timingOk then s.nodeRefused t (none, 1)
  else if s.flag CTB_NODE CTB_NODE_CSN && !s.flag CTB_NODE CTB_NODE_SYNCN then s.nodeRefused t (none, 9)
  else if validOf s.camp.valid t then s.startCtb
  else s.updCamp fun x => { x with jobs := (x.jobs.filter fun j => j.2 != 1) ++ [(t, 1)] }

/-- HALT (R325): asked; CTL.HALT reads 1 until CONFIG. -/
def ctbHalt (s : State) : State :=
  if s.ctb = 0 then s else (s.updCamp fun x => { x with halt := true }).setFlag CTB_CTL CTB_CTL_HALT true

/-- The frame in transmission has ended: the node enters CONFIG, and an armed switch is cancelled (R324). -/
def ctbHaltComplete (s : State) : State :=
  if s.camp.halt then
    let s := (s.enterCtb 0).disarmNode
    (s.updCamp fun x => { x with halt := false, jobs := [] }).setFlag CTB_CTL CTB_CTL_HALT false
  else s

/-- RESTART (R325, R328). -/
def ctbRestart (s : State) : State :=
  if s.ctb = 5 then (s.setFld CTB_STAT CTB_STAT_ATTEMPT 0).enterCtb 1 else s

/-- Counters of the node and of its synchronisation. -/
def ctbCounter (a : Nat) : Bool :=
  (Nat.ble 0x600C0100 a && Nat.blt a 0x600C0180) || (Nat.ble CTB_DISAGREE a && Nat.ble a CTB_STARTS) ||
    (Nat.ble CTB_OCSAT a && Nat.ble a CTB_DEVREJ)

/-- The node partial reset (R344, R355). -/
def ctbReset (s : State) : State :=
  let s := if s.ctb = 0 then s else s.leaveActive.ringCtb
  let s := s.resetRegs fun a => ctbCounter a || a == CTB_STAT || a == CTB_LEAPSTAT || a == CTB_CYCNUM || a == CTB_CYCPOS ||
    a == CTB_SYNCSTAT || a == CTB_OFSCORR || a == CTB_RATECORR || (Nat.ble (CTB_DEV 0) a && Nat.ble a (CTB_DEV 7)) || a == CTB_CTL
  let s := ((s.disarmNode).setFlag CTB_SWITCH CTB_SWITCH_DONE false).setFlag CTB_SWITCH CTB_SWITCH_TOOLATE false
  s.updCamp fun x => { Camp.init with valid := x.valid }

/-- A write of CTB_CTL (R343): the first of BLKRST, HALT, START, RESTART acts. -/
def ctbCtlWrite (v : Word) (s : State) : State :=
  (if v.getLsbD 3 then ctbReset s
   else if v.getLsbD 1 then ctbHalt s
   else if v.getLsbD 0 then ctbStart s
   else if v.getLsbD 2 then ctbRestart s
   else s).answer .ok

/-- CTB_START (R325). -/
def execCtbStart (i : Init) (s : State) : Host.Outcome State Fault Refusal :=
  .next (s.gate i CTB_CTL (ctbCtlWrite 1))

/-- CTB_HALT (R325). -/
def execCtbHalt (i : Init) (s : State) : Host.Outcome State Fault Refusal :=
  .next (s.gate i CTB_CTL (ctbCtlWrite 2))

/-- CTB_HALT_COMPLETE (R325). -/
def execCtbHaltComplete (s : State) : Host.Outcome State Fault Refusal := .next (ctbHaltComplete s)

/-- CTB_RESTART (R325). -/
def execCtbRestart (i : Init) (s : State) : Host.Outcome State Fault Refusal :=
  .next (s.gate i CTB_CTL (ctbCtlWrite 4))

/-- CTB_BLKRST (R344). -/
def execCtbBlkrst (i : Init) (s : State) : Host.Outcome State Fault Refusal :=
  .next (s.gate i CTB_CTL (ctbCtlWrite 8))

/-! ### Validation and switch (R321, R323, R324, R342) -/

/-- Validation of table `t` of the node ends: its status, and what waits for it: START, an arm, an adoption. -/
def nodeValidated (t : Nat) (s : State) : State :=
  if !(s.camp.jobs.any fun j => j.1 == t) then s
  else
    let jobs := s.camp.jobs.filter fun j => j.1 == t
    let r := s.validateNode t
    let s := s.updCamp fun x => { x with jobs := x.jobs.filter fun j => j.1 != t, valid := setValid x.valid t r.isNone }
    jobs.foldl (fun s j =>
      match r, j.2 with
      | none, 1 => if s.ctb = 0 then s.startCtb else s
      | none, 2 => s.nodeArmed
      | none, _ => s
      | some v, 3 => s.setReg CTB_CFGERR (cfgErrWord t v)
      | some v, _ => s.nodeRefused t v) s

/-- Validation of star table `t` ends: the arm that waits for it is made or refused (R367, R368). -/
def starValidated (t : Nat) (s : State) : State :=
  if s.star.jobs.contains t then
    let r := s.validateStar t
    let s := { s with star := { s.star with jobs := [], valid := setValid s.star.valid t r.isNone } }
    match r with
    | none => s.starArmed
    | some v => s.starRefused t v
  else s

/-- TABLE_VALIDATION_COMPLETE (R321, R367). -/
def execTableValidationComplete (star : Bool) (t : Fin 2) (s : State) : Host.Outcome State Fault Refusal :=
  .next (if star then starValidated t s else nodeValidated t s)

/-- A write of CTB_SWITCH (R323, R324): W1C flags, CANCEL, ARM; without ARM the fields are written. -/
def ctbSwitchWrite (v : Word) (s : State) : State :=
  let a := CTB_SWITCH
  let s := s.setReg a (s.reg a &&& ~~~(v &&& 0xC0000))
  let s := if v.getLsbD 17 then s.cancelNode else s
  (if v.getLsbD 16 then s.armNode (v.toNat % 2) (bitsOf v.toNat 8 6)
   else s.setReg a ((s.reg a &&& ~~~(0x3F01 : Word)) ||| (v &&& 0x3F01))).answer .ok

/-- SWITCH_ARM (R323): a write of CTB_SWITCH with ARM. -/
def execSwitchArm (i : Init) (v : Word) (s : State) : Host.Outcome State Fault Refusal :=
  .next (s.gate i CTB_SWITCH (ctbSwitchWrite (v ||| 0x10000)))

/-- SWITCH_CANCEL (R324): a write of CTB_SWITCH with CANCEL, its other fields as they stand. -/
def execSwitchCancel (i : Init) (s : State) : Host.Outcome State Fault Refusal :=
  .next (s.gate i CTB_SWITCH fun (s : State) => ctbSwitchWrite ((s.reg CTB_SWITCH &&& 0x3F01) ||| 0x20000) s)

/-- The entry of leap candidate `i` in table `t`. -/
def State.candEntry (s : State) (t i : Nat) : Option Nat :=
  if s.flag (CTB_LEAPC i) CTB_LEAPC_VALID then
    (List.range 1024).find? fun k => (s.entry t k).type == 3 && (s.entry t k).slotid == s.fld (CTB_LEAPC i) CTB_LEAPC_SLOTID
  else none

/-- The armed switch takes effect at a cycle start (R323, R342). -/
def State.switchEffect (s : State) : State :=
  let t := s.camp.arm.1
  let old := s.ctbTbl
  let keep := match s.camp.leap with
    | none => true
    | some i =>
      match s.candEntry old i, s.candEntry t i with
      | some k, some j => (s.entry old k).start == (s.entry t j).start && (s.entry old k).dur == (s.entry t j).dur
      | _, _ => false
  let s := s.disarmNode
  let s := ((s.setFld CTB_STAT CTB_STAT_TBL t).setFlag CTB_SWITCH CTB_SWITCH_DONE true).count CTB_SWITCH_CNT 1
  let s := s.updCamp fun x => { x with swEff := some (s.reg CTB_CYCNUM).toNat }
  let s := if keep then s else (s.leapEnd 1).watchFresh
  s.ringCtb

/-! ### Cycle start (R313, R325, R327, R329, R354) -/

/-- TC1 is steered at a cycle start in ACTIVE (R354). -/
def State.steerTc1 (s : State) : State :=
  if s.owns 1 7 && s.flag CTB_TC1CFG CTB_TC1CFG_EN then
    let cl : Int := max 1 s.cl
    let s := s.setRate 1 (wordOfInt (clampTo 131072000 ((-s.camp.sync.rho * 131072000000 * 2 + 16 * cl) / (32 * cl))))
    let t := (s.clockNs 1 - (s.reg CTB_GTPHASE).toNat).emod cl
    let e := if cl ≤ 2 * t then t - cl else t
    let st : Int := max 100 (s.fld CTB_TC1CFG CTB_TC1CFG_GTSTEP)
    let s := if st < e.natAbs then s.stepTo 1 ((s.clock 1).t - e * 65536) else s.setSlew 1 (wordOfInt (-e))
    s.setFlag CTB_SYNCSTAT CTB_SYNCSTAT_TC1LOCK (decide (e.natAbs ≤ 100))
  else s.setFlag CTB_SYNCSTAT CTB_SYNCSTAT_TC1LOCK false

/-- ECHOMAX and INTCYC (R343). -/
def State.echomax (s : State) : Nat := max 1 (s.fld CTB_STARTUP CTB_STARTUP_ECHOMAX)
def State.intcyc (s : State) : Nat := max 2 (s.fld CTB_STARTUP CTB_STARTUP_INTCYC)

/-- What the cycle that ends decides (R325, R327, R329, R351). -/
def State.cycleEnds (s : State) : State :=
  let c := s.camp
  match s.ctb with
  | 2 =>
    if c.resp then (if c.echoCyc then s.enterCtb 4 else s)
    else
      let n := s.fld CTB_STAT CTB_STAT_ATTEMPT + 1
      let s := s.setFld CTB_STAT CTB_STAT_ATTEMPT n
      if max 1 (s.fld CTB_STARTUP CTB_STARTUP_CSMAX) ≤ n then s.enterCtb 5 else s
  | 3 =>
    if c.fresh then s.updCamp fun x => { x with fresh := false }
    else if c.sync.vals.any fun v => v.node != s.nodeId && decide (v.d.natAbs ≤ s.oclim) then
      let s := s.updCamp fun x => { x with intc := x.intc + 1 }
      if s.intcyc ≤ s.camp.intc then s.enterCtb 4 else s
    else s.enterCtb 1
  | 4 =>
    if !c.sentCyc then s
    else if c.echoCyc then s.updCamp fun x => { x with noEcho := 0 }
    else
      let s := s.updCamp fun x => { x with noEcho := x.noEcho + 1 }
      if s.echomax ≤ s.camp.noEcho then (s.setFlag CTB_STAT CTB_STAT_ECHOLOSS true).enterCtb 1 else s
  | _ => s

/-- A new cycle begins. -/
def cycleStart (s : State) : State :=
  if s.ctb != 2 && s.ctb != 3 && s.ctb != 4 then s
  else
    let s := s.cycleEnds
    let s := s.updCamp fun x => { x with
      wins := [], fetched := [], sentCyc := false, echoCyc := false, resp := false, start := s.ticks
      sync := { x.sync with prev := x.sync.vals, vals := [] } }
    if s.ctb != 2 && s.ctb != 3 && s.ctb != 4 then s
    else
      let s := s.setReg CTB_CYCNUM (s.reg CTB_CYCNUM + 1)
      let s := if s.flag CTB_STAT CTB_STAT_ARMED && s.camp.arm.2 == s.cyc then s.switchEffect else s
      let s := if s.ctb = 4 then s.steerTc1 else s
      s.ringIf (s.flag CTB_EVT CTB_EVT_CYCEN && (s.ctb == 2 || s.ctb == 4)) (s.fld CTB_EVT CTB_EVT_DBAGENT)
        (s.fld CTB_EVT CTB_EVT_CYCBIT)

/-- CYCLE_START (R313). -/
def execCycleStart (s : State) : Host.Outcome State Fault Refusal := .next (cycleStart s)

/-- LISTEN cycles have passed without a valid frame (R325, R327): a coldstart node starts a cycle of its own. -/
def listenTimeout (s : State) : State :=
  if s.ctb = 1 && s.flag CTB_NODE CTB_NODE_CSN then
    let s := (s.setReg CTB_CYCNUM 0).setFld CTB_STAT CTB_STAT_TBL (s.fld CTB_NODE CTB_NODE_TBLSEL)
    let s := s.updCamp fun x => { x with start := s.ticks, fresh := false, sync := { x.sync with vals := [], prev := [] } }
    s.enterCtb 2
  else s

/-- LISTEN_TIMEOUT (R325). -/
def execListenTimeout (s : State) : Host.Outcome State Fault Refusal := .next (listenTimeout s)

/-! ### Windows -/

/-- The window record of entry `k` in this cycle. -/
def State.win (s : State) (k : Nat) : Win :=
  (s.camp.wins.find? fun w => w.k == k).getD ⟨k, false, false, false, none, false, false, false, false, none, false⟩

/-- The state with a window record replaced. -/
def State.setWin (s : State) (w : Win) : State :=
  s.updCamp fun x => { x with wins := w :: x.wins.filter fun y => y.k != w.k }

/-- Adds a deviation value (R345, R346): one beyond 2 x OCLIM is rejected and counted. -/
def State.addDev (s : State) (v : DevVal) : State :=
  if 2 * s.oclim < v.d.natAbs then s.countSat CTB_DEVREJ 1 else s.updCamp fun x => { x with sync := x.sync.add v }

/-! ### Transmission (R330, R331, R337, R340) -/

/-- The leap candidate that is to be claimed next: the first to have reached K (R340). -/
def State.claimNext (s : State) : Option Nat :=
  (s.camp.reach.foldl (fun (m : Option (Nat × Nat)) r =>
    match m with
    | none => some r
    | some q => if r.1 < q.1 || (r.1 == q.1 && r.2 < q.2) then some r else some q) none).map (·.2)

/-- Whether the node sends in entry `k` of its active table now, and the candidate it claims with it (R330, R340, R341). -/
def State.sends (s : State) (k : Nat) : Option (Option Nat) :=
  let e := s.entry s.ctbTbl k
  if !e.applies s.cyc || s.camp.halt then none
  else if s.ctb = 2 then (if e.type = 2 && e.sync then some none else none)
  else if s.ctb != 4 then none
  else if e.type = 2 then some none
  else if e.type = 3 then
    match s.camp.leap with
    | some i => if s.flag CTB_STAT CTB_STAT_LEAPOWN && s.candEntry s.ctbTbl i == some k then some none else none
    | none =>
      match s.claimNext with
      | some i => if s.flag CTB_LEAPCFG CTB_LEAPCFG_EN && s.candEntry s.ctbTbl i == some k then some (some i) else none
      | none => none
  else none

/-- The mover reads the transmit buffer of entry `k`: GEN and payload; a GEN that is odd or a failed read gives a null frame
as inconsistent, a GEN of 0 a null frame only (R331). -/
def txBufferFetch (k : Nat) (s : State) : State :=
  if (s.sends k).isNone then s
  else
    let e := s.entry s.ctbTbl k
    let (g, f, s) := s.moverWord campInit e.buf
    let (d, f', s) := s.moverRead campInit (e.buf + 16) e.plen
    let ok := f.isNone && f'.isNone && g.toNat % 2 == 0
    s.updCamp fun x => { x with
      fetched := (k, g, if ok && g != 0 then d else [], !ok) :: x.fetched.filter fun y => y.1 != k }

/-- TX_BUFFER_FETCH (R331). -/
def execTxBufferFetch (k : Fin 1024) (s : State) : Host.Outcome State Fault Refusal := .next (txBufferFetch k s)

/-- One word written by the mover; a failure is reported to Vigil. -/
def State.campWord (s : State) (a : Nat) (w : Word) : State :=
  match s.moverWrite campInit a (toBytes w.toNat 4) with
  | (none, s) => s
  | (some _, s) => s.report 15 (resId 11 0) a 42

/-- At the action point the node sends its frame on all effective channels (R330). -/
def slotTransmit (k : Nat) (s : State) : State :=
  match s.sends k with
  | none => s
  | some claim =>
    if (s.win k).sent.isSome then s
    else
      let s := if s.camp.fetched.any fun y => y.1 == k then s else txBufferFetch k s
      let e := s.entry s.ctbTbl k
      let (g, d, inc) := ((s.camp.fetched.find? fun y => y.1 == k).map (·.2)).getD (0, [], true)
      let nul := inc || g == 0
      let h : CampHdr := ⟨e.slotid, s.cyc, if nul then 0 else e.plen, e.sync, s.ctb == 2, e.type == 3, nul, s.nodeId, s.ctbTbl⟩
      let fr := campFrame h (if nul then [] else d)
      let clk := s.ctbClk
      let old := Tbl.get (fun _ => 0) s.camp.gens k
      let (st, f, s) := s.moverWord campInit (e.buf + 4)
      let age := if old = g then min 255 ((if f.isNone then st.toNat % 256 else 0) + 1) else 1
      let s := s.campWord (e.buf + 4) (word (age + bit nul * 2 ^ 8 + bit inc * 2 ^ 9 + s.cyc * 2 ^ 10 + clk * 2 ^ 16))
      let s := s.campWord (e.buf + 8) (s.reg CTB_CYCNUM)
      let (dv, s) := s.free
      let ts := s.clockNs clk + ((dv.toNat % 17 : Nat) : Int) - 8
      let s := s.campWord (e.buf + 12) (t32Of (ts.toNat * 65536))
      let s := (List.range 2).foldl (fun s c => if s.effective e c then s.count (CTB_CH_TXOK c) 1 else s) s
      let s := if nul then s.count CTB_TXNULL 1 else s
      let s := if inc then s.countSat CTB_TXINCONS 1 else s
      let s := s.setWin { s.win k with sent := some fr }
      let s := s.updCamp fun x => { x with
        sentCyc := true, last := fr, gens := Tbl.set (fun _ => 0) x.gens k g, fetched := x.fetched.filter fun y => y.1 != k }
      let s := if e.sync then s.addDev ⟨s.nodeId, 0, e.start⟩ else s
      match claim with
      | some i =>
        let s := s.updCamp fun x => { x with leap := some i, leapMiss := 0, reach := x.reach.filter fun r => r.2 != i }
        let a := CTB_LEAPSTAT
        (((s.setFld a CTB_LEAPSTAT_STATE 2).setFld a CTB_LEAPSTAT_SLOTID e.slotid).setFld a CTB_LEAPSTAT_CAND i).count CTB_LEAPCLM 1
      | none => s.ringIf (e.w2.testBit 14) (s.fld CTB_EVT CTB_EVT_DBAGENT) (bitsOf e.w2 24 5)

/-- SLOT_TRANSMIT (R330). -/
def execSlotTransmit (k : Fin 1024) (s : State) : Host.Outcome State Fault Refusal := .next (slotTransmit k s)

/-! ### Reception (R326, R332, R333, R336) -/

/-- A frame that a listening node adopts its timing from (R326, R351): table, cycle count, and the ns that have passed since its
first bit. The cycle position makes its deviation 0. -/
def State.adopt (s : State) (h : CampHdr) (e : SchedEntry) (ago : Int) : State :=
  let s := s.disarmNode
  let dly : Int := s.fld (CTB_SYNCDLY h.node) CTB_SYNCDLY_DLY
  let back := (ago + (e.start * s.mtlen + s.apo : Nat) * 8 + dly) / 8
  let s := (s.setFld CTB_STAT CTB_STAT_TBL h.tbl).setReg CTB_CYCNUM (word h.cyc)
  let s := s.updCamp fun x => { x with
    start := (s.ticks - back).toNat, intc := 0, fresh := true, sync := { x.sync with vals := [], prev := [] } }
  s.enterCtb 3

/-- The TYPE 1 entry of a table with a SLOTID in a cycle count. -/
def State.rxEntry (s : State) (t slotid cyc : Nat) : Option SchedEntry :=
  ((List.range 1024).find? fun k =>
    (s.entry t k).type == 1 && (s.entry t k).slotid == slotid && (s.entry t k).applies cyc).map (s.entry t)

/-- A frame met by a node that may adopt a timing (R326): used where its table is validated, else the validation starts. -/
def State.tryAdopt (s : State) (bs : List Byte) (ago : Int) : State :=
  let h := hdrOf bs
  if !h.sync || h.node == s.nodeId then s
  else if !validOf s.camp.valid h.tbl then
    if s.camp.jobs.contains (h.tbl, 3) then s else s.updCamp fun x => { x with jobs := x.jobs ++ [(h.tbl, 3)] }
  else
    match s.rxEntry h.tbl h.slotid h.cyc with
    | some e => s.adopt h e ago
    | none => s

/-- The mover commits a valid frame to the buffer of entry `e` (R336): GEN + 1, payload, TS, CYCNUM and STATUS, GEN + 2. -/
def State.bufferCommit (s : State) (e : SchedEntry) (c : Nat) (bs : List Byte) (ts : Word) (clk : Nat) : State :=
  let h := hdrOf bs
  let b := e.buf
  let (g, _, s) := s.moverWord campInit b
  let s := s.campWord b (g + 1)
  let s := match s.moverWrite campInit (b + 16) ((bs.drop 8).take h.len) with
    | (none, s) => s
    | (some _, s) => s.report 15 (resId 11 0) (b + 16) 42
  let s := s.campWord (b + 12) ts
  let s := s.campWord (b + 8) (s.reg CTB_CYCNUM)
  let s := s.campWord (b + 4) (word (h.cyc + c * 2 ^ 6 + h.node * 2 ^ 16 + 2 ^ 20 + clk * 2 ^ 22 + h.len * 2 ^ 24))
  let s := s.campWord b (g + 2)
  let s := s.ringIf (e.w2.testBit 14) (s.fld CTB_EVT CTB_EVT_DBAGENT) (bitsOf e.w2 24 5)
  if e.w2.testBit 15 then s.trigger (bitsOf e.w2 16 8) else s

/-- Check 5 of R332: both delimiters in the window, and what the entry expects. Times in ns since the cycle start. -/
def State.slotCheck (s : State) (e : SchedEntry) (h : CampHdr) (at' tend : Int) : Bool :=
  let m : Int := s.mtlen * 8
  decide (e.start * m ≤ at') && decide (tend < (e.start + e.dur) * m) && h.slotid == e.slotid && h.cyc == s.cyc &&
    ((!h.nul && h.len == e.plen) || (h.nul && h.len == 0)) && (!e.w3.testBit 4 || h.node == e.w3 % 16)

/-- A copy in the window of TYPE 1 entry `k` on channel `c` (R332, R333, R345). -/
def State.rxSlot (s : State) (k c : Nat) (e : SchedEntry) (bs : List Byte) (code : Bool) (at' tend : Int) : State :=
  let h := hdrOf bs
  let chk := frameCheck bs
  if code then s.countSat (CTB_CH_RXCODE c) 1
  else if chk = 2 then s.countSat (CTB_CH_RXHCRC c) 1
  else if chk = 3 then s.countSat (CTB_CH_RXFCRC c) 1
  else if h.tbl != s.ctbTbl then s.countSat CTB_TBLERR 1
  else if !s.slotCheck e h at' tend then s.countSat (CTB_CH_RXSLOT c) 1
  else
    let s := s.count (CTB_CH_RXOK c) 1
    let w := s.win k
    let body := bs.take (bs.length - 4)
    let w' := if c = 0 then { w with okA := true } else { w with okB := true }
    let s := if h.node != s.nodeId then s.updCamp fun x => { x with resp := true } else s
    match w.taken with
    | none =>
      let s := s.setWin { w' with taken := some (c, body), nul := h.nul, committed := !h.nul }
      let clk := s.ctbClk
      let (dv, s) := s.free
      let ts := s.clockNs clk - (tend - at') + ((dv.toNat % 17 : Nat) : Int) - 8
      let s := if h.nul then s else s.bufferCommit e c bs (t32Of (ts.toNat * 65536)) clk
      if h.sync && h.node != s.nodeId then
        s.addDev ⟨h.node, at' - ((e.start * s.mtlen + s.apo : Nat) * 8 + s.fld (CTB_SYNCDLY h.node) CTB_SYNCDLY_DLY), e.start⟩
      else s
    | some (_, d) =>
      let s := s.setWin { w' with nul := w.nul || h.nul }
      if d = body then s
      else
        let s := s.countSat CTB_DISAGREE 1
        if w.committed then
          let (st, f, s) := s.moverWord campInit (e.buf + 4)
          if f.isNone then s.campWord (e.buf + 4) (st ||| 0x200000) else s
        else s

/-- A frame in a window in which the node sends or may claim (R329, R340): the echo of its own frame, or a frame of another
node. -/
def State.rxOwn (s : State) (k c : Nat) (e : SchedEntry) (bs : List Byte) (code : Bool) (at' tend : Int) : State :=
  let h := hdrOf bs
  let m : Int := s.mtlen * 8
  let inWin := decide (e.start * m ≤ at') && decide (tend < (e.start + e.dur) * m)
  if code || frameCheck bs != 0 then s
  else
    let w := s.win k
    if inWin && w.sent == some bs then
      (s.setWin (if c = 0 then { w with echoA := true } else { w with echoB := true })).updCamp fun x => { x with echoCyc := true }
    else if h.node == s.nodeId then s
    else
      let s := (s.setWin { w with other := w.other || inWin }).updCamp fun x => { x with resp := true }
      if s.ctb = 2 && s.camp.sentCyc && !s.camp.echoCyc then s.tryAdopt bs (tend - at') else s

/-- A received frame copy (R332): channel, the entry in whose window it arrived, its bytes from H0 through the frame CRC, whether
it had a code error, and the ns since the cycle start of its first and its last bit. -/
def ctbReceive (c k : Nat) (bs : List Byte) (code : Bool) (at' tend : Int) (s : State) : State :=
  if !(s.reg CTB_NODE).getLsbD (6 + c) then s
  else if s.ctb = 1 || s.ctb = 5 then
    if code || frameCheck bs != 0 then s else s.tryAdopt bs (tend - at')
  else if s.ctb != 2 && s.ctb != 3 && s.ctb != 4 then s
  else
    let e := s.entry s.ctbTbl k
    if !e.applies s.cyc || !s.effective e c then s
    else
      let s := s.setWin { s.win k with start := true }
      if e.type = 1 then
        let s := s.rxSlot k c e bs code at' tend
        if s.ctb = 2 && s.camp.sentCyc && !s.camp.echoCyc && !code && frameCheck bs == 0 then s.tryAdopt bs (tend - at') else s
      else s.rxOwn k c e bs code at' tend

/-- CTB_FRAME_RECEIVE (R332). -/
def execCtbFrameReceive (c : Fin 2) (k : Fin 1024) (bs : List Byte) (code : Bool) (start stop : Int) (s : State) :
    Host.Outcome State Fault Refusal := .next (ctbReceive c k bs code start stop s)

/-! ### Window end (R329, R333, R336, R339-R341) -/

/-- The silence count of candidate `i` after a window of its slot (R339). -/
def State.watch (s : State) (i : Nat) (silent : Bool) : State :=
  let n := if silent then min 255 (s.camp.silence.getD i 0 + 1) else 0
  let s := s.updCamp fun x => { x with silence := x.silence.setIfInBounds i n }
  let kk := max 1 (s.fld CTB_LEAPCFG CTB_LEAPCFG_K)
  let reach := s.camp.reach
  let reach := if n < kk then reach.filter (fun r => r.2 != i)
    else if reach.any (fun r => r.2 == i) then reach
    else reach ++ [((s.reg CTB_CYCNUM).toNat, i)]
  s.updCamp fun x => { x with reach := reach }

/-- A claim has failed, or the ownership is lost (R340, R341). -/
def State.leapLost (s : State) (i : Nat) (claim : Bool) : State :=
  let s := (s.leapEnd 1).countSat CTB_LEAPLOST 1
  let s := s.updCamp fun x => { x with silence := x.silence.setIfInBounds i 0 }
  if claim then s.updCamp fun x => { x with unwatched := (((s.reg CTB_CYCNUM).toNat + 1) % 2 ^ 32, i) :: x.unwatched } else s

/-- The end of the window of leap entry `k`. -/
def State.leapWindow (s : State) (k : Nat) (w : Win) : State :=
  if s.ctb != 4 || !s.flag CTB_LEAPCFG CTB_LEAPCFG_EN then s
  else
    let echo := w.echoA || w.echoB
    match s.camp.leap with
    | some i =>
      if s.candEntry s.ctbTbl i != some k || w.sent.isNone then s
      else if s.flag CTB_STAT CTB_STAT_LEAPOWN then
        if echo then s.updCamp fun x => { x with leapMiss := 0 }
        else
          let s := s.updCamp fun x => { x with leapMiss := x.leapMiss + 1 }
          if s.echomax ≤ s.camp.leapMiss then s.leapLost i false else s
      else if echo && !w.other then
        let e := s.entry s.ctbTbl k
        let s := ((s.setFld CTB_LEAPSTAT CTB_LEAPSTAT_STATE 3).setFlag CTB_STAT CTB_STAT_LEAPOWN true).ringCtb
        s.ringIf (e.w2.testBit 14) (s.fld CTB_EVT CTB_EVT_DBAGENT) (bitsOf e.w2 24 5)
      else s.leapLost i true
    | none =>
      match (List.range 8).find? fun i => s.candEntry s.ctbTbl i == some k with
      | some i =>
        if s.camp.unwatched.contains ((s.reg CTB_CYCNUM).toNat, i) then s else s.watch i (!w.start)
      | none => s

/-- The window of entry `k` ends. -/
def slotWindowEnd (k : Nat) (s : State) : State :=
  let e := s.entry s.ctbTbl k
  if (s.ctb != 2 && s.ctb != 3 && s.ctb != 4) || !e.applies s.cyc then s
  else
    let w := s.win k
    let s := if e.type = 1 then
        let s := if s.effective e 0 && s.effective e 1 && w.okA != w.okB then s.countSat (CTB_CH_CHLOSS (bit w.okA)) 1 else s
        if w.committed then s
        else
          let (st, f, s) := s.moverWord campInit (e.buf + 4)
          if f.isSome then s.report 15 (resId 11 0) (e.buf + 4) 42
          else s.campWord (e.buf + 4) ((st &&& 0xFFFF007F) ||| word (bit w.nul * 2 ^ 7 + min 255 (bitsOf st.toNat 8 8 + 1) * 2 ^ 8)
            ||| 0)
      else s
    let s := if s.ctb = 4 && w.sent.isSome then
        (List.range 2).foldl (fun s c =>
          if s.effective e c && !(if c = 0 then w.echoA else w.echoB) then s.countSat (CTB_CH_ECHOMISS c) 1 else s) s
      else s
    let s := if e.type = 3 then s.leapWindow k w else s
    s.updCamp fun x => { x with wins := x.wins.filter fun y => y.k != k }

/-- SLOT_WINDOW_END (R336). -/
def execSlotWindowEnd (k : Fin 1024) (s : State) : Host.Outcome State Fault Refusal := .next (slotWindowEnd k s)

/-! ### Offset correction (R346, R348-R352) -/

/-- CTB_DEVk of the values of a cycle: which of them entered the mean. -/
def State.putDevs (s : State) (vals : List DevVal) : State :=
  let used := (ftaKept (vals.map (·.d))).map (·.2)
  (List.range 8).foldl (fun s k =>
    s.setReg (CTB_DEV k) (match vals[k]? with
      | some v => word ((clampTo 32767 v.d).emod 65536).toNat ||| word (v.node * 2 ^ 16 + 2 ^ 20 + bit (used.contains k) * 2 ^ 21)
      | none => 0)) s

/-- The offset-correction segment starts. -/
def offsetCorrection (s : State) : State :=
  if s.ctb != 2 && s.ctb != 3 && s.ctb != 4 then s
  else
    let y := s.camp.sync
    let r := s.correct y s.cyc (some s.nodeId)
    let a := CTB_SYNCSTAT
    let s := (s.putDevs y.vals).updCamp fun x => { x with sync := r.sync }
    let s := ((s.setFld a CTB_SYNCSTAT_NVAL y.vals.length).setFld a CTB_SYNCSTAT_NUSED (ftaKept (y.vals.map (·.d))).length).setFlag a
      CTB_SYNCSTAT_OCSATF r.ocSat
    let s := if s.cyc % 2 = 1 then s.setFlag a CTB_SYNCSTAT_RCSATF r.rcSat else s
    let s := s.setFld a CTB_SYNCSTAT_LOSTC (min 15 (max r.sync.lossN (max r.sync.lossO r.sync.lossR)))
    let s := if r.ocSat then s.countSat CTB_OCSAT 1 else s
    let s := if r.rcSat then s.countSat CTB_RCSAT 1 else s
    let s := (s.setReg CTB_OFSCORR (wordOfInt r.sync.oc)).setReg CTB_RATECORR (wordOfInt r.sync.rho)
    if (s.ctb = 4 || (s.ctb = 3 && !s.camp.fresh)) && s.syncLost r.sync then
      let s := if s.ctb = 4 then s.countSat CTB_SYNCLOSS 1 else s
      let s := s.updCamp fun x => { x with sync := { x.sync with lossN := 0, lossO := 0, lossR := 0 } }
      s.enterCtb 1
    else s

/-- OFFSET_CORRECTION (R348). -/
def execOffsetCorrection (s : State) : Host.Outcome State Fault Refusal := .next (offsetCorrection s)

/-! ### Registers (R343, R355) -/

/-- A write of CTB_LEAPCFG (R339, R341): K while in CONFIG; EN := 0 releases, EN := 1 starts watching afresh. -/
def leapCfgWrite (v : Word) (s : State) : State :=
  let was := s.flag CTB_LEAPCFG CTB_LEAPCFG_EN
  let s := s.plainWrite (s.ctb == 0) CTB_LEAPCFG v
  let on := s.flag CTB_LEAPCFG CTB_LEAPCFG_EN
  if was && !on then s.leapEnd 0
  else if on && !was then (if s.ctb = 4 then s.watchFresh.setFld CTB_LEAPSTAT CTB_LEAPSTAT_STATE 1 else s.watchFresh)
  else s

/-- LEAP_RELEASE (R341): a write of CTB_LEAPCFG. -/
def execLeapRelease (i : Init) (s : State) : Host.Outcome State Fault Refusal :=
  .next (s.gate i CTB_LEAPCFG fun (s : State) => leapCfgWrite (s.reg CTB_LEAPCFG &&& 0xFF) s)

/-- Whether node table `t` is quiescent (R322). -/
def State.tblQuiet (s : State) (t : Nat) : Bool :=
  s.ctb == 0 || !(s.ctbTbl == t || ((s.flag CTB_STAT CTB_STAT_ARMED || s.camp.jobs.any fun j => j.2 == 2) &&
    s.camp.arm.1 == t))

/-- A write in the CTB block. -/
def ctbWrite (a : Nat) (v : Word) (s : State) : State :=
  if Nat.ble 0x600C8000 a then
    let t := (a - 0x600C8000) / 0x4000
    if s.tblQuiet t then
      ((s.setReg a v).updCamp fun x => { x with valid := setValid x.valid t false }).answer .ok
    else s.answer (if v = s.reg a then .ok else .busError)
  else if a = CTB_CTL then ctbCtlWrite v s
  else if a = CTB_SWITCH then ctbSwitchWrite v s
  else if a = CTB_LEAPCFG then leapCfgWrite v s
  else if a = CTB_EVT then s.plainWrite true a (s.keepFld a CTB_EVT_DBAGENT (fun n => Nat.ble 36 n) v)
  else if a = CTB_TIMING || a = CTB_SEG || a = CTB_SYNCCFG || (Nat.ble (CTB_SYNCDLY 0) a && Nat.ble a (CTB_SYNCDLY 15)) then
    s.plainWrite (s.ctb == 0 && s.fld BFY_STAT BFY_STAT_STATE == 0) a v
  else s.plainWrite (s.ctb == 0) a v

/-- A read in the CTB block: CTB_CYCPOS is computed, and SILENT of CTB_LEAPSTAT while candidates are watched (R343). -/
def ctbRead (events : Word) (a : Nat) (s : State) : State :=
  if a = CTB_CYCPOS then
    if s.ctb = 2 || s.ctb = 3 || s.ctb = 4 then
      let (m, u) := s.cyclePos (s.ticks - s.camp.start) s.camp.sync.rho
      s.answerWord (word (m + u % 2048 * 2 ^ 16 + 2 ^ 31))
    else s.answerWord 0
  else if a = CTB_LEAPSTAT then
    let st := s.fld a CTB_LEAPSTAT_STATE
    s.answerWord (CTB_LEAPSTAT_SILENT.put (s.reg a) (if st = 1 || st = 2 then s.camp.silence.toList.foldl max 0 else 0))
  else s.plainRead events a

/-- CODE_GROUP_ALIGNMENT (R311, R369): a receive pair of the node (channel) or of a star branch gains or loses alignment. -/
def execCodeGroupAlignment (star : Bool) (n : Fin 17) (on : Bool) (s : State) : Host.Outcome State Fault Refusal :=
  .next (if star then s.setFlag (BFY_BR_STAT n) BFY_BR_STAT_SYNC on
    else if n.val = 0 then s.setFlag CTB_STAT CTB_STAT_SYNCA on
    else if n.val = 1 then s.setFlag CTB_STAT CTB_STAT_SYNCB on
    else s)

end Sys2Proof.Machine
end

