-- ==== Sys2Proof/Machine/Can.lean ====
section
/-! DEFINITION. The CAN FD controllers: acceptance filtering, receive storage, transmission, error confinement, halting and
validation, partial reset, registers (R371-R403).
Choices of the model: log entries 76, 77, 78, 107. -/

set_option autoImplicit false

namespace Sys2Proof.Machine

open Sys2Proof


/-- The hidden state of controller `n`. -/
def State.can (s : State) (n : Nat) : CanCtl := s.cans.getD n CanCtl.init

/-- The state with the hidden state of controller `n` changed. -/
def State.updCan (s : State) (n : Nat) (f : CanCtl → CanCtl) : State :=
  { s with cans := s.cans.setIfInBounds n (f (s.can n)) }

/-- Whether a control bit of controller `n` is 1. -/
def State.canCtl (s : State) (n : Nat) (f : Fld) : Bool := s.flag (CAN_CTL n) f

/-- The error state (R395): 0 error active, 1 error passive, 2 bus-off, 3 not on the bus. -/
def State.canErr (s : State) (n : Nat) : Nat := s.fld (CAN_ERR n) CAN_ERR_STATE

/-- Whether the controller takes part in bus activity: not halted, integrated, not bus-off (R400). -/
def State.onBus (s : State) (n : Nat) : Bool :=
  !s.flag (CAN_STAT n) CAN_STAT_HALTED && !(s.can n).integrating && Nat.blt (s.canErr n) 2

/-! ### Events (R399) -/

/-- An event: the doorbell, and EV4 of the engine. -/
def State.canEvent (s : State) (n : Nat) : State :=
  let s := s.ringEvt (CAN_EVT n)
  if s.flag (CAN_EVT n) CAN_EVT_EVEN then s.latchEv (s.fld (CAN_EVT n) CAN_EVT_EVENG) 4 else s

/-- Bit `f` of EVS becomes 1: an event where it was 0 and is enabled. -/
def State.canEvs (s : State) (n : Nat) (f : Fld) : State :=
  let old := s.flag (CAN_EVS n) f
  let s := s.setFlag (CAN_EVS n) f true
  if !old && s.flag (CAN_EVM n) f then s.canEvent n else s

/-! ### Message RAM (R372-R375) -/

/-- Base of the message RAM. -/
def State.ramBase (s : State) (n : Nat) : Nat := (s.reg (CAN_RAMBASE n)).toNat / 0x4000 * 0x4000

/-- The address of transmit buffer `i`. -/
def State.txBuf (s : State) (n i : Nat) : Nat := s.ramBase n + 80 * i

/-- SIZE in bytes and the element size E (R374). -/
def State.rxSize (s : State) (n : Nat) : Nat :=
  [8, 12, 16, 20, 24, 32, 48, 64].getD (s.fld (CAN_RXL n) CAN_RXL_SIZE) 64
def State.elemSize (s : State) (n : Nat) : Nat := 16 + s.rxSize n

/-- Queue and cell counts. -/
def State.qaLen (s : State) (n : Nat) : Nat := s.fld (CAN_RXL n) CAN_RXL_QALEN
def State.qbLen (s : State) (n : Nat) : Nat := s.fld (CAN_RXL n) CAN_RXL_QBLEN
def State.cells (s : State) (n : Nat) : Nat := s.fld (CAN_RXL n) CAN_RXL_CELLS

/-- The address of element `j` of the receive area: queue A, then queue B, then the cells. -/
def State.rxElem (s : State) (n j : Nat) : Nat := s.ramBase n + 0xE00 + s.elemSize n * j

/-- A word that the controller's mover reads from its message RAM; an uncorrectable error sets EVS.MEMERR (R375). -/
def State.canRead (s : State) (n a : Nat) : Option Nat × State :=
  match s.moverWord .canMover a with
  | (w, none, s) => (some w.toNat, s)
  | (_, some _, s) => (none, s.canEvs n CAN_EVS_MEMERR)

/-- Words 2 and 3 of a transmit buffer and receive elements are written by the mover. -/
def State.canWriteRam (s : State) (a : Nat) (d : List Byte) : State := (s.moverWrite .canMover a d).2

/-- The data bytes of a DLC (R389). -/
def dlcLen (fd : Bool) (dlc : Nat) : Nat :=
  if dlc ≤ 8 then dlc else if fd then [12, 16, 20, 24, 32, 48, 64].getD (dlc - 9) 64 else 8

/-! ### Acceptance filtering (R376-R381) -/

/-- Whether an enabled filter entry matches (R379). -/
def kindMatch (kind a b id : Nat) : Bool :=
  match kind with
  | 1 => Nat.ble a id && Nat.ble id b
  | 2 => id == a || id == b
  | 3 => Nat.land id b == Nat.land a b
  | _ => false

/-- The outcome of filtering: rejected by a read error, no match, or matched by entry `k` with its route. -/
inductive Filtered where
  | error | miss | hit (k route : Nat)
deriving DecidableEq, Repr

/-- The short entries from `k` on against a base identifier, `j` left. -/
def State.filterShort (s : State) (n id k : Nat) : Nat → Filtered × State
  | 0 => (.miss, s)
  | j + 1 =>
    match s.canRead n (s.ramBase n + 0xA00 + 4 * k) with
    | (none, s) => (.error, s)
    | (some w, s) =>
      if bitsOf w 27 5 == 0 && kindMatch (bitsOf w 0 2) (bitsOf w 5 11) (bitsOf w 16 11) id then (.hit k (bitsOf w 2 3), s)
      else State.filterShort s n id (k + 1) j

/-- The long entries from `k` on against an extended identifier, `j` left. -/
def State.filterLong (s : State) (n id k : Nat) : Nat → Filtered × State
  | 0 => (.miss, s)
  | j + 1 =>
    match s.canRead n (s.ramBase n + 0xC00 + 8 * k) with
    | (none, s) => (.error, s)
    | (some w0, s) =>
      match s.canRead n (s.ramBase n + 0xC00 + 8 * k + 4) with
      | (none, s) => (.error, s)
      | (some w1, s) =>
        if bitsOf w1 29 1 == 0 && kindMatch (bitsOf w1 30 2) (bitsOf w0 0 29) (bitsOf w1 0 29) id then
          (.hit k (bitsOf w0 29 3), s)
        else State.filterLong s n id (k + 1) j

/-- A rejected frame. -/
def State.canDrop (s : State) (n : Nat) : State := s.countSat (CAN_RXDROP n) 1

/-! ### Receive storage (R382-R386) -/

/-- A queue status register with read position, write position and level; FULL shows a level equal to the length. -/
def queueWord (r w l len : Nat) : Word := word (r + w * 2 ^ 8 + l * 2 ^ 16 + bit (l == len) * 2 ^ 24)

/-- The status register, the length and the lost counter of queue A or B. -/
def queueReg (b : Bool) (n : Nat) : Nat := if b then CAN_QBST n else CAN_QAST n
def queueLost (b : Bool) (n : Nat) : Nat := if b then CAN_QBLOST n else CAN_QALOST n
def State.queueLen (s : State) (b : Bool) (n : Nat) : Nat := if b then s.qbLen n else s.qaLen n

/-- The words of a receive element (R382). -/
def rxElement (f : CanFrame) (w1 : Nat) (ts : Word) (len seq size : Nat) : List Byte :=
  toBytes (f.id + bit f.ext * 2 ^ 29 + bit f.rmt * 2 ^ 30) 4 ++ toBytes w1 4 ++ toBytes ts.toNat 4 ++
    toBytes (len + seq * 2 ^ 16) 4 ++ f.data.take (min len size)

/-- Writes an element at position `j` of the receive area; SEQ and RXOK count it (R382, R383). -/
def State.storeElem (s : State) (n j : Nat) (f : CanFrame) (route hit : Option Nat) (mark : Bool) (ts : Word) (clk : Nat) : State :=
  let _ := route
  let len := if f.rmt then 0 else dlcLen f.fd f.dlc
  let size := s.rxSize n
  let trn := Nat.blt size len
  let w1 := f.dlc.val + bit f.fd * 2 ^ 4 + bit (f.fd && f.brs) * 2 ^ 5 + bit (f.fd && f.esi) * 2 ^ 6 + bit trn * 2 ^ 7 +
    bit mark * 2 ^ 8 + bit hit.isNone * 2 ^ 9 + bit (f.ext && hit.isSome) * 2 ^ 10 + hit.getD 0 * 2 ^ 11 + clk * 2 ^ 18
  let seq := (s.reg (CAN_RXSEQ n)).toNat % 65536
  let s := s.canWriteRam (s.rxElem n j) (rxElement f w1 ts len seq size)
  let s := (s.setReg (CAN_RXSEQ n) (word ((seq + 1) % 65536))).count (CAN_RXOK n) 1
  if trn then (s.countSat (CAN_TRNCNT n) 1).canEvs n CAN_EVS_TRN else s

/-- The mark of a stored frame: index or cell, place, deciding entry (R380). -/
def State.canMark (s : State) (n idx place : Nat) (ext : Bool) (hit : Option Nat) : State :=
  (s.setReg (CAN_MARK n) (word (idx + place * 2 ^ 6 + hit.getD 0 * 2 ^ 8 + bit (ext && hit.isSome) * 2 ^ 15))).canEvs n CAN_EVS_MARK

/-- A frame for queue A or B (R384). -/
def State.storeQueue (s : State) (n : Nat) (b : Bool) (f : CanFrame) (hit : Option Nat) (mark : Bool) (ts : Word) (clk : Nat) :
    State :=
  let q := queueReg b n
  let len := s.queueLen b n
  let l := s.fld q CAN_QAST_LEVEL
  if len ≤ l then (s.countSat (queueLost b n) 1).canEvs n CAN_EVS_LOST
  else
    let w := s.fld q CAN_QAST_WPOS
    let s := s.storeElem n (if b then s.qaLen n + w else w) f none hit mark ts clk
    let s := s.setReg q (queueWord (s.fld q CAN_QAST_RPOS) ((w + 1) % len) (l + 1) len)
    let s := s.canEvs n (if b then CAN_EVS_QB else CAN_EVS_QA)
    if mark then s.canMark n w (bit b) f.ext hit else s

/-- A frame for cell `i` (R385); a cell that does not exist rejects it (R380). -/
def State.storeCell (s : State) (n i : Nat) (f : CanFrame) (hit : Option Nat) (mark : Bool) (ts : Word) (clk : Nat) : State :=
  if s.cells n ≤ i then s.canDrop n
  else
    let a := if i < 32 then CAN_CELLNEW0 n else CAN_CELLNEW1 n
    let m := word (2 ^ (i % 32))
    let s := if s.reg a &&& m != 0 then (s.setReg a (s.reg a &&& ~~~m)).countSat (CAN_CELLOVR n) 1 else s
    let s := s.storeElem n (s.qaLen n + s.qbLen n + i) f none hit mark ts clk
    let s := (s.setReg a (s.reg a ||| m)).canEvs n CAN_EVS_CELL
    if mark then s.canMark n i 2 f.ext hit else s

/-- The route decides what happens to the frame (R380). -/
def State.canRoute (s : State) (n route : Nat) (f : CanFrame) (hit : Option Nat) (ts : Word) (clk : Nat) : State :=
  let a := CAN_ROUTE n route
  let mark := s.flag a CAN_ROUTE_MARK
  let cell := s.fld a CAN_ROUTE_CELL
  match s.fld a CAN_ROUTE_TARGET with
  | 0 => s.storeQueue n false f hit mark ts clk
  | 1 => s.storeQueue n true f hit mark ts clk
  | 2 => s.storeCell n cell f hit mark ts clk
  | 3 => s.storeCell n (match hit with | some k => (cell + k) % 64 | none => cell) f hit mark ts clk
  | _ => s.canDrop n

/-- A valid frame is filtered and routed (R376). -/
def State.canAccept (s : State) (n : Nat) (f : CanFrame) (ts : Word) (clk : Nat) : State :=
  let a := CAN_ACC n
  if f.rmt && s.flag a (if f.ext then CAN_ACC_NORMTL else CAN_ACC_NORMTS) then s.canDrop n
  else
    let (r, s) := if f.ext then s.filterLong n f.id 0 (s.fld a CAN_ACC_NLONG) else s.filterShort n f.id 0 (s.fld a CAN_ACC_NSHORT)
    match r with
    | .error => s.canDrop n
    | .hit k route => s.canRoute n route f (some k) ts clk
    | .miss => s.canRoute n (s.fld a (if f.ext then CAN_ACC_MISSL else CAN_ACC_MISSS)) f none ts clk

/-- The T32 stamp of a start-of-frame edge `ago` ns ago, accurate to 25 ns (R382), and its clock. -/
def State.canStamp (s : State) (n ago : Nat) : Word × Nat × State :=
  let clk := s.fld (CAN_TSCFG n) CAN_TSCFG_CLK
  let (dv, s) := s.free
  let t := s.clockNs clk - ago + ((dv.toNat % 51 : Nat) : Int) - 25
  (t32Of (t.toNat * 65536), clk, s)

/-! ### Error confinement (R395-R397) -/

/-- The error state follows the counters: error passive above 127; EVS.EP where it changes. -/
def State.canSettle (s : State) (n : Nat) : State :=
  let a := CAN_ERR n
  let st := s.canErr n
  let new := bit (Nat.blt 127 (s.fld a CAN_ERR_TEC) || Nat.blt 127 (s.fld a CAN_ERR_REC))
  if st < 2 && st != new then (s.setFld a CAN_ERR_STATE new).canEvs n CAN_EVS_EP else s

/-- A successful reception lowers REC; above 127 it becomes a value of 119-127 that ISO 11898-1 leaves open. -/
def State.recGood (s : State) (n : Nat) : State :=
  let a := CAN_ERR n
  let r := s.fld a CAN_ERR_REC
  if r < 128 then (s.setFld a CAN_ERR_REC (r - 1)).canSettle n
  else
    let (v, s) := s.free
    (s.setFld a CAN_ERR_REC (119 + v.toNat % 9)).canSettle n

/-- A valid received frame (R382). In internal loopback the controller receives only its own frames. -/
def canFrameReceived (n : Nat) (f : CanFrame) (ago : Nat) (s : State) : State :=
  if !s.onBus n || s.canCtl n CAN_CTL_LOOP then s
  else
    let (ts, clk, s) := s.canStamp n ago
    (s.recGood n).canAccept n f ts clk

/-- CAN_FRAME_RECEIVED (R382). -/
def execCanFrameReceived (n : Fin 4) (f : CanFrame) (ago : Nat) (s : State) : Host.Outcome State Fault Refusal :=
  .next (canFrameReceived n f ago s)

/-- A write of QARET or QBRET (R384). -/
def queueReturn (b : Bool) (n : Nat) (v : Word) (s : State) : State :=
  let q := queueReg b n
  let k := v.toNat % 128
  let l := s.fld q CAN_QAST_LEVEL
  let len := s.queueLen b n
  if k = 0 || l < k then s.answer .busError
  else (s.setReg q (queueWord ((s.fld q CAN_QAST_RPOS + k) % len) (s.fld q CAN_QAST_WPOS) (l - k) len)).answer .ok

/-- QUEUE_RETURN (R384): a write of CANn_QARET (`b` false) or CANn_QBRET. -/
def execQueueReturn (i : Init) (n : Fin 4) (b : Bool) (v : Word) (s : State) : Host.Outcome State Fault Refusal :=
  .next (s.gate i (if b then CAN_QBRET n else CAN_QARET n) (queueReturn b n v))

/-! ### Transmission (R387-R392) -/

/-- Writes word 2 of buffer `i`: RESULT, TOOLATE, TRIES and CLK. -/
def State.txResult (s : State) (n i result : Nat) (tooLate : Bool) (tries clk : Nat) : State :=
  s.canWriteRam (s.txBuf n i + 8) (toBytes (result + bit tooLate * 2 ^ 3 + tries * 2 ^ 8 + clk * 2 ^ 16) 4)

/-- TRIES of buffer `i` as its word 2 holds it. -/
def State.txTries (s : State) (n i : Nat) : Nat := bitsOf (s.memWord (s.txBuf n i + 8)).toNat 8 8

/-- CLK of buffer `i` as its word 2 holds it. -/
def State.txClk (s : State) (n i : Nat) : Nat := bitsOf (s.memWord (s.txBuf n i + 8)).toNat 16 2

/-- The request of buffer `i` ends: TXGO and TXSTOP clear, TXDONE or TXFAIL is set with its event (R391). -/
def State.txEnd (s : State) (n i : Nat) (good : Bool) : State :=
  let m := word (2 ^ i)
  let s := (s.setReg (CAN_TXGO n) (s.reg (CAN_TXGO n) &&& ~~~m)).setReg (CAN_TXSTOP n) (s.reg (CAN_TXSTOP n) &&& ~~~m)
  let a := if good then CAN_TXDONE n else CAN_TXFAIL n
  (s.setReg a (s.reg a ||| m)).canEvs n (if good then CAN_EVS_TXD else CAN_EVS_TXF)

/-- The request of buffer `i` ends without success. -/
def State.txFail (s : State) (n i result : Nat) : State :=
  (s.txResult n i result false (s.txTries n i) (s.txClk n i)).txEnd n i false

/-- Whether words 0 and 1 of a buffer ask for a frame that may not be sent (R389). -/
def State.txBad (s : State) (n w0 w1 : Nat) : Bool :=
  (w1.testBit 4 && !s.canCtl n CAN_CTL_FD) || (w1.testBit 4 && w0.testBit 30) || w1 / 2 ^ 6 != 0

/-- A request of buffer `i` (R388, R389): nothing while it is pending; a bad one ends with CFG at once. -/
def State.txRequest (s : State) (n i : Nat) : State :=
  if (s.reg (CAN_TXGO n)).getLsbD i then s
  else
    let s := s.setReg (CAN_TXGO n) (s.reg (CAN_TXGO n) ||| word (2 ^ i))
    let s := s.txResult n i 0 false 0 (s.txClk n i)
    match s.canRead n (s.txBuf n i) with
    | (none, s) => s.txFail n i 6
    | (some w0, s) =>
      match s.canRead n (s.txBuf n i + 4) with
      | (none, s) => s.txFail n i 6
      | (some w1, s) => if s.txBad n w0 w1 then s.txFail n i 5 else s

/-- A write of TXGO. -/
def canTxRequest (n : Nat) (v : Word) (s : State) : State :=
  ((List.range 32).foldl (fun (s : State) i => if v.getLsbD i then s.txRequest n i else s) s).answer .ok

/-- CAN_TX_REQUEST (R388). -/
def execCanTxRequest (i : Init) (n : Fin 4) (v : Word) (s : State) : Host.Outcome State Fault Refusal :=
  .next (s.gate i (CAN_TXGO n) (canTxRequest n v))

/-- A cancel of buffer `i` (R391). -/
def State.txCancel (s : State) (n i : Nat) : State :=
  if !(s.reg (CAN_TXGO n)).getLsbD i then s
  else if (s.can n).attempt.any fun a => a.buf == i then s.setReg (CAN_TXSTOP n) (s.reg (CAN_TXSTOP n) ||| word (2 ^ i))
  else s.txFail n i 2

/-- A write of TXSTOP. -/
def canTxCancel (n : Nat) (v : Word) (s : State) : State :=
  ((List.range 32).foldl (fun (s : State) i => if v.getLsbD i then s.txCancel n i else s) s).answer .ok

/-- CAN_TX_CANCEL (R391). -/
def execCanTxCancel (i : Init) (n : Fin 4) (v : Word) (s : State) : Host.Outcome State Fault Refusal :=
  .next (s.gate i (CAN_TXSTOP n) (canTxCancel n v))

/-- The rank of a frame in arbitration, lower first (R388): base identifier, format, extended bits, data before remote. -/
def arbKey (w0 i : Nat) : Nat :=
  let ext := w0.testBit 29
  let base := if ext then bitsOf w0 18 11 else bitsOf w0 0 11
  let low := if ext then bitsOf w0 0 18 else 0
  (((base * 2 + bit ext) * 2 ^ 18 + low) * 2 + bit (w0.testBit 30)) * 32 + i

/-- The pending buffers that are not being cancelled, each with word 0; one whose word cannot be read ends with MEMERR. -/
def State.txPending (s : State) (n : Nat) : List Nat → List (Nat × Nat) × State
  | [] => ([], s)
  | i :: t =>
    if (s.reg (CAN_TXGO n)).getLsbD i && !(s.reg (CAN_TXSTOP n)).getLsbD i then
      match s.canRead n (s.txBuf n i) with
      | (none, s) => State.txPending (s.txFail n i 6) n t
      | (some w, s) =>
        let (l, s) := State.txPending s n t
        ((arbKey w i, i) :: l, s)
    else State.txPending s n t

/-- The lowest of ranked buffers. -/
def lowest (l : List (Nat × Nat)) : Option Nat :=
  (l.foldl (fun (m : Option (Nat × Nat)) x => match m with
    | none => some x
    | some y => if x.1 < y.1 then some x else some y) none).map (·.2)

/-- The controller selects the buffer that would win arbitration, reads it whole, and starts its frame (R375, R388). -/
def canTxSelect (n : Nat) (s : State) : State :=
  if !s.onBus n || s.canCtl n CAN_CTL_LISTEN || (s.can n).attempt.isSome || s.canCtl n CAN_CTL_HALT then s
  else
    let (l, s) := s.txPending n (List.range 32)
    match lowest l with
    | none => s
    | some i =>
      let (d, f, s) := s.moverRead .canMover (s.txBuf n i) 8
      let w0 := ofBytes (d.take 4)
      let w1 := ofBytes (d.drop 4)
      let len := if w0.testBit 30 then 0 else dlcLen (w1.testBit 4) (w1 % 16)
      let (d, f', s) := s.moverRead .canMover (s.txBuf n i + 16) len
      if f.isSome || f'.isSome then (s.canEvs n CAN_EVS_MEMERR).txFail n i 6
      else if s.txBad n w0 w1 then s.txFail n i 5
      else
        let ext := w0.testBit 29
        let fr : CanFrame := ⟨if ext then bitsOf w0 0 29 else bitsOf w0 0 11, ext, w0.testBit 30, w1.testBit 4,
          w1.testBit 4 && w1.testBit 5 && s.canCtl n CAN_CTL_SWITCH,
          w1.testBit 4 && (w0.testBit 31 || s.canErr n == 1), Fin.ofNat 16 w1, d⟩
        let (ts, clk, s) := s.canStamp n 0
        let s := s.txResult n i 0 false (min 255 (s.txTries n i + 1)) (s.txClk n i)
        let s := s.updCan n fun x => { x with attempt := some ⟨i, fr, ts, clk⟩ }
        (s.setFlag (CAN_STAT n) CAN_STAT_BUSY true).setFlag (CAN_STAT n) CAN_STAT_TXING true

/-- CAN_TX_SELECT (R388). -/
def execCanTxSelect (n : Fin 4) (s : State) : Host.Outcome State Fault Refusal := .next (canTxSelect n s)

/-- The attempt in progress is over. -/
def State.attemptOver (s : State) (n : Nat) : State :=
  let s := s.updCan n fun x => { x with attempt := none }
  (s.setFlag (CAN_STAT n) CAN_STAT_BUSY false).setFlag (CAN_STAT n) CAN_STAT_TXING false

/-- The attempt in progress succeeds (R390, R391, R394): `meas` is the loop delay measured in a frame with BRS 1. -/
def canTxSuccess (n meas : Nat) (s : State) : State :=
  match (s.can n).attempt with
  | none => s
  | some t =>
    let s := s.attemptOver n
    let late := (s.reg (CAN_TXSTOP n)).getLsbD t.buf
    let s := s.txResult n t.buf 1 late (s.txTries n t.buf) t.clk
    let s := s.canWriteRam (s.txBuf n t.buf + 12) (toBytes t.stamp.toNat 4)
    let s := (s.txEnd n t.buf true).count (CAN_TXFRM n) 1
    let a := CAN_ERR n
    let s := (s.setFld a CAN_ERR_TEC (s.fld a CAN_ERR_TEC - 1)).canSettle n
    let s := if t.frame.brs && s.flag (CAN_SSP n) CAN_SSP_EN then s.setFld (CAN_SSP n) CAN_SSP_MEAS (min 127 meas) else s
    if s.canCtl n CAN_CTL_LOOP then s.canAccept n t.frame t.stamp t.clk else s

/-- CAN_TX_SUCCESS (R390). -/
def execCanTxSuccess (n : Fin 4) (meas : Nat) (s : State) : Host.Outcome State Fault Refusal := .next (canTxSuccess n meas s)

/-- The attempt in progress loses arbitration or meets an error (R388, R390, R391). -/
def canAttemptFailed (n : Nat) (lost : Bool) (s : State) : State :=
  match (s.can n).attempt with
  | none => s
  | some t =>
    let s := s.attemptOver n
    if (s.reg (CAN_TXSTOP n)).getLsbD t.buf then s.txFail n t.buf 2
    else if s.canCtl n CAN_CTL_ONCE then s.txFail n t.buf (if lost then 3 else 4)
    else s

/-- CAN_TX_ATTEMPT_FAILED (R390). -/
def execCanTxAttemptFailed (n : Fin 4) (lost : Bool) (s : State) : Host.Outcome State Fault Refusal :=
  .next (canAttemptFailed n lost s)

/-! ### Bus errors, bus-off (R395-R398) -/

/-- The controller halts: quiescent, and not on the bus unless bus-off (R400). -/
def State.canHaltNow (s : State) (n : Nat) : State :=
  let s := (s.setFlag (CAN_CTL n) CAN_CTL_HALT true).setFlag (CAN_STAT n) CAN_STAT_HALTED true
  let s := s.setFlag (CAN_STAT n) CAN_STAT_BOREC false
  let s := s.updCan n fun x => { x with integrating := false }
  if s.canErr n = 2 then s else s.setFld (CAN_ERR n) CAN_ERR_STATE 3

/-- Entry into bus-off (R395, R397): EVS.EP too where the node was error passive. -/
def State.busOff (s : State) (n : Nat) : State :=
  let s := canAttemptFailed n false s
  let s := if s.canErr n = 1 then s.canEvs n CAN_EVS_EP else s
  let s := (s.setFld (CAN_ERR n) CAN_ERR_STATE 2).countSat (CAN_BOCNT n) 1
  let s := s.canEvs n CAN_EVS_BO
  if s.canCtl n CAN_CTL_AUTOREC then s.setFlag (CAN_STAT n) CAN_STAT_BOREC true else s.canHaltNow n

/-- TEC or REC rises (R395, R396). REC saturates at 255; TEC above 255 is bus-off. -/
def State.raiseErr (s : State) (n : Nat) (tx : Bool) (k : Nat) : State :=
  let a := CAN_ERR n
  if tx then
    let t := s.fld a CAN_ERR_TEC + k
    let s := s.setFld a CAN_ERR_TEC (min 255 t)
    if 255 < t then s.busOff n else s.canSettle n
  else (s.setFld a CAN_ERR_REC (min 255 (s.fld a CAN_ERR_REC + k))).canSettle n

/-- A detected error (R395): `tx` while the node transmits, its code and phase, and what the bus shows. An error passive
transmitter that receives no acknowledgement does not raise TEC (R396). -/
def canBusError (n : Nat) (tx : Bool) (code : Nat) (fast : Bool) (w : CanErrAt) (s : State) : State :=
  if !s.onBus n then s
  else
    let s := if w == .afterFlag || w == .dominantRun then s
      else (s.setFld (CAN_LASTERR n) (if fast then CAN_LASTERR_FAST else CAN_LASTERR_ARB) code).countSat (CAN_ERRCNT n) 1
    match w with
    | .stuffArb => s
    | .frame =>
      if tx then (if code = 6 && s.canErr n == 1 then s else s.raiseErr n true 8) else s.raiseErr n false 1
    | .ownFlag => s.raiseErr n tx 8
    | .afterFlag => if tx then s else s.raiseErr n false 8
    | .dominantRun => s.raiseErr n tx 8

/-- CAN_BUS_ERROR (R395). -/
def execCanBusError (n : Fin 4) (tx : Bool) (code : Fin 7) (fast : Bool) (at' : CanErrAt) (s : State) :
    Host.Outcome State Fault Refusal := .next (canBusError n tx code fast at' s)

/-- A recessive res bit (R398): a form error with PXFORM 1, else counted, and the controller waits for integration. -/
def canProtocolException (n : Nat) (s : State) : State :=
  if !s.onBus n then s
  else if s.canCtl n CAN_CTL_PXFORM then canBusError n false 4 false .frame s
  else ((s.countSat (CAN_PXCNT n) 1).canEvs n CAN_EVS_PXE).updCan n fun x => { x with integrating := true }

/-- CAN_PROTOCOL_EXCEPTION (R398). -/
def execCanProtocolException (n : Fin 4) (s : State) : Host.Outcome State Fault Refusal := .next (canProtocolException n s)

/-- Bus-off recovery is complete (R397). -/
def busoffRecovered (n : Nat) (s : State) : State :=
  if s.flag (CAN_STAT n) CAN_STAT_BOREC then
    ((s.setReg (CAN_ERR n) 0).setFlag (CAN_STAT n) CAN_STAT_BOREC false).canEvs n CAN_EVS_BO
  else s

/-- BUSOFF_RECOVERY_COMPLETE (R397). -/
def execBusoffRecoveryComplete (n : Fin 4) (s : State) : Host.Outcome State Fault Refusal := .next (busoffRecovered n s)

/-! ### Halting and validation (R400, R401) -/

/-- Whether timing lies in the ranges of R393: prescaler, segments, jump width, quanta and bit length in CK_CAN cycles. -/
def timingRange (pMax s1Min s1Max s2Min s2Max jMax qMin cMin p s1 s2 j : Nat) : Bool :=
  Nat.ble p pMax && Nat.ble s1Min s1 && Nat.ble s1 s1Max && Nat.ble s2Min s2 && Nat.ble s2 s2Max && Nat.ble j jMax &&
    Nat.ble j s2 && Nat.ble qMin (1 + s1 + s2) && Nat.ble cMin (p * (1 + s1 + s2))

/-- The first validation code that refuses the configuration (R401). -/
def State.canValidate (s : State) (n : Nat) : Option Nat :=
  let nom := CAN_TNOM n
  let fast := CAN_TFAST n
  let acc := CAN_ACC n
  let base := s.ramBase n
  if !timingRange 512 2 256 2 128 128 8 80 (s.fld nom CAN_TNOM_PRESC + 1) (s.fld nom CAN_TNOM_SEG1 + 1)
      (s.fld nom CAN_TNOM_SEG2 + 1) (s.fld nom CAN_TNOM_SJW + 1) then some 1
  else if s.canCtl n CAN_CTL_FD && !timingRange 32 1 32 1 16 16 5 10 (s.fld fast CAN_TFAST_PRESC + 1)
      (s.fld fast CAN_TFAST_SEG1 + 1) (s.fld fast CAN_TFAST_SEG2 + 1) (s.fld fast CAN_TFAST_SJW + 1) then some 2
  else if s.flag (CAN_SSP n) CAN_SSP_EN && Nat.blt 1 (s.fld fast CAN_TFAST_PRESC) then some 3
  else if Nat.blt 12800 ((s.qaLen n + s.qbLen n + s.cells n) * s.elemSize n) || Nat.blt 64 (s.qaLen n) ||
      Nat.blt 64 (s.qbLen n) || Nat.blt 64 (s.cells n) then some 4
  else if Nat.blt base 0x4C000000 || Nat.blt 0x4C03C000 base ||
      ((List.range 4).any fun m => m != n && !s.flag (CAN_STAT m) CAN_STAT_HALTED && s.ramBase m == base) then some 5
  else if Nat.blt 128 (s.fld acc CAN_ACC_NSHORT) || Nat.blt 64 (s.fld acc CAN_ACC_NLONG) then some 6
  else none

/-- HALT := 0 of a halted controller: it integrates, or starts bus-off recovery, or is refused (R397, R400). -/
def State.leaveHalt (s : State) (n : Nat) : State :=
  let a := CAN_STAT n
  match s.canValidate n with
  | some c => ((s.setFlag (CAN_CTL n) CAN_CTL_HALT true).setFlag a CAN_STAT_CFGERR true).setFld a CAN_STAT_CFGC c
  | none =>
    let s := (s.setFlag (CAN_CTL n) CAN_CTL_HALT false).setFlag a CAN_STAT_HALTED false
    let s := (s.setFlag a CAN_STAT_CFGERR false).setFld a CAN_STAT_CFGC 0
    if s.canErr n = 2 then s.setFlag a CAN_STAT_BOREC true else s.updCan n fun x => { x with integrating := true }

/-- The registers a controller partial reset clears: events, errors, mark, sequence number, queues, requests, cell flags,
counters (R402). -/
def canCleared (n a : Nat) : Bool :=
  a == CAN_EVS n || a == CAN_LASTERR n || a == CAN_MARK n || a == CAN_RXSEQ n || a == CAN_QAST n || a == CAN_QBST n ||
    a == CAN_CELLNEW0 n || a == CAN_CELLNEW1 n || (Nat.ble (CAN_TXGO n) a && Nat.ble a (CAN_TXFAIL n)) ||
    (Nat.ble (CAN_RXOK n) a && Nat.ble a (CAN_CELLOVR n))

/-- Both queues emptied, with their FULL flags for the layout as it stands. -/
def State.emptyQueues (s : State) (n : Nat) : State :=
  (s.setReg (CAN_QAST n) (queueWord 0 0 0 (s.qaLen n))).setReg (CAN_QBST n) (queueWord 0 0 0 (s.qbLen n))

/-- The controller partial reset (R402). -/
def canReset (n : Nat) (s : State) : State :=
  let s := ((s.attemptOver n).resetRegs (canCleared n)).emptyQueues n
  let s := (s.setReg (CAN_ERR n) 0x30000).canHaltNow n
  s.updCan n fun _ => CanCtl.init

/-- A write of CANn_CTL (R400, R402). -/
def canCtlWrite (n : Nat) (v : Word) (s : State) : State :=
  let a := CAN_CTL n
  if v.getLsbD 8 then (canReset n s).answer .ok
  else
    let halted := s.flag (CAN_STAT n) CAN_STAT_HALTED
    let bad := !halted && (s.reg a ^^^ v) &&& 0xFE != 0
    let s := if halted then s.setReg a ((s.reg a &&& ~~~(0xFE : Word)) ||| (v &&& 0xFE)) else s
    let s :=
      if v.getLsbD 0 then
        if halted then s
        else
          let s := s.setFlag a CAN_CTL_HALT true
          if s.flag (CAN_STAT n) CAN_STAT_BUSY then s else s.canHaltNow n
      else if halted then s.leaveHalt n
      else s.setFlag a CAN_CTL_HALT false
    s.answer (if bad then .busError else .ok)

/-- CAN_HALT (R400): a write of CANn_CTL with HALT 1. -/
def execCanHalt (i : Init) (n : Fin 4) (v : Word) (s : State) : Host.Outcome State Fault Refusal :=
  .next (s.gate i (CAN_CTL n) (canCtlWrite n ((v &&& 0xFE) ||| 1)))

/-- The frame in progress has ended: a controller asked to halt is halted (R400). -/
def canHalted (n : Nat) (s : State) : State :=
  if s.canCtl n CAN_CTL_HALT && (s.can n).attempt.isNone then s.canHaltNow n else s

/-- CAN_HALTED (R400). -/
def execCanHalted (n : Fin 4) (s : State) : Host.Outcome State Fault Refusal := .next (canHalted n s)

/-- CAN_LEAVE_HALT (R400): a write of CANn_CTL with HALT 0. -/
def execCanLeaveHalt (i : Init) (n : Fin 4) (v : Word) (s : State) : Host.Outcome State Fault Refusal :=
  .next (s.gate i (CAN_CTL n) (canCtlWrite n (v &&& 0xFE)))

/-- 11 recessive bits (R398, R400): the controller is on the bus, error active or passive by its counters. -/
def canIntegrated (n : Nat) (s : State) : State :=
  if (s.can n).integrating then
    let s := s.updCan n fun x => { x with integrating := false }
    let a := CAN_ERR n
    if s.canErr n = 3 then
      s.setFld a CAN_ERR_STATE (bit (Nat.blt 127 (s.fld a CAN_ERR_TEC) || Nat.blt 127 (s.fld a CAN_ERR_REC)))
    else s
  else s

/-- CAN_BUS_INTEGRATED (R400). -/
def execCanBusIntegrated (n : Fin 4) (s : State) : Host.Outcome State Fault Refusal := .next (canIntegrated n s)

/-- A write of CANn_RXL (R400). -/
def rxLayoutWrite (n : Nat) (v : Word) (s : State) : State :=
  let quiet := s.flag (CAN_STAT n) CAN_STAT_HALTED
  let s := s.plainWrite quiet (CAN_RXL n) v
  if quiet then ((s.setReg (CAN_CELLNEW0 n) 0).setReg (CAN_CELLNEW1 n) 0).emptyQueues n else s

/-- RX_LAYOUT_WRITE (R400). -/
def execRxLayoutWrite (i : Init) (n : Fin 4) (v : Word) (s : State) : Host.Outcome State Fault Refusal :=
  .next (s.gate i (CAN_RXL n) (rxLayoutWrite n v))

/-- CAN_BLKRST (R402): a write of CANn_CTL with BLKRST 1. -/
def execCanBlkrst (i : Init) (n : Fin 4) (s : State) : Host.Outcome State Fault Refusal :=
  .next (s.gate i (CAN_CTL n) (canCtlWrite n 0x100))

/-! ### Registers (R399, R403) -/

/-- A write of CANn_EVM (R399): an enable written 1 that meets a set event bit raises an event. -/
def evmWrite (n : Nat) (v : Word) (s : State) : State :=
  let s := s.plainWrite true (CAN_EVM n) v
  if s.reg (CAN_EVM n) &&& s.reg (CAN_EVS n) != 0 then s.canEvent n else s

/-- A write in the CAN block. -/
def canWrite (a : Nat) (v : Word) (s : State) : State :=
  let n := (a - 0x600E0000) / 0x1000
  if a = CAN_CTL n then canCtlWrite n v s
  else if a = CAN_RXL n then rxLayoutWrite n v s
  else if a = CAN_EVM n then evmWrite n v s
  else if a = CAN_QARET n then queueReturn false n v s
  else if a = CAN_QBRET n then queueReturn true n v s
  else if a = CAN_TXGO n then canTxRequest n v s
  else if a = CAN_TXSTOP n then canTxCancel n v s
  else if a = CAN_EVT n then s.plainWrite true a (s.keepFld a CAN_EVT_DBAGENT (fun k => Nat.ble 36 k) v)
  else if a = CAN_RAMBASE n then
    s.plainWrite (s.flag (CAN_STAT n) CAN_STAT_HALTED) a
      (s.keepFld a CAN_RAMBASE_ADDR (fun k => Nat.blt k 0x13000 || Nat.blt 0x1300F k) v)
  else if Nat.ble (CAN_ROUTE n 0) a && Nat.ble a (CAN_ROUTE n 7) && Nat.blt 4 (v.toNat % 8) then s.answer .ok
  else s.plainWrite (s.flag (CAN_STAT n) CAN_STAT_HALTED) a v

/-- A read in the CAN block: TXGO and TXSTOP read the pending requests and cancels. -/
def canRead (events : Word) (a : Nat) (s : State) : State :=
  let n := (a - 0x600E0000) / 0x1000
  if a = CAN_TXGO n || a = CAN_TXSTOP n then s.answerWord (s.reg a) else s.plainRead events a

end Sys2Proof.Machine
end

