-- ==== Sys2Proof/Machine/Carillon.lean ====
section
/-! DEFINITION. The Carillon pin sequencers: pin windows, instructions, stalls, queues, movers, control, registers
(R404-R430, R605).
Choices of the model: log entries 28, 79, 80. -/

set_option autoImplicit false

namespace Sys2Proof.Machine

open Sys2Proof

/-! ### Sequencer state (R407) -/

/-- Sequencer `q` of Carillon `c`. -/
def State.seq (s : State) (c q : Nat) : Seq := s.seqs.getD (4 * c + q) Seq.init

/-- The state with a sequencer's record changed. -/
def State.updSeq (s : State) (c q : Nat) (f : Seq → Seq) : State :=
  { s with seqs := s.seqs.setIfInBounds (4 * c + q) (f (s.seq c q)) }

/-- The state of a sequencer: 0 STOPPED, 1 RUNNING, 2 STALLED, 3 HALTED. -/
def State.seqState (s : State) (c q : Nat) : Nat := s.fld (CAR_SEQ_STAT c q) CAR_SEQ_STAT_STATE

/-- The program counter. -/
def State.seqPc (s : State) (c q : Nat) : Nat := s.fld (CAR_SEQ_STAT c q) CAR_SEQ_STAT_PC

/-- Whether a sequencer is quiescent (R427). -/
def State.seqQuiet (s : State) (c q : Nat) : Bool := s.seqState c q == 0 || s.seqState c q == 3

/-- A field of a sequencer's CFG. -/
def State.seqCfg (s : State) (c q : Nat) (f : Fld) : Nat := s.fld (CAR_SEQ_CFG c q) f

/-- The address of working register W`w`. -/
def wReg (c q w : Nat) : Nat := CAR_SEQ_W0 c q + 4 * w

/-- TXP and RXP. -/
abbrev fTxp : Fld := ⟨0, 6⟩
abbrev fRxp : Fld := ⟨8, 6⟩

/-- The doorbell of a sequencer, and its engine event EV6 (R420, R421, R425, R426). -/
def State.ringSeq (s : State) (c q : Nat) : State := s.ringEvt (CAR_SEQ_EVT c q)
def State.seqEv6 (s : State) (c q : Nat) : State :=
  let a := CAR_SEQ_EVT c q
  if s.flag a CAR_SEQ_EVT_EVEN then s.latchEv (s.fld a CAR_SEQ_EVT_EVENG) 6 else s

/-! ### Pins (R405, R406, R605) -/

/-- First pin and number of pins of a window. -/
def State.winBase (s : State) (c : Nat) : Nat := bitsOf (s.reg (CAR_COM_MAP c)).toNat 0 6
def State.winCnt (s : State) (c : Nat) : Nat := bitsOf (s.reg (CAR_COM_MAP c)).toNat 6 6

/-- The level of pin GP`p` at the ball: what its Carillon drives, else what the world drives; 0 where the bank has no supply. -/
def State.pinLevel (s : State) (gp : BitVec 64) (p : Nat) : Bool :=
  if !(s.reg CAR_COM_BANK).getLsbD (2 + p / 32) then false
  else
    match (List.range 8).find? fun c =>
      Nat.ble (s.winBase c) p && Nat.blt p (s.winBase c + s.winCnt c) && (s.reg (CAR_PINDIR c)).getLsbD (p - s.winBase c) with
    | some c => (s.reg (CAR_PINOUT c)).getLsbD (p - s.winBase c)
    | none => gp.getLsbD p

/-- Window pin `k` of Carillon `c`; a pin at or beyond CNT reads 0. -/
def State.windowPin (s : State) (gp : BitVec 64) (c k : Nat) : Bool := Nat.blt k (s.winCnt c) && s.pinLevel gp (s.winBase c + k)

/-- The word whose bit `i` is `f i`, for `i` below `n`. -/
def bitsWord (n : Nat) (f : Nat → Bool) : Nat := (List.range n).foldl (fun v i => v + bit (f i) * 2 ^ i) 0

/-- The pins of a mask within the window, lowest first. -/
def State.maskPins (s : State) (c : Nat) (m : Word) : List Nat := (List.range (s.winCnt c)).filter fun k => m.getLsbD k

/-- Value bit `i` placed at the `i`-th of `pins`, for `i` below `n`; the other bits kept. -/
def placeBits (old : Word) (pins : List Nat) (n v : Nat) : Word :=
  (pins.take n).zipIdx.foldl (fun (w : Word) (p : Nat × Nat) =>
    (w &&& ~~~word (2 ^ p.1)) ||| word (bit (v.testBit p.2) * 2 ^ p.1)) old

/-! ### Transmit and receive side (R423-R426) -/

/-- Words the transmit and the receive side hold (R423, R424). -/
def State.txCap (s : State) (c q : Nat) : Nat :=
  if s.seqCfg c q CAR_SEQ_CFG_DIRECT = 1 then 1 else [4, 8, 0, 0].getD (s.seqCfg c q CAR_SEQ_CFG_QMODE) 0
def State.rxCap (s : State) (c q : Nat) : Nat :=
  if s.seqCfg c q CAR_SEQ_CFG_DIRECT = 1 then 1 else [4, 0, 8, 0].getD (s.seqCfg c q CAR_SEQ_CFG_QMODE) 0

/-- The transmit side holds `l` now; EV6 where the level falls to TXMARK (R425). -/
def State.setTx (s : State) (c q : Nat) (l : List Word) : State :=
  let old := (s.seq c q).tx.length
  let s := s.updSeq c q fun x => { x with tx := l }
  let m := bitsOf (s.reg (CAR_SEQ_QMARK c q)).toNat 0 4
  if (s.reg (CAR_SEQ_QMARK c q)).getLsbD 4 && Nat.blt m old && Nat.ble l.length m then s.seqEv6 c q else s

/-- The receive side holds `l` now; EV6 where the level rises to RXMARK (R425). -/
def State.setRx (s : State) (c q : Nat) (l : List Word) : State :=
  let old := (s.seq c q).rx.length
  let s := s.updSeq c q fun x => { x with rx := l }
  let m := bitsOf (s.reg (CAR_SEQ_QMARK c q)).toNat 8 4
  if (s.reg (CAR_SEQ_QMARK c q)).getLsbD 12 && Nat.blt old m && Nat.ble m l.length then s.seqEv6 c q else s

/-- One word of the transmit mover (R426). -/
def State.moveTx (s : State) (c q : Nat) : State :=
  let x := s.seq c q
  if s.flag (CAR_SEQ_MVCTL c q) CAR_SEQ_MVCTL_TXGO && !x.errTx && x.mvTx != 0 && Nat.blt x.tx.length (s.txCap c q) then
    let a := (s.reg (CAR_SEQ_MVTXA c q)).toNat + 4 * ((s.reg (CAR_SEQ_MVTXN c q)).toNat % 65536 - x.mvTx)
    let (w, f, s) := if a % 4 = 0 then s.moverWord .carMover a else (0, some .busError, s)
    match f with
    | none => (s.updSeq c q fun x => { x with mvTx := x.mvTx - 1 }).setTx c q (x.tx ++ [w])
    | some _ => (s.updSeq c q fun x => { x with errTx := true }).report 15 (resId 13 c) a 45
  else s

/-- One word of the receive mover (R426). -/
def State.moveRx (s : State) (c q : Nat) : State :=
  let x := s.seq c q
  match s.flag (CAR_SEQ_MVCTL c q) CAR_SEQ_MVCTL_RXGO && !x.errRx && x.mvRx != 0, x.rx with
  | true, w :: t =>
    let a := (s.reg (CAR_SEQ_MVRXA c q)).toNat + 4 * ((s.reg (CAR_SEQ_MVRXN c q)).toNat % 65536 - x.mvRx)
    let (f, s) := if a % 4 = 0 then s.moverWrite .carMover a (toBytes w.toNat 4) else (some .busError, s)
    match f with
    | none => (s.updSeq c q fun x => { x with mvRx := x.mvRx - 1 }).setRx c q t
    | some _ => (s.updSeq c q fun x => { x with errRx := true }).report 15 (resId 13 c) a 45
  | _, _ => s

/-- The movers of a sequencer carry what space and data allow: at most the 8 words a side can hold. -/
def State.movers (s : State) (c q : Nat) : State :=
  (List.range 8).foldl (fun (s : State) _ => (s.moveTx c q).moveRx c q) s

/-! ### Instructions (R408, R412-R420) -/

/-- A decoded instruction word; TICKS is timing. -/
inductive CarOp where
  | out (tgt w n : Nat)
  | inp (src w n : Nat)
  | set (tgt w imm : Nat)
  | wait (pol : Bool) (src idx : Nat)
  | at (mode w : Nat)
  | jmp (cond addr : Nat)
  | pull
  | push
  | mov (dst op src d r : Nat)
  | sig (capt ring : Bool) (op flag : Nat)
  | invalid
deriving DecidableEq, Repr

/-- Decodes an instruction word (R408): reserved encodings and must-be-zero fields that are not 0 are invalid. -/
def decodeCar (w : Nat) : CarOp :=
  let f (lo n : Nat) : Nat := bitsOf w lo n
  let n := if f 0 5 = 0 then 32 else f 0 5
  match f 16 4 with
  | 0 => if f 5 3 != 0 || (f 10 2 != 2 && f 8 2 != 0) then .invalid else .out (f 10 2) (f 8 2) n
  | 1 => if f 5 3 != 0 || (f 10 2 != 1 && f 8 2 != 0) then .invalid else .inp (f 10 2) (f 8 2) n
  | 2 => if f 10 2 = 3 then .invalid else .set (f 10 2) (f 8 2) (f 0 8)
  | 3 =>
    let bad := f 5 3 != 0 || Nat.blt 3 (f 8 3) || (f 8 3 == 2 && f 0 5 != 0) || (f 8 3 == 3 && Nat.blt 3 (f 0 5))
    if bad then .invalid else .wait (f 11 1 == 1) (f 8 3) (f 0 5)
  | 4 =>
    let bad := f 0 7 != 0 || Nat.blt 4 (f 9 3) || (f 9 3 == 3 && f 7 1 != 0) || (Nat.blt (f 9 3) 2 && f 7 2 != 0)
    if bad then .invalid else .at (f 9 3) (f 7 2)
  | 5 => if f 6 3 != 0 then .invalid else .jmp (f 9 3) (f 0 6)
  | 6 => if f 0 12 != 0 then .invalid else .pull
  | 7 => if f 0 12 != 0 then .invalid else .push
  | 8 => if Nat.blt 4 (f 9 3) || f 4 3 == 7 then .invalid else .mov (f 9 3) (f 7 2) (f 4 3) (f 2 2) (f 0 2)
  | 9 => if f 2 6 != 0 then .invalid else .sig (f 11 1 == 1) (f 10 1 == 1) (f 8 2) (f 0 2)
  | _ => .invalid

/-- What an instruction does: it is done, it jumps, it stalls for a cause, or it halts the sequencer with a code. -/
inductive CarRes where
  | done | jump (addr : Nat) | stall (cause : Nat) | halt (code : Nat)
deriving DecidableEq, Repr

/-- The n-bit value of OUT (R412). -/
def outValue (txw txp n : Nat) (msb : Bool) : Nat :=
  if !msb then bitsOf txw txp n
  else if txp + n ≤ 32 then bitsOf txw (32 - txp - n) n
  else txw % 2 ^ (32 - txp) * 2 ^ (txp + n - 32)

/-- RXW with an n-bit value placed at RXP (R413). -/
def inPlace (rxw : Word) (rxp n v : Nat) (msb : Bool) : Word :=
  let pos : List (Option Nat) := (List.range n).map fun i =>
    if msb then (if rxp + n ≤ 32 + i then some (32 + i - rxp - n) else none) else (if rxp + i < 32 then some (rxp + i) else none)
  pos.zipIdx.foldl (fun (w : Word) (p : Option Nat × Nat) => match p.1 with
    | some k => (w &&& ~~~word (2 ^ k)) ||| word (bit (v.testBit p.2) * 2 ^ k)
    | none => w) rxw

/-- Whether the condition of a WAIT holds (R415): `prev` and `gp` are the pin levels a cycle before and now. -/
def State.waitHolds (s : State) (c q : Nat) (prev gp : BitVec 64) (pol : Bool) (src idx : Nat) : Bool :=
  match src with
  | 0 => s.windowPin gp c idx == pol
  | 1 => s.windowPin prev c idx != s.windowPin gp c idx && s.windowPin gp c idx == pol
  | 2 => s.carFlag.getLsbD (4 * c + q) == pol
  | _ => (s.reg (CAR_HFLAG c)).getLsbD idx == pol

/-- A completed WAIT with pol 1 consumes its flag (R415). -/
def State.waitTakes (s : State) (c q : Nat) (pol : Bool) (src idx : Nat) : State :=
  match pol, src with
  | true, 2 => { s with carFlag := s.carFlag &&& ~~~BitVec.ofNat 32 (2 ^ (4 * c + q)) }
  | true, 3 => s.setReg (CAR_HFLAG c) (s.reg (CAR_HFLAG c) &&& ~~~word (2 ^ idx))
  | _, _ => s

/-- The full target of a low word `v` against the PTC (R416), as an integer. -/
def State.extendPtc (s : State) (v : Nat) : Int :=
  let d : Nat := (v + 2 ^ 32 - s.ptc % 2 ^ 32) % 2 ^ 32
  if d < 2 ^ 31 then (s.ptc : Int) + d else (s.ptc : Int) + d - 2 ^ 32

/-- AT with target `t` (R416): ATT := T; done at once, late where the PTC has passed T - ATLEAD, else stalled. -/
def State.atTarget (s : State) (c q : Nat) (t : Int) : CarRes × State :=
  let s := s.updSeq c q fun x => { x with att := (t.emod (2 ^ 64)).toNat }
  let goal := t - s.seqCfg c q CAR_SEQ_CFG_ATLEAD
  let now : Int := s.ptc
  if goal < now then (.done, (s.setFlag (CAR_SEQ_STAT c q) CAR_SEQ_STAT_LATE true).countSat (CAR_SEQ_ATLATE c q) 1)
  else if goal = now then (.done, s)
  else (.stall 4, s)

/-- The value a MOV reads (R419). -/
def State.movSource (s : State) (c q : Nat) (gp : BitVec 64) (src r : Nat) : Word :=
  let x := s.seq c q
  match src with
  | 0 => word (bitsWord 32 fun k => s.windowPin gp c k)
  | 1 => s.reg (wReg c q r)
  | 2 => s.reg (CAR_SEQ_TXW c q)
  | 3 => s.reg (CAR_SEQ_RXW c q)
  | 4 => word s.ptc
  | 5 => 0
  | _ => word (x.tx.length + x.rx.length * 2 ^ 4 + (s.reg (CAR_HFLAG c)).toNat % 16 * 2 ^ 8 +
      bit (s.carFlag.getLsbD (4 * c + q)) * 2 ^ 12 + s.fld (CAR_SEQ_PTR c q) fTxp * 2 ^ 16 + s.fld (CAR_SEQ_PTR c q) fRxp * 2 ^ 24)

/-- The operation of a MOV (R419). -/
def movOp (op : Nat) (w : Word) : Word :=
  match op with
  | 0 => w
  | 1 => ~~~w
  | 2 => word (ofBytes (toBytes w.toNat 4).reverse)
  | _ => w + 1

/-- Writes window output levels or directions through a list of pins. -/
def State.writePins (s : State) (c tgt : Nat) (pins : List Nat) (n v : Nat) : State :=
  let a := if tgt = 0 then CAR_PINOUT c else CAR_PINDIR c
  s.setReg a (placeBits (s.reg a) pins n v)

/-- The effect of an instruction (R412-R420). -/
def State.carEffect (s : State) (c q : Nat) (prev gp : BitVec 64) : CarOp → CarRes × State
  | .out tgt w n =>
    let p := CAR_SEQ_PTR c q
    let txp := s.fld p fTxp
    let v := outValue (s.reg (CAR_SEQ_TXW c q)).toNat txp n (s.seqCfg c q CAR_SEQ_CFG_TXMSB == 1)
    let s := s.setFld p fTxp (min 32 (txp + n))
    (.done, match tgt with
      | 2 => s.setReg (wReg c q w) (word v)
      | 3 => s
      | t => s.writePins c t (s.maskPins c (s.reg (CAR_SEQ_OMASK c q))) n v)
  | .inp src w n =>
    let p := CAR_SEQ_PTR c q
    let rxp := s.fld p fRxp
    let v := match src with
      | 0 => (let pins := s.maskPins c (s.reg (CAR_SEQ_IMASK c q)); bitsWord n fun i => (pins[i]?).any fun k => s.windowPin gp c k)
      | 1 => (s.reg (wReg c q w)).toNat % 2 ^ n
      | 2 => 0
      | _ => 2 ^ n - 1
    let s := s.setReg (CAR_SEQ_RXW c q) (inPlace (s.reg (CAR_SEQ_RXW c q)) rxp n v (s.seqCfg c q CAR_SEQ_CFG_RXMSB == 1))
    (.done, s.setFld p fRxp (min 32 (rxp + n)))
  | .set tgt w imm =>
    (.done, if tgt = 2 then s.setReg (wReg c q w) (word imm)
      else s.writePins c tgt (s.maskPins c (s.reg (CAR_SEQ_SMASK c q))) 8 imm)
  | .wait pol src idx =>
    if s.waitHolds c q prev gp pol src idx then (.done, s.waitTakes c q pol src idx) else (.stall 3, s)
  | .at mode w =>
    let x := s.seq c q
    match mode with
    | 0 =>
      if s.txCap c q = 0 then (.halt 3, s)
      else match x.tx with
        | v :: t => (s.setTx c q t).atTarget c q (s.extendPtc v.toNat)
        | [] => (.stall 1, s)
    | 1 =>
      if s.txCap c q = 0 then (.halt 3, s)
      else match x.tx with
        | lo :: hi :: t => (s.setTx c q t).atTarget c q (lo.toNat + hi.toNat * 2 ^ 32 : Nat)
        | _ => (.stall 1, s)
    | 2 => s.atTarget c q (s.extendPtc (s.reg (wReg c q w)).toNat)
    | 3 => s.atTarget c q ((s.reg (wReg c q w)).toNat + (s.reg (wReg c q (w + 1))).toNat * 2 ^ 32 : Nat)
    | _ => s.atTarget c q ((x.att + (s.reg (wReg c q w)).toNat) % 2 ^ 64 : Nat)
  | .jmp cond addr =>
    if 47 < addr then (.halt 2, s)
    else
      let dec (r : Nat) : CarRes × State :=
        let s := s.setReg (wReg c q r) (s.reg (wReg c q r) - 1)
        (if s.reg (wReg c q r) != 0 then .jump addr else .done, s)
      let w0 := (s.reg (wReg c q 0)).toNat
      let go (b : Bool) : CarRes × State := (if b then .jump addr else .done, s)
      match cond with
      | 0 => go true
      | 1 => go (w0 == 0)
      | 2 => go (w0 != 0)
      | 3 => dec 0
      | 4 => dec 1
      | 5 => go (Nat.blt w0 (s.reg (wReg c q 1)).toNat)
      | 6 => go (s.windowPin gp c (s.seqCfg c q CAR_SEQ_CFG_JPIN))
      | _ => go (s.fld (CAR_SEQ_PTR c q) fTxp == 32)
  | .pull =>
    if s.txCap c q = 0 then (.halt 3, s)
    else match (s.seq c q).tx with
      | v :: t => (.done, ((s.setTx c q t).setReg (CAR_SEQ_TXW c q) v).setFld (CAR_SEQ_PTR c q) fTxp 0)
      | [] => (.stall 1, s)
  | .push =>
    if s.rxCap c q = 0 then (.halt 3, s)
    else if (s.seq c q).rx.length < s.rxCap c q then
      let s := s.setRx c q ((s.seq c q).rx ++ [s.reg (CAR_SEQ_RXW c q)])
      (.done, (s.setReg (CAR_SEQ_RXW c q) 0).setFld (CAR_SEQ_PTR c q) fRxp 0)
    else (.stall 2, s)
  | .mov dst op src d r =>
    let v := movOp op (s.movSource c q gp src r)
    (.done, match dst with
      | 2 => s.setReg (wReg c q d) v
      | 3 => (s.setReg (CAR_SEQ_TXW c q) v).setFld (CAR_SEQ_PTR c q) fTxp 0
      | 4 => (s.setReg (CAR_SEQ_RXW c q) v).setFld (CAR_SEQ_PTR c q) fRxp 0
      | t => s.writePins c t (List.range (s.winCnt c)) 32 v.toNat)
  | .sig capt ring op flag =>
    let a := CAR_HFLAG c
    let m := word (2 ^ flag)
    let s := match op with
      | 1 => s.setReg a (s.reg a ||| m)
      | 2 => s.setReg a (s.reg a &&& ~~~m)
      | 3 => s.setReg a (s.reg a ^^^ m)
      | _ => s
    let s := if capt then s.capture (capWord (4 * c + q) 2 0 0 0 0) ((s.ptcOrg + s.ptc * 163840) % clockMod) 0 else s
    (.done, if ring then s.ringSeq c q else s)
  | .invalid => (.halt 1, s)

/-! ### Issue, stalls, halts (R409, R417, R421, R422, R427) -/

/-- The program counter after an instruction that does not jump (R417). -/
def nextPc (pc : Nat) : Nat := if pc = 47 then 0 else pc + 1

/-- The state a sequencer returns to after an instruction: RUNNING while its RUN bit is 1, else STOPPED. -/
def State.seqGo (s : State) (c q pc : Nat) : State :=
  let a := CAR_SEQ_STAT c q
  let s := s.updSeq c q fun x => { x with cur := none }
  ((s.setFld a CAR_SEQ_STAT_STATE (bit ((s.reg (CAR_CTL c)).getLsbD q))).setFld a CAR_SEQ_STAT_CAUSE 0).setFld a CAR_SEQ_STAT_PC pc

/-- Executes word `w` of a sequencer, from the program store or through EXEC, and moves its words. -/
def State.carIssue (s : State) (c q w : Nat) (ex : Bool) (prev gp : BitVec 64) : State :=
  let a := CAR_SEQ_STAT c q
  let s := { s with gp := gp }
  let pc := s.seqPc c q
  let (r, s) := s.carEffect c q prev gp (decodeCar w)
  let s := match r with
    | .done => s.seqGo c q (nextPc pc)
    | .jump p => s.seqGo c q p
    | .stall k =>
      let s := s.updSeq c q fun x => { x with cur := some (w, ex) }
      (s.setFld a CAR_SEQ_STAT_STATE 2).setFld a CAR_SEQ_STAT_CAUSE k
    | .halt k =>
      let s := s.updSeq c q fun x => { x with cur := none }
      let s := ((s.setFld a CAR_SEQ_STAT_STATE 3).setFld a CAR_SEQ_STAT_CAUSE 0).setFld a CAR_SEQ_STAT_ERRC k
      (s.setReg (CAR_CTL c) (s.reg (CAR_CTL c) &&& ~~~word (2 ^ q))).ringSeq c q
  s.movers c q

/-- The program word at the PC. -/
def State.carWord (s : State) (c q : Nat) : Nat := (s.reg (CAR_PROG c (s.seqPc c q))).toNat % 2 ^ 20

/-- A running sequencer executes the word at its PC if it is of the kind the command names. -/
def carStep (c q : Nat) (kind : CarOp → Bool) (prev gp : BitVec 64) (s : State) : State :=
  if s.seqState c q = 1 && kind (decodeCar (s.carWord c q)) then s.carIssue c q (s.carWord c q) false prev gp else s

/-- Whether the condition that a stalled word waits for holds now. -/
def State.stallOver (s : State) (c q w cause : Nat) (prev gp : BitVec 64) : Bool :=
  let x := s.seq c q
  match cause, decodeCar w with
  | 1, .at 1 _ => Nat.ble 2 x.tx.length
  | 1, _ => !x.tx.isEmpty
  | 2, _ => Nat.blt x.rx.length (s.rxCap c q)
  | 3, .wait pol src idx => s.waitHolds c q prev gp pol src idx
  | 4, _ => decide ((x.att : Int) - s.seqCfg c q CAR_SEQ_CFG_ATLEAD ≤ s.ptc)
  | _, _ => false

/-- A stall ends (R422): the word is fetched again; a changed word executes from its start, an unchanged one completes. -/
def carResume (c q cause : Nat) (prev gp : BitVec 64) (s : State) : State :=
  match (s.seq c q).cur with
  | none => s
  | some (w, ex) =>
    if s.seqState c q = 2 && s.fld (CAR_SEQ_STAT c q) CAR_SEQ_STAT_CAUSE == cause && s.stallOver c q w cause prev gp then
      let new := if ex then w else s.carWord c q
      if new = w && cause = 4 then s.seqGo c q (nextPc (s.seqPc c q)) else s.carIssue c q new ex prev gp
    else s

/-- OUT (R412). -/
def execCarOut (c : Fin 8) (q : Fin 4) (s : State) : Host.Outcome State Fault Refusal :=
  .next (carStep c q (fun o => match o with | .out .. => true | _ => false) s.gp s.gp s)

/-- IN (R413). -/
def execCarIn (c : Fin 8) (q : Fin 4) (gp : BitVec 64) (s : State) : Host.Outcome State Fault Refusal :=
  .next (carStep c q (fun o => match o with | .inp .. => true | _ => false) gp gp s)

/-- SET (R414). -/
def execCarSet (c : Fin 8) (q : Fin 4) (s : State) : Host.Outcome State Fault Refusal :=
  .next (carStep c q (fun o => match o with | .set .. => true | _ => false) s.gp s.gp s)

/-- CAR_WAIT (R415). -/
def execCarWait (c : Fin 8) (q : Fin 4) (prev gp : BitVec 64) (s : State) : Host.Outcome State Fault Refusal :=
  .next (carStep c q (fun o => match o with | .wait .. => true | _ => false) prev gp s)

/-- CAR_WAIT_COMPLETE (R415). -/
def execCarWaitComplete (c : Fin 8) (q : Fin 4) (prev gp : BitVec 64) (s : State) : Host.Outcome State Fault Refusal :=
  .next (carResume c q 3 prev gp s)

/-- AT (R416). -/
def execCarAt (c : Fin 8) (q : Fin 4) (s : State) : Host.Outcome State Fault Refusal :=
  .next (carStep c q (fun o => match o with | .at .. => true | _ => false) s.gp s.gp s)

/-- AT_TARGET_REACHED (R416). -/
def execAtTargetReached (c : Fin 8) (q : Fin 4) (gp : BitVec 64) (s : State) : Host.Outcome State Fault Refusal :=
  .next (carResume c q 4 gp gp s)

/-- CAR_JMP (R417). -/
def execCarJmp (c : Fin 8) (q : Fin 4) (gp : BitVec 64) (s : State) : Host.Outcome State Fault Refusal :=
  .next (carStep c q (fun o => match o with | .jmp .. => true | _ => false) gp gp s)

/-- PULL (R418). -/
def execCarPull (c : Fin 8) (q : Fin 4) (s : State) : Host.Outcome State Fault Refusal :=
  .next (carStep c q (fun o => match o with | .pull => true | _ => false) s.gp s.gp s)

/-- PULL_COMPLETE (R418). -/
def execPullComplete (c : Fin 8) (q : Fin 4) (gp : BitVec 64) (s : State) : Host.Outcome State Fault Refusal :=
  .next (carResume c q 1 gp gp s)

/-- PUSH (R418). -/
def execCarPush (c : Fin 8) (q : Fin 4) (s : State) : Host.Outcome State Fault Refusal :=
  .next (carStep c q (fun o => match o with | .push => true | _ => false) s.gp s.gp s)

/-- PUSH_COMPLETE (R418). -/
def execPushComplete (c : Fin 8) (q : Fin 4) (gp : BitVec 64) (s : State) : Host.Outcome State Fault Refusal :=
  .next (carResume c q 2 gp gp s)

/-- CAR_MOV (R419). -/
def execCarMov (c : Fin 8) (q : Fin 4) (gp : BitVec 64) (s : State) : Host.Outcome State Fault Refusal :=
  .next (carStep c q (fun o => match o with | .mov .. => true | _ => false) gp gp s)

/-- SIG (R420). -/
def execCarSig (c : Fin 8) (q : Fin 4) (s : State) : Host.Outcome State Fault Refusal :=
  .next (carStep c q (fun o => match o with | .sig .. => true | _ => false) s.gp s.gp s)

/-- INVALID_WORD (R421). -/
def execInvalidWord (c : Fin 8) (q : Fin 4) (s : State) : Host.Outcome State Fault Refusal :=
  .next (carStep c q (fun o => match o with | .invalid => true | _ => false) s.gp s.gp s)

/-! ### Control (R427, R428) -/

/-- A sequencer stops at once: a stall is abandoned. -/
def State.seqStop (s : State) (c q : Nat) : State :=
  let a := CAR_SEQ_STAT c q
  if s.seqQuiet c q then s
  else ((s.updSeq c q fun x => { x with cur := none }).setFld a CAR_SEQ_STAT_STATE 0).setFld a CAR_SEQ_STAT_CAUSE 0

/-- RUN := `on` of a sequencer. -/
def State.seqRun (s : State) (c q : Nat) (on : Bool) : State :=
  let a := CAR_SEQ_STAT c q
  let m := word (2 ^ q)
  if on then
    let s := s.setReg (CAR_CTL c) (s.reg (CAR_CTL c) ||| m)
    if s.seqQuiet c q then (s.setFld a CAR_SEQ_STAT_STATE 1).setFld a CAR_SEQ_STAT_ERRC 0 else s
  else (s.setReg (CAR_CTL c) (s.reg (CAR_CTL c) &&& ~~~m)).seqStop c q

/-- RESTART of a sequencer: PC := 0, a stall ends. -/
def State.seqRestart (s : State) (c q : Nat) : State :=
  let a := CAR_SEQ_STAT c q
  if s.seqState c q = 2 then s.seqGo c q 0 else s.setFld a CAR_SEQ_STAT_PC 0

/-- The registers a Carillon partial reset clears: RUN, pins, flags, STAT, working registers, words and pointers. -/
def carCleared (c a : Nat) : Bool :=
  a == CAR_CTL c || a == CAR_PINOUT c || a == CAR_PINDIR c || a == CAR_HFLAG c ||
    (List.range 4).any fun q => Nat.ble (CAR_SEQ_STAT c q) a && Nat.ble a (CAR_SEQ_PTR c q)

/-- The Carillon partial reset (R428). -/
def carReset (c : Nat) (s : State) : State :=
  let s := s.resetRegs (carCleared c)
  let s := { s with carFlag := s.carFlag &&& ~~~BitVec.ofNat 32 (15 * 2 ^ (4 * c)) }
  (List.range 4).foldl (fun (s : State) q =>
    let a := CAR_SEQ_MVCTL c q
    (s.updSeq c q fun _ => Seq.init).setReg a (s.reg a &&& ~~~(3 : Word))) s

/-- A write of CARc_CTL: BLKRST, else RESTART and then RUN of each sequencer. -/
def carCtlWrite (c : Nat) (v : Word) (s : State) : State :=
  (if v.getLsbD 8 then carReset c s
   else (List.range 4).foldl (fun (s : State) q =>
     let s := if v.getLsbD (4 + q) then s.seqRestart c q else s
     s.seqRun c q (v.getLsbD q)) s).answer .ok

/-- The RUN bits of Carillon `c` as they stand. -/
def State.carRuns (s : State) (c : Nat) : Word := s.reg (CAR_CTL c) &&& 15

/-- CAR_RUN (R427). -/
def execCarRun (i : Init) (c : Fin 8) (q : Fin 4) (s : State) : Host.Outcome State Fault Refusal :=
  .next (s.gate i (CAR_CTL c) fun (s : State) => carCtlWrite c (s.carRuns c ||| word (2 ^ q.val)) s)

/-- CAR_STOP (R427). -/
def execCarStop (i : Init) (c : Fin 8) (q : Fin 4) (s : State) : Host.Outcome State Fault Refusal :=
  .next (s.gate i (CAR_CTL c) fun (s : State) => carCtlWrite c (s.carRuns c &&& ~~~word (2 ^ q.val)) s)

/-- RESTART (R427). -/
def execCarRestart (i : Init) (c : Fin 8) (q : Fin 4) (s : State) : Host.Outcome State Fault Refusal :=
  .next (s.gate i (CAR_CTL c) fun (s : State) => carCtlWrite c (s.carRuns c ||| word (2 ^ (4 + q.val))) s)

/-- CAR_BLKRST (R428). -/
def execCarBlkrst (i : Init) (c : Fin 8) (s : State) : Host.Outcome State Fault Refusal :=
  .next (s.gate i (CAR_CTL c) (carCtlWrite c 0x100))

/-- A write of EXEC (R427): executed once while STOPPED, else refused. -/
def carExecWrite (c q : Nat) (v : Word) (gp : BitVec 64) (s : State) : State :=
  if s.seqState c q = 0 then (s.carIssue c q (v.toNat % 2 ^ 20) true gp gp).answer .ok else s.answer .busError

/-- EXEC (R427). -/
def execCarExec (i : Init) (c : Fin 8) (q : Fin 4) (v : Word) (gp : BitVec 64) (s : State) : Host.Outcome State Fault Refusal :=
  .next (s.gate i (CAR_SEQ_EXEC c q) (carExecWrite c q v gp))

/-! ### Queue registers, program store, map, movers (R405, R422-R426) -/

/-- A write of TXF. -/
def txfWrite (c q : Nat) (v : Word) (s : State) : State :=
  let x := s.seq c q
  if s.seqCfg c q CAR_SEQ_CFG_DIRECT = 1 then
    let s := if x.tx.isEmpty then s else s.setFlag (CAR_SEQ_STAT c q) CAR_SEQ_STAT_OVW true
    (s.setTx c q [v]).answer .ok
  else if x.tx.length < s.txCap c q then (s.setTx c q (x.tx ++ [v])).answer .ok
  else s.answer .busError

/-- TXF_WRITE (R423). -/
def execTxfWrite (i : Init) (c : Fin 8) (q : Fin 4) (v : Word) (s : State) : Host.Outcome State Fault Refusal :=
  .next (s.gate i (CAR_SEQ_TXF c q) (txfWrite c q v))

/-- A read of RXF: 0 with a bus error where no word is there. -/
def rxfRead (c q : Nat) (s : State) : State :=
  match (s.seq c q).rx with
  | [] => s.answer .busError
  | w :: t => (s.setRx c q t).answerWord w

/-- RXF_READ (R423). -/
def execRxfRead (i : Init) (c : Fin 8) (q : Fin 4) (s : State) : Host.Outcome State Fault Refusal :=
  .next (s.gate i (CAR_SEQ_RXF c q) (rxfRead c q))

/-- CAR_PROGRAM_WRITE (R422). -/
def execCarProgramWrite (i : Init) (c : Fin 8) (w : Fin 48) (v : Word) (s : State) : Host.Outcome State Fault Refusal :=
  .next (s.gate i (CAR_PROG c w) fun (s : State) => s.plainWrite true (CAR_PROG c w) v)

/-- Whether Carillon `c` is quiescent (R405). -/
def State.carQuiet (s : State) (c : Nat) : Bool :=
  (List.range 4).all fun q => s.seqQuiet c q && s.reg (CAR_SEQ_MVCTL c q) &&& 3 == 0

/-- A write of CAR_COM_MAPc (R405): a window beyond GP63 or over another one is refused with MAPERR. -/
def mapWrite (c : Nat) (v : Word) (s : State) : State :=
  let a := CAR_COM_MAP c
  let v := s.keepFld a ⟨6, 6⟩ (fun n => Nat.blt 32 n) v
  let b := bitsOf v.toNat 0 6
  let n := bitsOf v.toNat 6 6
  let ovl := (List.range 8).any fun d =>
    d != c && s.winCnt d != 0 && n != 0 && Nat.blt b (s.winBase d + s.winCnt d) && Nat.blt (s.winBase d) (b + n)
  if !s.carQuiet c then s.answer (if (v ^^^ s.reg a) &&& 0xFFF = 0 then .ok else .busError)
  else if Nat.blt 64 (b + n) || ovl then (s.setReg CAR_COM_STAT (word (1 + 2 * c))).answer .ok
  else
    let same := (v ^^^ s.reg a) &&& 0xFFF == 0
    let s := (s.setReg CAR_COM_STAT 0).setReg a (v &&& 0xFFF)
    (if same then s else (s.setReg (CAR_PINOUT c) 0).setReg (CAR_PINDIR c) 0).answer .ok

/-- CARILLON_MAP_WRITE (R405). -/
def execCarillonMapWrite (i : Init) (c : Fin 8) (v : Word) (s : State) : Host.Outcome State Fault Refusal :=
  .next (s.gate i (CAR_COM_MAP c) (mapWrite c v))

/-- A mover direction ends: GO reads 0, the doorbell rings. -/
def State.moverOff (s : State) (c q : Nat) (rx : Bool) : State :=
  let a := CAR_SEQ_MVCTL c q
  let g := if rx then CAR_SEQ_MVCTL_RXGO else CAR_SEQ_MVCTL_TXGO
  if s.flag a g then (s.setFlag a g false).ringSeq c q else s

/-- A mover direction starts: the whole count is left, its error flag clears. -/
def State.moverOn (s : State) (c q : Nat) (rx : Bool) : State :=
  let a := CAR_SEQ_MVCTL c q
  if s.flag a (if rx then CAR_SEQ_MVCTL_RXGO else CAR_SEQ_MVCTL_TXGO) then s
  else if rx then
    let n := (s.reg (CAR_SEQ_MVRXN c q)).toNat % 65536
    ((s.setFlag a CAR_SEQ_MVCTL_RXGO true).setFlag a CAR_SEQ_MVCTL_RXERR false).updSeq c q fun x => { x with mvRx := n, errRx := false }
  else
    let n := (s.reg (CAR_SEQ_MVTXN c q)).toNat % 65536
    ((s.setFlag a CAR_SEQ_MVCTL_TXGO true).setFlag a CAR_SEQ_MVCTL_TXERR false).updSeq c q fun x => { x with mvTx := n, errTx := false }

/-- A write of MVCTL: RING while the direction rests, then GO, then STOP. -/
def mvctlWrite (c q : Nat) (v : Word) (s : State) : State :=
  let a := CAR_SEQ_MVCTL c q
  let old := s.reg a
  let part (s : State) (rx : Bool) : State × Bool :=
    let r := if rx then CAR_SEQ_MVCTL_RXRING else CAR_SEQ_MVCTL_TXRING
    let g := if rx then CAR_SEQ_MVCTL_RXGO else CAR_SEQ_MVCTL_TXGO
    if s.flag a g then (s, (r.get (old ^^^ v)) == 0) else (s.setFld a r (r.get v), true)
  let (s, ok) := part s false
  let (s, ok') := part s true
  let s := if v.getLsbD 0 then s.moverOn c q false else s
  let s := if v.getLsbD 1 then s.moverOn c q true else s
  let s := s.movers c q
  let s := if v.getLsbD 2 then s.moverOff c q false else s
  let s := if v.getLsbD 3 then s.moverOff c q true else s
  s.answer (if ok && ok' then .ok else .busError)

/-- MOVER_GO (R426): a write of MVCTL with TXGO or RXGO. -/
def execMoverGo (i : Init) (c : Fin 8) (q : Fin 4) (v : Word) (s : State) : Host.Outcome State Fault Refusal :=
  .next (s.gate i (CAR_SEQ_MVCTL c q) (mvctlWrite c q (v &&& 0x33)))

/-- MOVER_STOP (R426): a write of MVCTL with TXSTOP or RXSTOP, RING as it stands. -/
def execMoverStop (i : Init) (c : Fin 8) (q : Fin 4) (v : Word) (s : State) : Host.Outcome State Fault Refusal :=
  .next (s.gate i (CAR_SEQ_MVCTL c q) fun (s : State) => mvctlWrite c q ((v &&& 0xC) ||| (s.reg (CAR_SEQ_MVCTL c q) &&& 0x30)) s)

/-- A direction that has carried its words restarts in RING mode or ends; one that met an error ends with its flag (R426). -/
def moverEnd (c q : Nat) (rx : Bool) (s : State) : State :=
  let a := CAR_SEQ_MVCTL c q
  let x := s.seq c q
  if !s.flag a (if rx then CAR_SEQ_MVCTL_RXGO else CAR_SEQ_MVCTL_TXGO) then s
  else if (if rx then x.errRx else x.errTx) then
    (s.setFlag a (if rx then CAR_SEQ_MVCTL_RXERR else CAR_SEQ_MVCTL_TXERR) true).moverOff c q rx
  else if (if rx then x.mvRx else x.mvTx) != 0 then s
  else if s.flag a (if rx then CAR_SEQ_MVCTL_RXRING else CAR_SEQ_MVCTL_TXRING) then
    ((s.moverOff c q rx).moverOn c q rx).movers c q
  else s.moverOff c q rx

/-- MOVER_END (R426). -/
def execMoverEnd (c : Fin 8) (q : Fin 4) (rx : Bool) (s : State) : Host.Outcome State Fault Refusal := .next (moverEnd c q rx s)

/-! ### GP bank supplies (R406, R605) -/

/-- A bank supply enters a range, or leaves it: level and presence in CAR_COM_BANK. A level between the ranges counts as absent
where the bank was not present; a present bank is lost below 1.5 V. -/
def gpBankSupply (b : Nat) (v : GpSupply) (s : State) : State :=
  let w := s.reg CAR_COM_BANK
  let off := w &&& ~~~word (2 ^ b + 2 ^ (2 + b))
  match v with
  | .v18 => s.setReg CAR_COM_BANK (off ||| word (2 ^ (2 + b)))
  | .v33 => s.setReg CAR_COM_BANK (off ||| word (2 ^ b + 2 ^ (2 + b)))
  | .between => s.setReg CAR_COM_BANK off
  | .absent => s.setReg CAR_COM_BANK off

/-- GP_BANK_SUPPLY_CHANGE (R605). -/
def execGpBankSupplyChange (b : Fin 2) (level : GpSupply) (s : State) : Host.Outcome State Fault Refusal :=
  .next (gpBankSupply b level s)

/-! ### Registers (R423, R427, R429, R430) -/

/-- A write of a sequencer's CFG: a reserved QMODE is kept; a change of DIRECT or QMODE empties both sides (R423). -/
def seqCfgWrite (c q : Nat) (v : Word) (s : State) : State :=
  let a := CAR_SEQ_CFG c q
  let old := s.reg a
  let s := s.plainWrite (s.seqQuiet c q) a (s.keepFld a CAR_SEQ_CFG_QMODE (fun n => n == 3) v)
  if (s.reg a ^^^ old) &&& 7 = 0 then s else s.updSeq c q fun x => { x with tx := [], rx := [] }

/-- A write in the CAR block. -/
def carWrite (a : Nat) (v : Word) (s : State) : State :=
  if Nat.ble 0x60068000 a then
    if Nat.ble (CAR_COM_MAP 0) a && Nat.ble a (CAR_COM_MAP 7) then mapWrite ((a - 0x60068000) / 4) v s else s.plainWrite true a v
  else
    let c := (a - 0x60060000) / 0x1000
    let o := a % 0x1000
    if o = 0 then carCtlWrite c v s
    else if o < 0x200 || Nat.ble 0x400 o then s.plainWrite true a v
    else
      let q := (o - 0x200) / 0x80
      if a = CAR_SEQ_CFG c q then seqCfgWrite c q v s
      else if a = CAR_SEQ_EXEC c q then carExecWrite c q v s.gp s
      else if a = CAR_SEQ_TXF c q then txfWrite c q v s
      else if a = CAR_SEQ_MVCTL c q then mvctlWrite c q v s
      else if a = CAR_SEQ_EVT c q then s.plainWrite true a (s.keepFld a CAR_SEQ_EVT_DBAGENT (fun n => Nat.ble 36 n) v)
      else if a = CAR_SEQ_MVTXA c q || a = CAR_SEQ_MVTXN c q then
        s.plainWrite (!s.flag (CAR_SEQ_MVCTL c q) CAR_SEQ_MVCTL_TXGO) a v
      else if a = CAR_SEQ_MVRXA c q || a = CAR_SEQ_MVRXN c q then
        s.plainWrite (!s.flag (CAR_SEQ_MVCTL c q) CAR_SEQ_MVCTL_RXGO) a v
      else s.plainWrite (s.seqQuiet c q) a v

/-- A read in the CAR block by an RPN. `events`: for the pin levels, what the world drives on those pins in the cycle of the
read; else R9. -/
def carRead (rpn : Nat) (events : Word) (a : Nat) (s : State) : State :=
  if a = CAR_COM_PIN0 || a = CAR_COM_PIN1 then
    let b := if a = CAR_COM_PIN0 then 0 else 1
    let g := BitVec.ofNat 64 (if b = 0 then s.gp.toNat / 2 ^ 32 * 2 ^ 32 + events.toNat else s.gp.toNat % 2 ^ 32 + events.toNat * 2 ^ 32)
    let s := { s with gp := g }
    s.answerWord (word (bitsWord 32 fun k => s.pinLevel g (32 * b + k)))
  else if Nat.ble 0x60068000 a then s.plainRead events a
  else
    let c := (a - 0x60060000) / 0x1000
    let o := a % 0x1000
    if a = CAR_PININ c then
      let g := BitVec.ofNat 64 ((List.range (s.winCnt c)).foldl (fun v k =>
        let p := s.winBase c + k
        v - bit (v.testBit p) * 2 ^ p + bit (events.getLsbD k) * 2 ^ p) s.gp.toNat)
      let s := { s with gp := g }
      s.answerWord (word (bitsWord 32 fun k => s.windowPin g c k))
    else if o < 0x200 || Nat.ble 0x400 o then s.plainRead events a
    else
      let q := (o - 0x200) / 0x80
      let x := s.seq c q
      if a = CAR_SEQ_STAT c q then
        s.answerWord (CAR_SEQ_STAT_RXL.put (CAR_SEQ_STAT_TXL.put (CAR_SEQ_STAT_CF.put (s.reg a)
          (bit (s.carFlag.getLsbD (4 * c + q)))) x.tx.length) x.rx.length)
      else if a = CAR_SEQ_RXF c q then rxfRead c q s
      else if a = CAR_SEQ_ATT0 c q then (s.setLatch (16 + 4 * c + q) rpn (word (x.att / 2 ^ 32), 0)).answerWord (word x.att)
      else if a = CAR_SEQ_ATT1 c q then s.answerWord (s.getLatch (16 + 4 * c + q) rpn).1
      else if a = CAR_SEQ_MVSTAT c q then s.answerWord (word (x.mvTx + x.mvRx * 2 ^ 16))
      else if a = CAR_SEQ_MVCTL c q then s.answerWord (s.reg a)
      else s.plainRead events a

end Sys2Proof.Machine
end

