-- ==== Sys2Proof/Machine/NetFrames.lean ====
section
/-! DEFINITION. Ethernet frames as bytes: FCS, tags, the Internet checksums of the ports (R301, R302), and the conditions of a
classifier rule (R307). -/

set_option autoImplicit false

namespace Sys2Proof.Machine

open Sys2Proof

/-- The IEEE 802.3 FCS polynomial, bit-reflected. -/
def polyE : Word := 0xEDB88320#32

/-- The FCS of the bytes of a frame. -/
def fcsOf (bs : List Byte) : Word := ~~~(bs.foldl (crcByte polyE) (~~~(0#32)))

/-- The frame on the wire: padded to 60 bytes, with its FCS, inverted where the frame ends early (R182, R278). -/
def withFcs (bs : List Byte) (inv : Bool) : List Byte :=
  let d := bs ++ List.replicate (60 - bs.length) 0
  let f := fcsOf d
  d ++ toBytes (if inv then ~~~f else f).toNat 4

/-- Whether the last four bytes of a received frame are the FCS of the others. -/
def fcsGood (bs : List Byte) : Bool :=
  toBytes (fcsOf (bs.take (bs.length - 4))).toNat 4 == bs.drop (bs.length - 4)

/-- The byte at an offset, 0 beyond the end. -/
def byteAt (bs : List Byte) (o : Nat) : Nat := (bs.getD o 0).toNat

/-- The 16-bit value in network byte order at an offset. -/
def be16 (bs : List Byte) (o : Nat) : Nat := byteAt bs o * 256 + byteAt bs (o + 1)

/-- The sum of 16-bit words in network byte order; an odd last byte counts as the high half. -/
def sum16 : List Byte → Nat
  | [] => 0
  | [a] => a.toNat * 256
  | a :: b :: t => a.toNat * 256 + b.toNat + sum16 t

/-- End-around carry of a sum down to 16 bits. -/
def fold16 (n : Nat) : Nat := if n = 0 then 0 else (n - 1) % 65535 + 1

/-- `n` bytes from an offset. -/
def slice (bs : List Byte) (o n : Nat) : List Byte := (bs.drop o).take n

/-- The state of the bytes with a 16-bit value in network byte order stored at an offset. -/
def putBe16 (bs : List Byte) (o v : Nat) : List Byte :=
  (bs.set o (BitVec.ofNat 8 (v / 256))).set (o + 1) (BitVec.ofNat 8 v)

/-- Whether a 16-bit value is a VLAN tag's TPID (R307). -/
def isTpid (t : Nat) : Bool := t == 0x8100 || t == 0x88A8

/-- Number of VLAN tags at the front of a frame, at most two. -/
def tagCount (bs : List Byte) : Nat := if isTpid (be16 bs 12) then (if isTpid (be16 bs 16) then 2 else 1) else 0

/-- The offset of the EtherType after the tags. -/
def typeOfs (bs : List Byte) : Nat := 12 + 4 * tagCount bs

/-! ### IP, UDP and TCP checksums -/

/-- The IP header of a segment: IPv6, header bytes, protocol, IP payload bytes, pseudo-header sum, and whether it is an IPv4
fragment. -/
structure IpInfo where
  v6 : Bool
  hdr : Nat
  proto : Nat
  pay : Nat
  pseudo : Nat
  fragment : Bool
deriving DecidableEq, Repr

/-- The IPv4 header at an offset, where the frame's `len` bytes hold it and its payload. -/
def ipv4At (bs : List Byte) (o len : Nat) : Option IpInfo :=
  let hdr := byteAt bs o % 16 * 4
  let tot := be16 bs (o + 2)
  if byteAt bs o / 16 != 4 || hdr < 20 || len < o + 20 || len < o + hdr || tot < hdr || len < o + tot then none
  else
    some ⟨false, hdr, byteAt bs (o + 9), tot - hdr, sum16 (slice bs (o + 12) 8) + byteAt bs (o + 9) + (tot - hdr),
      be16 bs (o + 6) % 0x4000 != 0⟩

/-- The IPv6 header at an offset, where the frame's `len` bytes hold it and its payload. -/
def ipv6At (bs : List Byte) (o len : Nat) : Option IpInfo :=
  let pay := be16 bs (o + 4)
  if byteAt bs o / 16 != 6 || len < o + 40 || len < o + 40 + pay then none
  else some ⟨true, 40, byteAt bs (o + 6), pay, sum16 (slice bs (o + 8) 32) + byteAt bs (o + 6) + pay, false⟩

/-- The receive result of an IPv4 header checksum at `o` (R302): 0 not checked, 1 good, 2 bad. -/
def ipcsOf (bs : List Byte) (o len : Nat) : Nat :=
  let hdr := byteAt bs o % 16 * 4
  if byteAt bs o / 16 != 4 || hdr < 20 || len < o + hdr then 0
  else if fold16 (sum16 (slice bs o hdr)) = 65535 then 1 else 2

/-- The receive result of the UDP or TCP checksum behind the IP header at `o` (R302). -/
def l4csOf (bs : List Byte) (o : Nat) (ip : IpInfo) : Nat :=
  let s := o + ip.hdr
  if ip.fragment then 0
  else if ip.proto = 17 && Nat.ble 8 ip.pay then
    if !ip.v6 && be16 bs (s + 6) == 0 then 1
    else if fold16 (ip.pseudo + sum16 (slice bs s ip.pay)) = 65535 then 1 else 2
  else if ip.proto = 6 && Nat.ble 20 ip.pay then
    if fold16 (ip.pseudo + sum16 (slice bs s ip.pay)) = 65535 then 1 else 2
  else 0

/-- Inserts the checksums that word 2 of a descriptor asks for (R301): the bytes, and whether one was skipped. -/
def insertCs (bs : List Byte) (w2 : Word) : List Byte × Bool :=
  let l3 := bitsOf w2.toNat 8 8
  let l4 := bitsOf w2.toNat 16 10
  let tcp := w2.getLsbD 2
  let v6 := w2.getLsbD 3
  let len := bs.length
  let (bs, skip1) :=
    if w2.getLsbD 0 then
      let hdr := byteAt bs l3 % 16 * 4
      if byteAt bs l3 / 16 != 4 || hdr < 20 || len < l3 + hdr then (bs, true)
      else
        let z := putBe16 bs (l3 + 10) 0
        (putBe16 z (l3 + 10) (65535 - fold16 (sum16 (slice z l3 hdr))), false)
    else (bs, false)
  if w2.getLsbD 1 then
    let c := l4 + (if tcp then 16 else 6)
    match if v6 then ipv6At bs l3 len else ipv4At bs l3 len with
    | none => (bs, true)
    | some ip =>
      let stop := l3 + ip.hdr + ip.pay
      if ip.fragment || Nat.blt stop (c + 2) || Nat.blt l4 (l3 + ip.hdr) then (bs, true)
      else
        let z := putBe16 bs c 0
        let n := stop - l4
        let addr := if v6 then sum16 (slice z (l3 + 8) 32) else sum16 (slice z (l3 + 12) 8)
        let v := 65535 - fold16 (addr + (if tcp then 6 else 17) + n + sum16 (slice z l4 n))
        (putBe16 z c (if !tcp && v == 0 then 65535 else v), skip1)
  else (bs, skip1)

/-! ### Classifier (R307) -/

/-- The PCP of a frame: of its outer tag, else `d`. -/
def pcpOf (bs : List Byte) (d : Nat) : Nat := if tagCount bs = 0 then d else byteAt bs 14 / 32

/-- Whether a rule (its four words) decides a frame of `len` bytes. -/
def ruleMatch (w : Nat → Word) (bs : List Byte) (len dpcp : Nat) : Bool :=
  let w0 := (w 0).toNat
  let w2 := (w 2).toNat
  let pfx := let p := bitsOf w2 16 6; if p = 0 || 48 < p then 48 else p
  let da := be16 bs 0 * 2 ^ 32 + be16 bs 2 * 2 ^ 16 + be16 bs 4
  let rda := w2 % 65536 * 2 ^ 32 + (w 1).toNat
  let ofs := bitsOf w2 24 8
  let val := bitsOf (w 3).toNat 0 16
  let mask := bitsOf (w 3).toNat 16 16
  (w 0).getLsbD 0 &&
  (!(w 0).getLsbD 1 || pcpOf bs dpcp == bitsOf w0 5 3) &&
  (!(w 0).getLsbD 2 || be16 bs (typeOfs bs) == bitsOf w0 16 16) &&
  (!(w 0).getLsbD 3 || da / 2 ^ (48 - pfx) == rda / 2 ^ (48 - pfx)) &&
  (!(w 0).getLsbD 4 || (Nat.ble (ofs + 2) len && Nat.land (be16 bs ofs) mask == Nat.land val mask))

end Sys2Proof.Machine
end

