-- ==== Sys2Proof/Machine/Ethernet.lean ====
section
/-! DEFINITION. Ethernet ports: state of a port and its queues, mode, reset, link, MDIO, gates, PAUSE, EEE, preemption
verification, service-port speed, and the steering alias (R269-R275, R290, R291, R299, R300, R303-R305).
Choices of the model: log entries 68. -/

set_option autoImplicit false

namespace Sys2Proof.Machine

open Sys2Proof

/-! ### Ports and queues -/

/-- Port `p`. -/
def State.port (s : State) (p : Nat) : Port := Tbl.get (fun _ => Port.init) s.ports p

/-- The state with port `p` changed. -/
def State.updPort (s : State) (p : Nat) (f : Port → Port) : State :=
  { s with ports := Tbl.set (fun _ => Port.init) s.ports p (f (s.port p)) }

/-- Transmit queue `q` of port `p`. -/
def State.txq (s : State) (p q : Nat) : TxQueue := Tbl.get (fun _ => TxQueue.init) (s.port p).txq q

/-- The state with a transmit queue changed. -/
def State.updTxq (s : State) (p q : Nat) (f : TxQueue → TxQueue) : State :=
  s.updPort p fun x => { x with txq := Tbl.set (fun _ => TxQueue.init) x.txq q (f (s.txq p q)) }

/-- Whether a fetched frame has a launch time to wait for (LMODE 1 or 2) and has not started or ended. -/
def TxFrame.timedWaiting (f : TxFrame) : Bool := f.st == 0 && f.w3.toNat % 4 != 0

/-- Timed launches pending in queue `q` (R294). -/
def State.queueLpend (s : State) (p q : Nat) : Nat := ((s.txq p q).frames.filter TxFrame.timedWaiting).length

/-- Timed launches pending in port `p`. -/
def State.portLpend (s : State) (p : Nat) : Nat := (List.range 8).foldl (fun n q => n + s.queueLpend p q) 0

/-- Whether queue `q` is stopped by PAUSE (R303). -/
def State.paused (s : State) (p q : Nat) : Bool :=
  s.flag (ETH_PAUSE p) ETH_PAUSE_ACTIVE && (s.reg (ETH_PAUSE p)).getLsbD q

/-- Whether the gate of queue `q` is open (R290). -/
def State.gateOpen (s : State) (p q : Nat) : Bool := (s.reg (ETH_GATE p)).getLsbD q

/-- Whether preemption is active (R291). -/
def State.preActive (s : State) (p : Nat) : Bool := s.flag (ETH_PRE_STAT p) ETH_PRE_STAT_ACTIVE

/-- Whether queue `q` is preemptable and preemption is active. -/
def State.preemptable (s : State) (p q : Nat) : Bool := s.preActive p && (s.reg (ETH_PRE_CFG p)).getLsbD (2 + q)

/-- The lane whose egress is port `p` (R176). -/
def egressLane (p : Nat) : Nat := if p % 2 = 0 then p + 1 else p - 1

/-- The transmit queue that the lane of egress port `p` uses (R289). -/
def State.laneTxq (s : State) (p : Nat) : Nat := s.fld (ETH_LANE_CTL (egressLane p)) ETH_LANE_CTL_TXQ

/-- STAT.IDLE of a transmit queue (R284). -/
def State.txIdle (s : State) (p q : Nat) : Bool := (s.txq p q).frames.isEmpty

/-- STAT.IDLE of a port (R272). -/
def State.portIdle (s : State) (p : Nat) : Bool :=
  (s.port p).wire.isNone && (s.port p).frag.isNone && !(s.lane p).inFrame

/-- Whether port `p` is quiescent. -/
def State.portQuiet (s : State) (p : Nat) : Bool := !s.flag (ETH_CTL p) ETH_CTL_EN && s.portIdle p

/-- Whether a transmit queue is quiescent. -/
def State.txQuiet (s : State) (p q : Nat) : Bool := !s.flag (ETH_TXQ_CFG p q) ETH_TXQ_CFG_EN && s.txIdle p q

/-- Whether a receive queue is quiescent. -/
def State.rxQuiet (s : State) (p r : Nat) : Bool := !s.flag (ETH_RXQ_CFG p r) ETH_TXQ_CFG_EN

/-- ETHp_STAT as read. -/
def State.ethStat (s : State) (p : Nat) : Word :=
  let n := s.portLpend p
  ETH_STAT_LFULL.put (ETH_STAT_LPEND.put (ETH_STAT_IDLE.put (s.reg (ETH_STAT p)) (bit (s.portIdle p))) n) (bit (Nat.ble 64 n))

/-- ETHp_TXQq_STAT as read (R284). -/
def State.txqStat (s : State) (p q : Nat) : Word :=
  let w := s.reg (ETH_TXQ_STAT p q) &&& 0xE
  let w := ETH_TXQ_STAT_IDLE.put w (bit (s.txIdle p q))
  let w := match (s.txq p q).frames.head? with
    | some f => ETH_TXQ_STAT_WLT.put (ETH_TXQ_STAT_WCAL.put w (bit (f.timedWaiting && f.launch.isNone)))
        (bit (f.timedWaiting && f.launch.isSome))
    | none => w
  let w := ETH_TXQ_STAT_GATE.put w (bit (s.gateOpen p q))
  let w := ETH_TXQ_STAT_PAUSED.put w (bit (s.paused p q))
  ETH_TXQ_STAT_LPEND.put (ETH_TXQ_STAT_PMAC.put w (bit (s.preemptable p q))) (s.queueLpend p q)

/-! ### Lanes and links (R177) -/

/-- An effect on the ports' links: each lane that leaves ACTIVE in mid-frame ends that frame (R182), and rings its change. -/
def State.withLinks (s : State) (f : State → State) : State :=
  let s' := f s
  (List.range 6).foldl (fun t l =>
    let old := s.laneState l
    if old = s'.laneState l then t
    else
      let x := t.lane l
      let t := if old = 1 && x.inFrame then (t.cutPrimary l 6).countSat (ETH_LANE_CUT l) 1 else t
      t.ringLane l) s'

/-! ### Mode, enable, reset (R269, R273, R274, R299) -/

/-- The corrections that a MODE loads, per speed code (R299). -/
def modeCorr (mode s : Nat) : Word :=
  match mode, s with
  | 1, 0 => 0x01900320 | 1, 1 => 0x00280050 | 1, 2 => 0x00100018
  | 2, 0 => 0x03B803D0 | 2, 1 => 0x009800B0 | 2, 2 => 0x00480060
  | 3, 2 => 0x00480060
  | 4, 3 => 0x0020002C
  | _, _ => 0

/-- Whether MODE is one that port `p` has (R269). -/
def modeOk (p mode : Nat) : Bool := Nat.ble mode 4 && !(mode == 4 && Nat.blt p 4) && !(mode == 1 && Nat.ble 4 p)

/-- Preemption verification starts again (R291): active at once with VDIS while the link is up. -/
def State.verifyRestart (s : State) (p : Nat) : State :=
  let on := s.flag (ETH_PRE_CFG p) ETH_PRE_CFG_EN
  let vdis := s.flag (ETH_PRE_CFG p) ETH_PRE_CFG_VDIS
  let link := s.flag (ETH_STAT p) ETH_STAT_LINK
  let s := s.updPort p fun x => { x with vtry := 0 }
  let s := s.setFld (ETH_PRE_STAT p) ETH_PRE_STAT_VSTAT (if on && !vdis then 1 else 0)
  s.setFlag (ETH_PRE_STAT p) ETH_PRE_STAT_ACTIVE (on && vdis && link)

/-- A queue's index and status registers return to their reset values (R273). -/
def State.queueReset (s : State) (base : Nat) : State :=
  let s := s.setFlag base ETH_TXQ_CFG_EN false
  s.resetRegs fun a => a == base + 0xC || a == base + 0x10 || a == base + 0x14 || a == base + 0x20

/-- The port partial reset (R273). -/
def portReset (p : Nat) (s : State) : State :=
  s.withLinks fun s =>
    let l := egressLane p
    let s := if (s.port p).wire = some (s.laneTxq p, true) then s.endEgress l else s
    let keep := (s.port p).adv1000
    let s := s.updPort p fun _ => { Port.init with adv1000 := keep }
    let s := { s with handed := s.handed.filter fun h => h.arg.toNat % 8 != p }
    let s := (List.range 8).foldl (fun s q => s.queueReset (ETH_TXQ_CFG p q)) s
    let s := (List.range 4).foldl (fun s q => s.queueReset (ETH_RXQ_CFG p q)) s
    let s := s.resetRegs fun a => a == ETH_GATE p || (Nat.ble (ETH_RXOK p) a && Nat.ble a (ETH_TXDESC p))
    let s := (s.setFlag (ETH_PAUSE p) ETH_PAUSE_ACTIVE false).setFld (ETH_PAUSE p) ETH_PAUSE_QREM 0
    let s := (s.setFlag (ETH_STAT p) ETH_STAT_LPITX false).setFlag (ETH_CTL p) ETH_CTL_EN false
    s.verifyRestart p

/-- A write of ETHp_CTL (R272): RST performs the port reset; the interface fields are written while the port is quiescent,
and a MODE written then loads the corrections. -/
def ethCtlWrite (p : Nat) (v : Word) (s : State) : State :=
  let a := ETH_CTL p
  let quiet := s.portQuiet p
  let bad := !modeOk p (ETH_CTL_MODE.get v)
  let w := s.keepFld a ETH_CTL_MODE (fun m => !modeOk p m) v
  let old := s.fld a ETH_CTL_MODE
  let s := s.withLinks fun s =>
    let s := s.plainWrite quiet a w
    if quiet && !bad then
      let s := (List.range 4).foldl (fun s k => s.setReg (ETH_CORR p k) (modeCorr (ETH_CTL_MODE.get v) k)) s
      if old = ETH_CTL_MODE.get v then s
      else (s.setFlag (ETH_STAT p) ETH_STAT_LINK false).setFlag (ETH_STAT p) ETH_STAT_HDX false
    else s
  if v.getLsbD 1 then (portReset p s).answer s.resp else s

/-- PORT_MODE_WRITE (R299): a write of ETHp_CTL. -/
def execPortModeWrite (i : Init) (p : Fin 6) (v : Word) (s : State) : Host.Outcome State Fault Refusal :=
  .next (s.gate i (ETH_CTL p) (ethCtlWrite p v))

/-- PORT_RESET (R273): CTL.RST := 1. -/
def execPortReset (i : Init) (p : Fin 6) (s : State) : Host.Outcome State Fault Refusal :=
  .next (s.gate i (ETH_CTL p) fun (s : State) => (portReset p s).answer .ok)

/-- The Ethernet block partial reset (R274, R188): all ports, the lanes' attachments and counters, and the MDIO transaction. -/
def ethBlockReset (s : State) : State :=
  let s := (List.range 6).foldl (fun s p => portReset p s) s
  let s := (List.range 6).foldl (fun s l =>
    let old := s.laneState l
    let s := if (s.primaryOf l).isSome then s.losePrimary l else s
    let s := (s.loseShadow l).updLane l fun x => { x with absent := false, linger := none, swap := false }
    let s := ((s.setFlag (ETH_LANE_CTL l) ETH_LANE_CTL_PRIEN false).setFlag (ETH_LANE_CTL l) ETH_LANE_CTL_SHDEN false).setFlag
      (ETH_LANE_CTL l) ETH_LANE_CTL_SWAP false
    let s := s.resetRegs fun a => Nat.ble (ETH_LANE_FWD l) a && Nat.ble a (ETH_LANE_DROP l)
    s.ringLaneChange l old) s
  s.setFlag ETH_COM_MDIO_CTL ETH_COM_MDIO_CTL_GO false

/-- ETH_BLKRST (R274). -/
def execEthBlkrst (i : Init) (s : State) : Host.Outcome State Fault Refusal :=
  .next (s.gate i ETH_COM_CTL fun (s : State) => (ethBlockReset s).answer .ok)

/-! ### Link (R269, R270) -/

/-- Whether the interface of `mode` has a speed code (R269). -/
def speedOk (mode speed : Nat) : Bool :=
  match mode with
  | 1 => Nat.ble speed 2
  | 2 => Nat.ble speed 2
  | 3 => speed == 2
  | 4 => speed == 3
  | _ => false

/-- The link of port `p` is `up` at a speed, in half duplex or not (R269, R270): a new link restarts the verification of R291
and ends a downshift whose upshift is under way (R305). -/
def setLink (p : Nat) (up : Bool) (speed : Nat) (hdx : Bool) (s : State) : State :=
  let a := ETH_STAT p
  if up && !speedOk (s.fld (ETH_CTL p) ETH_CTL_MODE) speed then s
  else
    let was := s.flag a ETH_STAT_LINK
    let link := up && !hdx
    let s := s.withLinks fun s =>
      ((s.setFlag a ETH_STAT_LINK link).setFlag a ETH_STAT_HDX (up && hdx)).setFld a ETH_STAT_SPEED speed
    let s := if link && (s.port p).upshift then
        (s.setFlag a ETH_STAT_DSHIFT false).updPort p fun x => { x with upshift := false }
      else s
    if link && !was then s.verifyRestart p
    else if !link then s.setFlag (ETH_PRE_STAT p) ETH_PRE_STAT_ACTIVE false
    else s

/-- LINK_CHANGE (R269): reported by the PCS or in-band status. -/
def execLinkChange (p : Fin 6) (up : Bool) (speed : Fin 4) (hdx : Bool) (s : State) : Host.Outcome State Fault Refusal :=
  .next (if s.fld (ETH_CTL p) ETH_CTL_MODE = 1 && s.flag (ETH_CTL p) ETH_CTL_LSRC then s else setLink p up speed hdx s)

/-- The speed and duplex that Clause 28 priority resolution gives for PHY registers 4, 5, 9 and 10: (speed code, half). -/
def resolve28 (r4 r5 r9 r10 : Nat) : Option (Nat × Bool) :=
  let both (a i b j : Nat) : Bool := a.testBit i && b.testBit j
  if both r9 9 r10 11 then some (2, false)
  else if both r9 8 r10 10 then some (2, true)
  else if both r4 8 r5 8 then some (1, false)
  else if both r4 7 r5 7 then some (1, true)
  else if both r4 6 r5 6 then some (0, false)
  else if both r4 5 r5 5 then some (0, true)
  else none

/-- The poll of PHY registers 1, 4, 5, 9 and 10 (R269). -/
def phyPoll (p r1 r4 r5 r9 r10 : Nat) (s : State) : State :=
  if s.fld (ETH_CTL p) ETH_CTL_MODE = 1 && s.flag (ETH_CTL p) ETH_CTL_LSRC then
    match resolve28 r4 r5 r9 r10 with
    | some (sp, h) => setLink p (r1.testBit 2) sp h s
    | none => setLink p false (s.fld (ETH_STAT p) ETH_STAT_SPEED) false s
  else s

/-- PHY_POLL (R269). -/
def execPhyPoll (p : Fin 6) (r1 r4 r5 r9 r10 : BitVec 16) (s : State) : Host.Outcome State Fault Refusal :=
  .next (phyPoll p r1.toNat r4.toNat r5.toNat r9.toNat r10.toNat s)

/-! ### MDIO (R275) -/

/-- A write of ETH_COM_MDIO_CTL or DATA: refused while GO reads 1. -/
def mdioWrite (a : Nat) (v : Word) (s : State) : State :=
  if s.flag ETH_COM_MDIO_CTL ETH_COM_MDIO_CTL_GO then s.answer .busError
  else
    let s := s.plainWrite true a v
    if a = ETH_COM_MDIO_CTL && ETH_COM_MDIO_CTL_GO.get v == 1 then s.setFlag a ETH_COM_MDIO_CTL_GO true else s

/-- MDIO_TRANSACTION (R275): a write of ETH_COM_MDIO_CTL with GO. -/
def execMdioTransaction (i : Init) (v : Word) (s : State) : Host.Outcome State Fault Refusal :=
  .next (s.gate i ETH_COM_MDIO_CTL (mdioWrite ETH_COM_MDIO_CTL (v ||| 0x2000)))

/-- The transaction ends: `ack` is the PHY's answer to a read, none where no turnaround came. -/
def mdioComplete (ack : Option (BitVec 16)) (s : State) : State :=
  let c := ETH_COM_MDIO_CTL
  if !s.flag c ETH_COM_MDIO_CTL_GO then s
  else
    let op := s.fld c ETH_COM_MDIO_CTL_OP
    let rd := op == 2 || (op == 3 && s.flag c ETH_COM_MDIO_CTL_C45)
    let s := s.setFlag c ETH_COM_MDIO_CTL_GO false
    if !rd then s
    else match ack with
      | some d => (s.setReg ETH_COM_MDIO_DATA (d.zeroExtend 32)).setFlag c ETH_COM_MDIO_CTL_NOACK false
      | none => (s.setReg ETH_COM_MDIO_DATA 0xFFFF).setFlag c ETH_COM_MDIO_CTL_NOACK true

/-- MDIO_COMPLETE (R275). -/
def execMdioComplete (ack : Option (BitVec 16)) (s : State) : Host.Outcome State Fault Refusal := .next (mdioComplete ack s)

/-! ### Gates (R290) -/

/-- Gate states take effect: a gate that closes over a frame on the wire that cannot be preempted counts TXOVRUN. -/
def State.setGates (s : State) (p states : Nat) : State :=
  let t := s.setFld (ETH_GATE p) ETH_GATE_STATES states
  match (s.port p).wire with
  | some (q, _) => if s.gateOpen p q && !t.gateOpen p q && !s.preemptable p q then t.countSat (ETH_TXOVRUN p) 1 else t
  | none => t

/-- GATE_WRITE (R290): a software write of ETHp_GATE. -/
def execGateWrite (i : Init) (p : Fin 6) (v : Word) (s : State) : Host.Outcome State Fault Refusal :=
  .next (s.gate i (ETH_GATE p) fun (s : State) => (s.setGates p (v.toNat % 256)).answer .ok)

/-- Takes the first handed action of a kind for port `p` out of the Calendar's hand. -/
def State.takeHanded (s : State) (p act : Nat) : Option (Handed × State) :=
  match s.handed.find? (fun (h : Handed) => h.action == act && h.arg.toNat % 8 == p) with
  | some h => some (h, { s with handed := s.handed.erase h })
  | none => none

/-- A handed GATE action is held by the port, or discarded and counted at 16 pending. -/
def gateHandover (p : Nat) (s : State) : State :=
  match s.takeHanded p 2 with
  | none => s
  | some (h, s) =>
    let n := (s.port p).gates.length
    if 16 ≤ n then s.countSat (ETH_CALMISS p) 1
    else (s.updPort p fun x => { x with gates := x.gates ++ [(h.clk, h.time, h.arg)] }).setFld (ETH_GATE p) ETH_GATE_NPEND (n + 1)

/-- GATE_ACTION_HANDOVER (R290). -/
def execGateActionHandover (p : Fin 6) (s : State) : Host.Outcome State Fault Refusal := .next (gateHandover p s)

/-- The held GATE action that is due takes effect: states, and for operations 1 and 2 the hold. -/
def gateApply (p : Nat) (s : State) : State :=
  match (s.port p).gates.find? (fun g => decide (g.2.1 ≤ s.clockNs g.1)) with
  | none => s
  | some g =>
    let w := g.2.2.toNat
    let s := s.updPort p fun x => { x with gates := x.gates.erase g }
    let s := s.setFld (ETH_GATE p) ETH_GATE_NPEND (s.port p).gates.length
    let s := if w / 65536 = 1 then s.setFlag (ETH_GATE p) ETH_GATE_HOLD true
      else if w / 65536 = 2 then s.setFlag (ETH_GATE p) ETH_GATE_HOLD false
      else s
    s.setGates p (w / 256 % 256)

/-- GATE_ACTION_APPLY (R290). -/
def execGateActionApply (p : Fin 6) (s : State) : Host.Outcome State Fault Refusal := .next (gateApply p s)

/-! ### PAUSE, preemption verification, EEE, service ports (R291, R303-R305) -/

/-- A PAUSE frame of `quanta` is honoured (R303). -/
def State.pause (s : State) (p quanta : Nat) : State :=
  ((s.setFlag (ETH_PAUSE p) ETH_PAUSE_ACTIVE (quanta != 0)).setFld (ETH_PAUSE p) ETH_PAUSE_QREM quanta).countSat (ETH_RXPAUSE p) 1

/-- PAUSE_EXPIRY (R303): the pause time has run out. -/
def execPauseExpiry (p : Fin 6) (s : State) : Host.Outcome State Fault Refusal :=
  .next ((s.setFlag (ETH_PAUSE p) ETH_PAUSE_ACTIVE false).setFld (ETH_PAUSE p) ETH_PAUSE_QREM 0)

/-- A verify interval has passed (R291): a verify mPacket is sent, or after VLIMIT attempts verification fails. -/
def preemptVerify (p : Nat) (s : State) : State :=
  let a := ETH_PRE_STAT p
  let v := s.fld a ETH_PRE_STAT_VSTAT
  if !s.flag (ETH_PRE_CFG p) ETH_PRE_CFG_EN || !s.flag (ETH_STAT p) ETH_STAT_LINK || (v != 1 && v != 2) then s
  else if Nat.ble (max 1 (s.fld (ETH_PRE_CFG p) ETH_PRE_CFG_VLIMIT)) (s.port p).vtry then
    (s.setFld a ETH_PRE_STAT_VSTAT 4).countSat (ETH_VERFAIL p) 1
  else (s.setFld a ETH_PRE_STAT_VSTAT 2).updPort p fun x => { x with vtry := x.vtry + 1 }

/-- PREEMPT_VERIFY (R291). -/
def execPreemptVerify (p : Fin 6) (s : State) : Host.Outcome State Fault Refusal := .next (preemptVerify p s)

/-- A respond mPacket ends the verification with success (R291). -/
def State.verified (s : State) (p : Nat) : State :=
  if s.fld (ETH_PRE_STAT p) ETH_PRE_STAT_VSTAT = 2 then
    (s.setFld (ETH_PRE_STAT p) ETH_PRE_STAT_VSTAT 3).setFlag (ETH_PRE_STAT p) ETH_PRE_STAT_ACTIVE true
  else s

/-- Whether a timed frame, or a gate that a handed action opens, lies within TW + 2 us (R304). -/
def State.wakeSoon (s : State) (p : Nat) : Bool :=
  let tw := if s.fld (ETH_STAT p) ETH_STAT_SPEED = 2 then s.fld (ETH_EEE p) ETH_EEE_TW1000 else s.fld (ETH_EEE p) ETH_EEE_TW100
  let near (c : Nat) (t : Int) : Bool := decide (t ≤ s.clockNs c + (tw + 2) * 1000)
  ((List.range 8).any fun q => (s.txq p q).frames.any fun f =>
    f.timedWaiting && match f.launch with | some (c, t) => near c t | none => false) ||
  (s.port p).gates.any fun g => near g.1 g.2.1 && bitsOf g.2.2.toNat 8 8 != 0

/-- IDLE us have passed without a frame to send (R304). -/
def lpiEntry (p : Nat) (s : State) : State :=
  let m := s.fld (ETH_CTL p) ETH_CTL_MODE
  let sp := s.fld (ETH_STAT p) ETH_STAT_SPEED
  let nothing := (List.range 8).all fun q => (s.txq p q).frames.all fun f => f.timedWaiting
  if s.flag (ETH_EEE p) ETH_EEE_EN && s.flag (ETH_CTL p) ETH_CTL_EN && (m = 1 || m = 2) && (sp = 1 || sp = 2) &&
      s.flag (ETH_STAT p) ETH_STAT_LINK && (s.port p).wire.isNone && (s.port p).frag.isNone &&
      (s.lane (egressLane p)).tx.isEmpty && nothing && !s.wakeSoon p && !s.flag (ETH_STAT p) ETH_STAT_LPITX then
    (s.setFlag (ETH_STAT p) ETH_STAT_LPITX true).countSat (ETH_LPIENT p) 1
  else s

/-- LPI_ENTRY (R304). -/
def execLpiEntry (p : Fin 6) (s : State) : Host.Outcome State Fault Refusal := .next (lpiEntry p s)

/-- LPI_WAKE (R304). -/
def execLpiWake (p : Fin 6) (s : State) : Host.Outcome State Fault Refusal :=
  .next (if s.wakeSoon p then s.setFlag (ETH_STAT p) ETH_STAT_LPITX false else s)

/-- LPI_RECEIVED (R304). -/
def execLpiReceived (p : Fin 6) (on : Bool) (s : State) : Host.Outcome State Fault Refusal :=
  .next (s.setFlag (ETH_STAT p) ETH_STAT_LPIRX on)

/-- Whether port `p` may shift its speed (R305). -/
def State.mayShift (s : State) (p : Nat) : Bool :=
  let m := s.fld (ETH_CTL p) ETH_CTL_MODE
  (s.reg ETH_COM_SVC).getLsbD p && s.flag (ETH_DSCFG p) ETH_DSCFG_EN && (m == 1 || m == 2) && s.flag (ETH_STAT p) ETH_STAT_LINK

/-- The port renegotiates with or without the 1000BASE-T advertisement: the link is down meanwhile (R305). -/
def State.renegotiate (s : State) (p : Nat) (adv : Bool) : State :=
  let s := s.updPort p fun x => { x with adv1000 := adv, upshift := adv }
  s.withLinks fun s => s.setFlag (ETH_STAT p) ETH_STAT_LINK false

/-- Utilisation below DSTHR for HOLD seconds at 1,000 Mbit/s (R305). -/
def downshift (p : Nat) (s : State) : State :=
  if s.mayShift p && s.fld (ETH_STAT p) ETH_STAT_SPEED == 2 then
    ((s.renegotiate p false).setFlag (ETH_STAT p) ETH_STAT_DSHIFT true).countSat (ETH_DSHIFT p) 1
  else s

/-- DOWNSHIFT (R305). -/
def execDownshift (p : Fin 6) (s : State) : Host.Outcome State Fault Refusal := .next (downshift p s)

/-- Utilisation above UPTHR for a second at 100 Mbit/s (R305). -/
def upshift (p : Nat) (s : State) : State :=
  if s.mayShift p && s.fld (ETH_STAT p) ETH_STAT_SPEED == 1 && s.flag (ETH_STAT p) ETH_STAT_DSHIFT then s.renegotiate p true else s

/-- UPSHIFT (R305). -/
def execUpshift (p : Fin 6) (s : State) : Host.Outcome State Fault Refusal := .next (upshift p s)

/-! ### Steering alias (R300) -/

/-- A write through the alias of TC`n` at register offset `off`. -/
def aliasWrite (p n off : Nat) (v : Word) (s : State) : State :=
  if off = 0 then
    if (v &&& 0xE0) = 0 then s.answer .ok
    else if s.owns n (1 + p) then (s.steerActions n v).answer .ok
    else s.answer .busError
  else if off = 4 then (if s.owns n (1 + p) then s.plainWrite true (ALM_TC_STAT n) v else s.answer .busError)
  else if Nat.ble 0x18 off && Nat.ble off 0x30 then steerWrite (1 + p) n off v s
  else s.answer .ok

/-- STEERING_ALIAS_WRITE (R300): `off` is the word offset in the alias. -/
def execSteeringAliasWrite (i : Init) (p : Fin 6) (n : Fin 4) (off : Fin 16) (v : Word) (s : State) :
    Host.Outcome State Fault Refusal :=
  .next (s.gate i (0x60080C00 + 0x1000 * p.val + 0x40 * n.val + 4 * off.val) (aliasWrite p n (4 * off.val) v))

end Sys2Proof.Machine
end

