-- ==== Sys2Proof/Machine/EthDma.lean ====
section
/-! DEFINITION. Ethernet descriptor rings, transmission and reception (R276-R289, R292-R298, R306-R308), and the registers of the
Ethernet block.
Choices of the model: log entries 69, 70, 107. -/

set_option autoImplicit false

namespace Sys2Proof.Machine

open Sys2Proof

/-! ### Rings (R276) -/

/-- The data mover of port `p`. -/
def ethMover (p : Nat) : Init := .ethDma (Fin.ofNat 6 p)

/-- Ring length of a queue whose CFG register is at `b`; a length below 2 acts as 2. -/
def State.ringLen (s : State) (b : Nat) : Nat := max 2 (s.reg (b + 8)).toNat

/-- HEAD and TAIL. -/
def State.ringHead (s : State) (b : Nat) : Nat := (s.reg (b + 0xC)).toNat
def State.ringTail (s : State) (b : Nat) : Nat := (s.reg (b + 0x10)).toNat

/-- The address of descriptor `k` of the ring. -/
def State.ringAddr (s : State) (b k : Nat) : Nat := (s.reg (b + 4)).toNat / 32 * 32 + 32 * (k % s.ringLen b)

/-- A queue stops with an error code; a bus error is counted in `cnt` and reported to Vigil (R283). -/
def State.ringError (s : State) (p b code cnt addr : Nat) : State :=
  let s := (s.setFlag (b + 0x14) ETH_TXQ_STAT_ERR true).setFld (b + 0x14) ETH_TXQ_STAT_ERRC code
  if code = 3 then s else (s.countSat cnt 1).report 15 (resId 10 p) addr (36 + p)

/-- Word `k` of the bytes of a descriptor. -/
def descWord (d : List Byte) (k : Nat) : Word := word (ofBytes (slice d (4 * k) 4))

/-- A queue signals completion (R282). -/
def State.queueEvent (s : State) (b : Nat) : State :=
  let w := s.reg b
  let s := if ETH_TXQ_CFG_EVEN.get w = 1 then s.latchEv (ETH_TXQ_CFG_EVENG.get w) 4 else s
  s.ringIf (ETH_TXQ_CFG_DBEN.get w == 1) (ETH_TXQ_CFG_DBAGENT.get w) (ETH_TXQ_CFG_DBBIT.get w)

/-- A write of BASE or LEN (R276): HEAD and TAIL become 0 and ERR clears. -/
def ringConfig (b off : Nat) (v : Word) (s : State) : State :=
  let quiet := if b % 0x1000 < 0x400 then s.txQuiet ((b - 0x60080000) / 0x1000) (b % 0x1000 / 0x40 - 8)
    else s.rxQuiet ((b - 0x60080000) / 0x1000) (b % 0x1000 / 0x40 - 16)
  let v := if off = 8 then s.keepFld (b + 8) ETH_TXQ_LEN_LEN (fun n => Nat.blt n 2 || Nat.blt 4096 n) v else v
  let s := s.plainWrite quiet (b + off) v
  if quiet then
    (((s.setReg (b + 0xC) 0).setReg (b + 0x10) 0).setFlag (b + 0x14) ETH_TXQ_STAT_ERR false).setFld (b + 0x14) ETH_TXQ_STAT_ERRC 0
  else s

/-- The CFG address of a transmit (0-7) or receive (8-11) queue. -/
def queueBase (p k : Nat) : Nat := if k < 8 then ETH_TXQ_CFG p k else ETH_RXQ_CFG p (k - 8)

/-- RING_CONFIG_WRITE (R276): BASE or LEN of a transmit (0-7) or receive (8-11) queue. -/
def execRingConfigWrite (i : Init) (p : Fin 6) (k : Fin 12) (len : Bool) (v : Word) (s : State) :
    Host.Outcome State Fault Refusal :=
  .next (s.gate i (queueBase p k + if len then 8 else 4) (ringConfig (queueBase p k) (if len then 8 else 4) v))

/-- A write of TAIL (R276): a value of LEN or more is refused. -/
def ringTailWrite (b : Nat) (v : Word) (s : State) : State :=
  if s.ringLen b ≤ v.toNat % 4096 then s.answer .busError else (s.setReg (b + 0x10) (v &&& 0xFFF)).answer .ok

/-- TAIL_WRITE (R276). -/
def execTailWrite (i : Init) (p : Fin 6) (k : Fin 12) (v : Word) (s : State) : Host.Outcome State Fault Refusal :=
  .next (s.gate i (queueBase p k + 0x10) (ringTailWrite (queueBase p k) v))

/-! ### Descriptor fetch (R277, R278) -/

/-- The write-back statuses (R279). -/
def stLATE : Nat := 1
def stUNDERRUN : Nat := 2
def stCANCELLED : Nat := 3
def stBUSERR : Nat := 4
def stDESCERR : Nat := 5
def stTOOLONG : Nat := 6

/-- The index after the frames already fetched. -/
def State.fetchIdx (s : State) (p q : Nat) : Nat :=
  let b := ETH_TXQ_CFG p q
  ((s.txq p q).frames.foldl (fun n f => n + f.n) (s.ringHead b)) % s.ringLen b

/-- What the collection of a frame's descriptors met. -/
inductive Fetched where
  | whole
  | starved
  | notOwned
  | busError (addr : Nat)
deriving DecidableEq, Repr

/-- Collects the descriptors of the frame that starts at index `k`: up to EOF, to an SOF out of place, or to 16. -/
def State.collect (s : State) (p q : Nat) : Nat → Nat → List (List Byte) → List (List Byte) × Fetched × State
  | 0, _, acc => (acc, .whole, s)
  | fuel + 1, k, acc =>
    let b := ETH_TXQ_CFG p q
    if k % s.ringLen b = s.ringTail b then (acc, .starved, s)
    else
      let a := s.ringAddr b k
      match s.moverRead (ethMover p) a 32 with
      | (_, some _, s) => (acc, .busError a, s)
      | (d, none, s) =>
        if !(descWord d 7).getLsbD 31 then (acc, .notOwned, s)
        else if !acc.isEmpty && (descWord d 1).getLsbD 14 then (acc, .whole, s)
        else if (descWord d 1).getLsbD 15 then (acc ++ [d], .whole, s)
        else State.collect s p q fuel (k + 1) (acc ++ [d])

/-- Whether the descriptors of a frame keep R277 and R278. -/
def descsOk (ds : List (List Byte)) : Bool :=
  let blen (d : List Byte) : Nat := bitsOf (descWord d 1).toNat 0 14
  let first := ds.headD []
  let last := ds.getLastD []
  let w1 := descWord first 1
  let each (d : List Byte) : Bool := Nat.ble 1 (blen d) && Nat.ble (blen d) 9212 && (descWord d 1).toNat / 2 ^ 30 == 0 &&
    descWord d 6 == 0 && bitsOf (descWord d 7).toNat 0 30 == 0
  let other (d : List Byte) : Bool := bitsOf (descWord d 1).toNat 16 14 == 0 && descWord d 2 == 0 && descWord d 3 == 0 &&
    descWord d 4 == 0
  w1.getLsbD 14 && (descWord last 1).getLsbD 15 && ds.all each && (ds.drop 1).all other &&
    (descWord first 2 &&& 0xFC0000F0) == 0 && Nat.blt (descWord first 3).toNat 8 && (descWord first 3).toNat % 4 != 3 &&
    ds.foldl (fun n d => n + blen d) 0 == bitsOf w1.toNat 16 14 && Nat.ble 1 (bitsOf w1.toNat 16 14)

/-- A LMODE 1 launch time as ns of its clock: within 2 s ahead, else past (R293). -/
def State.launchTime (s : State) (clk : Nat) (t : Word) : Int :=
  let now := s.clockNs clk
  let d := ((t.toNat / 2 ^ 30 : Nat) * 1000000000 + (t.toNat % 2 ^ 30 : Nat) - now).emod 4000000000
  now + (if d < 2000000000 then d else d - 4000000000)

/-- A frame that is not sent ends with a status (R278, R296, R297). -/
def TxFrame.endUnsent (f : TxFrame) (status clk : Nat) : TxFrame :=
  { f with st := 2, status := word (status + clk * 16), ts := 0 }

/-- The stamp clock of port `p` (R298). -/
def State.stampClk (s : State) (p : Nat) : Nat := s.fld (ETH_TSCFG p) ETH_TSCFG_CLK

/-- The head frame of queue `q` takes the held launch that names its entry (R295). -/
def State.takeLaunch (s : State) (p q : Nat) : State :=
  let x := s.txq p q
  match x.frames, x.held with
  | f :: t, some (k, c, ns) =>
    if f.timedWaiting && f.w3.toNat % 4 == 2 && f.launch.isNone && f.w4.toNat % 2048 == k then
      s.updTxq p q fun x => { x with frames := { f with launch := some (c, ns) } :: t, held := none }
    else s
  | _, _ => s

/-- The DMA fetches the descriptors of queue `q`'s next frame (R276-R278, R294): nothing while it owns no whole frame, while the
queue is stopped, or while 64 launches are pending and the frame is timed. -/
def descriptorFetch (p q : Nat) (s : State) : State :=
  let b := ETH_TXQ_CFG p q
  if !s.flag (ETH_CTL p) ETH_CTL_EN || !s.flag b ETH_TXQ_CFG_EN || s.flag (b + 0x14) ETH_TXQ_STAT_ERR then s
  else
    let k := s.fetchIdx p q
    match s.collect p q 16 k [] with
    | (_, .starved, s) => s
    | (_, .notOwned, s) => s.ringError p b 3 0 0
    | (_, .busError a, s) => s.ringError p b 1 (ETH_TXBUSERR p) a
    | (ds, .whole, s') =>
      let first := ds.headD []
      let w1 := descWord first 1
      let mode := (descWord first 3).toNat % 4
      if Nat.ble 64 (s.portLpend p) && mode != 0 then s
      else
        let s := s'
        let clk := s.stampClk p
        let flen := bitsOf w1.toNat 16 14
        let f : TxFrame := ⟨k, ds.length, flen, descWord first 2, descWord first 3, descWord first 4,
          ds.map fun d => ((descWord d 0).toNat, bitsOf (descWord d 1).toNat 0 14),
          if mode = 1 then some (clk, s.launchTime clk (descWord first 4)) else none, none, 0, 0, 0⟩
        let late := match f.launch with
          | some (c, t) => decide (t + ((s.reg (ETH_TXQ_LTOL p q)).toNat : Int) < s.clockNs c)
          | none => false
        let long := Nat.blt 9212 flen
        let bad := long || !descsOk ds
        let cx := (s.txq p q).cancels.contains k
        let f := if bad then f.endUnsent (if long then stTOOLONG else stDESCERR) clk
          else if cx then f.endUnsent stCANCELLED clk
          else if late then f.endUnsent stLATE clk
          else f
        let s := if bad then s.countSat (ETH_TXDESC p) 1
          else if cx then s.countSat (ETH_TXCXL p) 1
          else if late then s.countSat (ETH_TXLATE p) 1
          else s
        let head := (s.txq p q).frames.isEmpty
        let s := s.updTxq p q fun x => { x with frames := x.frames ++ [f], cancels := x.cancels.filter (· != k) }
        if head then s.takeLaunch p q else s

/-- DESCRIPTOR_FETCH (R278). -/
def execDescriptorFetch (p : Fin 6) (q : Fin 8) (s : State) : Host.Outcome State Fault Refusal := .next (descriptorFetch p q s)

/-! ### Frame data (R283, R286, R294) -/

/-- Reads the buffers of a frame: the bytes up to the first error, and its address. -/
def State.readBufs (s : State) (p : Nat) : List (Nat × Nat) → List Byte × Option Nat × State
  | [] => ([], none, s)
  | (a, n) :: t =>
    match s.moverRead (ethMover p) a n with
    | (d, some _, s) => (d, some a, s)
    | (d, none, s) =>
      let (r, e, s) := State.readBufs s p t
      (d ++ r, e, s)

/-- The state with the oldest frame of a queue changed. -/
def State.updHead (s : State) (p q : Nat) (f : TxFrame → TxFrame) : State :=
  s.updTxq p q fun x => { x with frames := match x.frames with | [] => [] | h :: t => f h :: t }

/-- A buffer error before the frame has started: not sent, BUSERR, the queue stops (R283). -/
def State.bufferError (s : State) (p q addr : Nat) : State :=
  (s.updHead p q fun f => f.endUnsent stBUSERR (s.stampClk p)).ringError p (ETH_TXQ_CFG p q) 2 (ETH_TXBUSERR p) addr

/-- Bytes of timed frames in the transmit FIFO of port `p`. -/
def State.fifoBytes (s : State) (p : Nat) : Nat :=
  (List.range 8).foldl (fun n q => (s.txq p q).frames.foldl (fun n f => n + (if f.st = 2 then 0 else (f.data.getD []).length)) n) 0

/-- The data of the timed frame at the head of queue `q` enters the FIFO (R294): TLEAD before its launch time, as space allows. -/
def timedFetch (p q : Nat) (s : State) : State :=
  match (s.txq p q).frames with
  | [] => s
  | f :: _ =>
    let lead : Nat := let n := s.fld (ETH_TXCFG p) ETH_TXCFG_TLEAD; if n < 2 || 1000 < n then 2 else n
    match f.launch with
    | none => s
    | some (c, t) =>
      if !f.timedWaiting || f.data.isSome || Nat.blt 16384 (s.fifoBytes p + f.flen) ||
          decide (s.clockNs c + 1000 * (lead : Int) < t) then s
      else
        match s.readBufs p f.bufs with
        | (d, none, s) => s.updHead p q fun f => { f with data := some d }
        | (_, some a, s) => s.bufferError p q a

/-- TIMED_FRAME_FETCH (R294). -/
def execTimedFrameFetch (p : Fin 6) (q : Fin 8) (s : State) : Host.Outcome State Fault Refusal := .next (timedFetch p q s)

/-- Whether a frame may start before it is whole in the FIFO (R286). -/
def State.cutThrough (s : State) (p q : Nat) (f : TxFrame) : Bool :=
  let thr := max 1 (s.fld (ETH_TXQ_CFG p q) ETH_TXQ_CFG_THR)
  f.w3.toNat % 4 == 0 && !f.w2.getLsbD 1 && Nat.blt thr 144 && Nat.blt (64 * thr) f.flen

/-! ### Selection and start (R288-R290, R293, R298) -/

/-- Tenths of a ns per byte at a speed code. -/
def byteTenths (speed : Nat) : Nat := match speed with | 0 => 8000 | 1 => 800 | 2 => 80 | _ => 32

/-- The ns that `n` bytes take on the wire of port `p`. -/
def State.wireNs (s : State) (p n : Nat) : Int := (n * byteTenths (s.fld (ETH_STAT p) ETH_STAT_SPEED) + 9) / 10

/-- Whether a handed gate action closes queue `q` before a frame of `len` bytes would have left (R290). -/
def State.closesSoon (s : State) (p q len : Nat) : Bool :=
  (s.port p).gates.any fun g => !g.2.2.getLsbD (8 + q) && decide (g.2.1 < s.clockNs g.1 + s.wireNs p (8 + max 60 len + 4))

/-- Whether the port transmits: enabled, link up in full duplex, the wire free. -/
def State.txFree (s : State) (p : Nat) : Bool :=
  s.flag (ETH_CTL p) ETH_CTL_EN && s.flag (ETH_STAT p) ETH_STAT_LINK && (s.port p).wire.isNone

/-- Whether queue `q` may send at all now (R288): not PAUSEd, gate open, not held. -/
def State.queueOpen (s : State) (p q : Nat) : Bool :=
  !s.paused p q && s.gateOpen p q && !(s.preemptable p q && s.flag (ETH_GATE p) ETH_GATE_HOLD)

/-- Whether a lane frame of queue `q` can start (R289). -/
def State.laneEligible (s : State) (p q : Nat) : Bool :=
  s.laneTxq p == q && s.laneReady (egressLane p) && s.queueOpen p q

/-- Whether the ring frame at the head of queue `q` can start (R288, R289, R290), its launch time apart. -/
def State.ringEligible (s : State) (p q : Nat) : Bool :=
  let l := s.lane (egressLane p)
  match (s.txq p q).frames with
  | [] => false
  | f :: _ =>
    s.flag (ETH_TXQ_CFG p q) ETH_TXQ_CFG_EN && !s.flag (ETH_TXQ_STAT p q) ETH_TXQ_STAT_ERR && f.st == 0 && s.queueOpen p q &&
    (f.w3.toNat % 4 == 0 || f.data.isSome) && !(s.laneTxq p == q && (l.egress || !l.tx.isEmpty)) &&
    (s.preemptable p q || !s.closesSoon p q f.flen)

/-- Whether its launch time has come. -/
def State.launchCome (s : State) (p q : Nat) : Bool :=
  match (s.txq p q).frames with
  | [] => false
  | f :: _ => f.w3.toNat % 4 == 0 || match f.launch with | some (c, t) => decide (t ≤ s.clockNs c) | none => false

/-- Takes a deviation of at most 4 ns: a free value within the accuracy that R293 and R298 state. -/
def State.accuracy (s : State) : Int × State :=
  let (w, s) := s.free
  (((w.toNat % 9 : Nat) : Int) - 4, s)

/-- The ring frame at the head of queue `q` starts, with egress stamp `ts` (ns of the stamp clock): checksums are inserted; a
buffer error ends it before its start, or on the wire where a cut-through part has been sent (R283, R287, R301). -/
def State.startRing (s : State) (p q : Nat) (ts : Int) : State :=
  match (s.txq p q).frames with
  | [] => s
  | f :: _ =>
    let clk := s.stampClk p
    let thr := min f.flen (64 * max 1 (s.fld (ETH_TXQ_CFG p q) ETH_TXQ_CFG_THR))
    let (d, e, s) := match f.data with
      | some d => (d, none, s)
      | none => s.readBufs p f.bufs
    let (d', skip) := insertCs d f.w2
    let stamp := t32Of (ts.toNat * 65536)
    let s := s.setFlag (ETH_STAT p) ETH_STAT_LPITX false
    match e with
    | none =>
      (s.updHead p q fun f => { f with
        data := some d', st := 1, ts := stamp, status := word (clk * 16 + bit skip * 256) }).updPort p fun x =>
          { x with wire := some (q, false) }
    | some a =>
      if s.cutThrough p q f && Nat.ble thr d.length then
        ((s.updHead p q fun f => { f with
          data := some d', st := 2, ts := stamp, status := word (stBUSERR + clk * 16 + 128 + bit skip * 256) }).updPort p fun x =>
            { x with last := withFcs d' true }).ringError p (ETH_TXQ_CFG p q) 2 (ETH_TXBUSERR p) a
      else s.bufferError p q a

/-- The egress stamp of a frame whose preamble starts now (R298). -/
def State.egressNow (s : State) (p : Nat) : Int × State :=
  let (d, s) := s.accuracy
  let c := s.reg (ETH_CORR p (s.fld (ETH_STAT p) ETH_STAT_SPEED))
  (s.clockNs (s.stampClk p) + s.wireNs p 8 + signedOf (ETH_CORR_EGR.get c) 16 + d, s)

/-- A candidate of R288: the preempted remainder, a lane frame, or the ring frame of a queue. -/
inductive TxCand where
  | rest (q : Nat) (lane : Bool)
  | lane (q : Nat)
  | ring (q : Nat)
deriving DecidableEq, Repr

/-- The candidates of one queue, a lane frame before a ring frame (R289). -/
def State.queueCands (s : State) (p q : Nat) : List TxCand :=
  (if s.laneEligible p q then [TxCand.lane q] else []) ++ (if s.ringEligible p q && s.launchCome p q then [TxCand.ring q] else [])

/-- The frame the MAC chooses (R288, R292): express queues from the highest, then the preempted remainder, then preemptable
queues from the highest. -/
def State.txChoice (s : State) (p : Nat) : Option TxCand :=
  let qs := (List.range 8).reverse
  let ex := (qs.filter fun q => !s.preemptable p q).flatMap (s.queueCands p)
  let pm := match (s.port p).frag with
    | some (q, l) => if s.queueOpen p q then [TxCand.rest q l] else []
    | none => (qs.filter fun q => s.preemptable p q).flatMap (s.queueCands p)
  (ex ++ pm).head?

/-- At a frame boundary the MAC starts the frame it chooses. -/
def txFrameSelect (p : Nat) (s : State) : State :=
  if !s.txFree p then s
  else
    match s.txChoice p with
    | none => s
    | some (.rest q l) => s.updPort p fun x => { x with wire := some (q, l), frag := none }
    | some (.lane q) =>
      ((s.setFlag (ETH_STAT p) ETH_STAT_LPITX false).laneStart (egressLane p)).updPort p fun x => { x with wire := some (q, true) }
    | some (.ring q) =>
      let (ts, s) := s.egressNow p
      s.startRing p q ts

/-- TX_FRAME_SELECT (R288). -/
def execTxFrameSelect (p : Fin 6) (s : State) : Host.Outcome State Fault Refusal := .next (txFrameSelect p s)

/-- A timed frame starts so that its stamp equals its launch time within 4 ns (R293). -/
def timedLaunch (p q : Nat) (s : State) : State :=
  match (s.txq p q).frames with
  | [] => s
  | f :: _ =>
    match f.launch with
    | none => s
    | some (c, t) =>
      let first := !((List.range 8).any fun k => Nat.blt q k && (s.preemptable p k == s.preemptable p q) && !(s.queueCands p k).isEmpty)
      if s.txFree p && f.w3.toNat % 4 != 0 && s.ringEligible p q && decide (s.clockNs c ≤ t) && first &&
          ((s.port p).frag.isNone || !s.preemptable p q) then
        let (d, s) := s.accuracy
        s.startRing p q (t - s.clockNs c + s.clockNs (s.stampClk p) + d)
      else s

/-- TIMED_LAUNCH (R293). -/
def execTimedLaunch (p : Fin 6) (q : Fin 8) (s : State) : Host.Outcome State Fault Refusal := .next (timedLaunch p q s)

/-- A Calendar ETH_LAUNCH handover reaches its queue: an unconsumed one is replaced and counted (R295). -/
def launchHandover (p : Nat) (s : State) : State :=
  match s.takeHanded p 1 with
  | none => s
  | some (h, s) =>
    let q := bitsOf h.arg.toNat 4 3
    let s := s.takeLaunch p q
    let s := if (s.txq p q).held.isSome then s.countSat (ETH_CALMISS p) 1 else s
    (s.updTxq p q fun x => { x with held := some (h.k, h.clk, h.time) }).takeLaunch p q

/-- LAUNCH_HANDOVER (R295). -/
def execLaunchHandover (p : Fin 6) (s : State) : Host.Outcome State Fault Refusal := .next (launchHandover p s)

/-- A timed head frame that has not started by its launch time plus LTOL ends LATE (R296). -/
def launchLate (p q : Nat) (s : State) : State :=
  match (s.txq p q).frames with
  | [] => s
  | f :: _ =>
    match f.launch with
    | none => s
    | some (c, t) =>
      if f.timedWaiting && decide (t + ((s.reg (ETH_TXQ_LTOL p q)).toNat : Int) < s.clockNs c) then
        (s.updHead p q fun f => f.endUnsent stLATE (s.stampClk p)).countSat (ETH_TXLATE p) 1
      else s

/-- LAUNCH_LATE (R296). -/
def execLaunchLate (p : Fin 6) (q : Fin 8) (s : State) : Host.Outcome State Fault Refusal := .next (launchLate p q s)

/-! ### End of a frame (R279, R282, R287, R292, R297) -/

/-- The frame on the wire is cut (R292): `sent` bytes of its present fragment have left and `remain` are still to go. -/
def preemption (p sent remain : Nat) (s : State) : State :=
  match (s.port p).wire with
  | none => s
  | some (q, l) =>
    let reason := s.flag (ETH_GATE p) ETH_GATE_HOLD || !s.gateOpen p q ||
      (List.range 8).any fun k => !s.preemptable p k && !(s.queueCands p k).isEmpty
    let fits := l || match (s.txq p q).frames with | f :: _ => Nat.ble (sent + remain) (max 60 f.flen + 4) | [] => false
    if s.preemptable p q && reason && fits && Nat.ble (64 * (1 + s.fld (ETH_PRE_CFG p) ETH_PRE_CFG_ADDFRAG)) sent &&
        Nat.ble 64 remain && (s.port p).frag.isNone then
      let s := if l then s else s.updHead p q fun f => { f with status := f.status ||| 64 }
      (s.updPort p fun x => { x with wire := none, frag := some (q, l) }).countSat (ETH_TXFRAG p) 1
    else s

/-- PREEMPTION (R292). -/
def execPreemption (p : Fin 6) (sent remain : Nat) (s : State) : Host.Outcome State Fault Refusal :=
  .next (preemption p sent remain s)

/-- A cut-through frame on the wire misses a byte: it ends with an inverted FCS after `sent` bytes, and THR rises (R287). -/
def txUnderrun (p sent : Nat) (s : State) : State :=
  match (s.port p).wire with
  | some (q, false) =>
    match (s.txq p q).frames with
    | f :: _ =>
      if s.cutThrough p q f then
        let c := ETH_TXQ_CFG p q
        let s := s.updHead p q fun f => { f with st := 2, status := f.status ||| word (stUNDERRUN + 128) }
        let s := s.updPort p fun x => { x with wire := none, last := withFcs ((f.data.getD []).take sent) true }
        (s.setFld c ETH_TXQ_CFG_THR (min 144 (s.fld c ETH_TXQ_CFG_THR + 1))).countSat (ETH_TXUNDR p) 1
      else s
    | [] => s
  | _ => s

/-- TX_UNDERRUN (R287). -/
def execTxUnderrun (p : Fin 6) (sent : Nat) (s : State) : Host.Outcome State Fault Refusal := .next (txUnderrun p sent s)

/-- A frame with good FCS has been sent (R308). -/
def State.sentGood (s : State) (p : Nat) (bytes : List Byte) : State :=
  ((s.count (ETH_TXOK p) 1).count (ETH_TXOCT p) bytes.length).updPort p fun x => { x with last := bytes }

/-- Writes words to a data mover's memory, up to the first failure. -/
def State.moverWords (s : State) (i : Init) : List (Nat × Word) → Bool × State
  | [] => (true, s)
  | (a, w) :: t =>
    match s.moverWrite i a (toBytes w.toNat 4) with
    | (none, s) => State.moverWords s i t
    | (some _, s) => (false, s)

/-- The write-back of an ended frame at the head of queue `q` (R279, R282): EOF descriptor first, then the others; HEAD moves
past it. -/
def State.writeBack (s : State) (p q : Nat) (f : TxFrame) : State :=
  let b := ETH_TXQ_CFG p q
  let e := s.ringAddr b (f.sof + f.n - 1)
  let ws := [(e, f.ts), (e + 8, f.status), (e + 28, (0x40000000 : Word))] ++
    (List.range (f.n - 1)).map fun k => (s.ringAddr b (f.sof + k) + 28, (0x40000000 : Word))
  let (ok, s) := s.moverWords (ethMover p) ws
  let s := s.setReg (b + 0xC) (word ((s.ringHead b + f.n) % s.ringLen b))
  let s := s.updTxq p q fun x => { x with frames := x.frames.drop 1 }
  let s := s.takeLaunch p q
  if ok then (if !s.flag b ETH_TXQ_CFG_EVMODE || f.w3.getLsbD 2 then s.queueEvent b else s)
  else s.ringError p b 2 (ETH_TXBUSERR p) e

/-- The oldest frame of queue `q` is finished (R279): the one on the wire ends with its good FCS; an ended ring frame is written
back; a lane frame whose end the lane has handed over has been sent. -/
def txWriteback (p q : Nat) (s : State) : State :=
  if (s.port p).wire = some (q, true) then
    let l := egressLane p
    match (s.lane l).out with
    | [] => s
    | (d, inv) :: t =>
      let s := (s.updLane l fun x => { x with out := t }).updPort p fun x => { x with wire := none }
      let w := withFcs d inv
      if inv then s.updPort p fun x => { x with last := w } else s.sentGood p w
  else
    match (s.txq p q).frames with
    | [] => s
    | f :: _ =>
      if f.st = 2 then s.writeBack p q f
      else if f.st = 1 && decide ((s.port p).wire = some (q, false)) then
        ((s.updPort p fun x => { x with wire := none }).sentGood p (withFcs (f.data.getD []) false)).writeBack p q f
      else s

/-- TX_WRITEBACK (R279). -/
def execTxWriteback (p : Fin 6) (q : Fin 8) (s : State) : Host.Outcome State Fault Refusal := .next (txWriteback p q s)

/-- Whether ring index `k` lies from HEAD to TAIL - 1. -/
def State.inRing (s : State) (b k : Nat) : Bool :=
  let n := s.ringLen b
  Nat.blt k n && Nat.blt ((k + n - s.ringHead b) % n) ((s.ringTail b + n - s.ringHead b) % n)

/-- A write of CANCEL (R297). -/
def txCancel (p q : Nat) (v : Word) (s : State) : State :=
  let b := ETH_TXQ_CFG p q
  let k := v.toNat % 4096
  let res (s : State) (c : Nat) : State := s.setReg (ETH_TXQ_CSTAT p q) (word c)
  if !v.getLsbD 31 then s
  else if !s.inRing b k then res s 3
  else
    let n := s.ringLen b
    match (s.txq p q).frames.find? (fun f => Nat.blt ((k + n - f.sof) % n) f.n) with
    | some f =>
      if f.sof != k then res s 3
      else if f.st = 0 then
        let cut (g : TxFrame) : TxFrame := if g.sof = k then g.endUnsent stCANCELLED (s.stampClk p) else g
        res ((s.updTxq p q fun x => { x with frames := x.frames.map cut }).countSat (ETH_TXCXL p) 1) 1
      else res s 2
    | none =>
      match s.moverRead (ethMover p) (s.ringAddr b k) 32 with
      | (d, none, s) =>
        if (descWord d 1).getLsbD 14 then
          res (s.updTxq p q fun x => { x with cancels := if x.cancels.contains k then x.cancels else k :: x.cancels }) 1
        else res s 3
      | (_, some _, s) => res s 3

/-- TX_CANCEL (R297). -/
def execTxCancel (i : Init) (p : Fin 6) (q : Fin 8) (v : Word) (s : State) : Host.Outcome State Fault Refusal :=
  .next (s.gate i (ETH_TXQ_CANCEL p q) fun (s : State) => (txCancel p q v s).answer .ok)

/-! ### Reception (R280, R281, R298, R302, R303, R306, R307) -/

/-- Receive descriptors taken for `n` bytes: index, address of the buffer and its size; why it ended otherwise. -/
def State.takeRx (s : State) (p b : Nat) : Nat → Nat → Nat → List (Nat × Nat × Nat) → List (Nat × Nat × Nat) × Fetched × State
  | 0, _, _, acc => (acc, .starved, s)
  | fuel + 1, k, n, acc =>
    if n = 0 then (acc, .whole, s)
    else if k % s.ringLen b = s.ringTail b then (acc, .starved, s)
    else
      let a := s.ringAddr b k
      match s.moverRead (ethMover p) a 32 with
      | (_, some _, s) => (acc, .busError a, s)
      | (d, none, s) =>
        let ba := (descWord d 0).toNat
        let sz := (descWord d 1).toNat
        let ok := (descWord d 7).getLsbD 31 && ba % 32 == 0 && sz % 64 == 0 && Nat.ble 256 sz && Nat.ble sz 9216 &&
          (List.range 5).all fun j => descWord d (2 + j) == 0
        if !ok then (acc, .notOwned, s) else State.takeRx s p b fuel (k + 1) (n - sz) (acc ++ [(k, ba, sz)])

/-- What the write-back says of a received frame, in words 0, 2 and 3 (R280). -/
structure RxMeta where
  ts : Word
  w2 : Word
  w3 : Word
deriving DecidableEq, Repr

/-- The eight words of a receive write-back. -/
def rxWords (m : RxMeta) (first last : Bool) (blen flen : Nat) : List Word :=
  [if first || last then m.ts else 0,
    word (blen + bit first * 2 ^ 14 + bit last * 2 ^ 15 + (if last then flen * 2 ^ 16 else 0)), m.w2, m.w3, 0, 0, 0, 0x40000000]

/-- Stores a frame into its buffers: the address of the first error. -/
def State.storeRx (s : State) (p : Nat) : List (Nat × Nat × Nat) → List Byte → Option Nat × State
  | [], _ => (none, s)
  | (_, a, n) :: t, d =>
    match s.moverWrite (ethMover p) a (d.take n) with
    | (some _, s) => (some a, s)
    | (none, s) => State.storeRx s p t (d.drop n)

/-- Writes back the descriptors of a frame. -/
def State.backRx (s : State) (p b : Nat) (m : RxMeta) (flen : Nat) : Bool → Nat → List (Nat × Nat × Nat) → Option Nat × State
  | _, _, [] => (none, s)
  | first, rest, (k, _, n) :: t =>
    let a := s.ringAddr b k
    match s.moverWrite (ethMover p) a ((rxWords m first t.isEmpty (min n rest) flen).flatMap fun w => toBytes w.toNat 4) with
    | (some _, s) => (some a, s)
    | (none, s) => State.backRx s p b m flen false (rest - n) t

/-- A checked frame is written to receive queue `r`, or dropped and counted in RXNOBUF (R281-R283). -/
def State.rxToQueue (s : State) (p r : Nat) (m : RxMeta) (bs : List Byte) : State :=
  let b := ETH_RXQ_CFG p r
  let drop (s : State) : State := s.countSat (ETH_RXNOBUF p) 1
  if !s.flag b ETH_TXQ_CFG_EN || s.flag (b + 0x14) ETH_TXQ_STAT_ERR then drop s
  else
    match s.takeRx p b 40 (s.ringHead b) bs.length [] with
    | (_, .starved, s) => drop s
    | (_, .notOwned, s) => drop (s.ringError p b 3 0 0)
    | (_, .busError a, s) => s.ringError p b 1 (ETH_RXNOBUF p) a
    | (ds, .whole, s) =>
      match s.storeRx p ds bs with
      | (some a, s) => s.ringError p b 2 (ETH_RXNOBUF p) a
      | (none, s) =>
        match s.backRx p b m bs.length true bs.length ds with
        | (some a, s) => s.ringError p b 2 (ETH_RXNOBUF p) a
        | (none, s) =>
          (s.setReg (b + 0xC) (word ((s.ringHead b + ds.length) % s.ringLen b))).queueEvent b

/-- The write-back words of a frame: stamp, checks, tags, deciding rule (R280, R302). -/
def State.rxMeta (s : State) (p : Nat) (bs : List Byte) (sfd : Int) (pmac : Bool) (rule : Option Nat) : RxMeta :=
  let len := bs.length - 4
  let d := bs.take len
  let o := typeOfs d + 2
  let et := be16 d (typeOfs d)
  let ip := if et = 0x0800 then ipv4At d o len else if et = 0x86DD then ipv6At d o len else none
  let ipcs := if et = 0x0800 then ipcsOf d o len else 0
  let l4 := match ip with | some i => l4csOf d o i | none => 0
  let frag := match ip with | some i => i.fragment | none => false
  let c := s.reg (ETH_CORR p (s.fld (ETH_STAT p) ETH_STAT_SPEED))
  let t := sfd - signedOf (ETH_CORR_ING.get c) 16
  let tagged := tagCount d != 0
  ⟨t32Of (t.toNat * 65536),
    word (s.stampClk p + ipcs * 4 + l4 * 16 + bit (et == 0x86DD) * 64 + bit frag * 128 + bit tagged * 256 +
      pcpOf d (s.fld (ETH_RXCFG p) ETH_RXCFG_DEFPCP) * 512 + rule.getD 0 * 4096 + bit rule.isNone * 131072 + bit pmac * 262144),
    word (et + (if tagged then be16 d 14 * 65536 else 0))⟩

/-- The lowest-numbered rule that decides a frame (R307). -/
def State.rxRule (s : State) (p : Nat) (bs : List Byte) : Option Nat :=
  (List.range 32).find? fun k =>
    ruleMatch (fun w => s.reg (ETH_RULE p k w)) bs bs.length (s.fld (ETH_RXCFG p) ETH_RXCFG_DEFPCP)

/-- The rest of a frame for the lane of ingress port `p`: what LANE_INGRESS_FRAME has not delivered of it (R179). -/
def State.rxToLane (s : State) (p : Nat) (bs : List Byte) (err : Nat) : State :=
  let x := s.lane p
  let d := bs.take (bs.length - 4)
  if x.inFrame then laneIngressFrame p false true (d.drop x.inBytes) err s else laneIngressFrame p true true d err s

/-- How a frame that no QUEUE or DROP rule takes goes on: to the active lane, or dropped by NOENG, or to queue `r` (R179, R306). -/
inductive RxWay where
  | lane
  | queue (r : Nat)
  | laneDrop
  | drop
deriving DecidableEq, Repr

/-- The way of a classified frame (R306, R307). -/
def State.rxWay (s : State) (p : Nat) (rule : Option Nat) : RxWay :=
  let dflt (r : Nat) : RxWay :=
    if s.laneState p = 1 then .lane
    else if s.flag (ETH_LANE_CTL p) ETH_LANE_CTL_NOENG then .laneDrop
    else .queue r
  match rule with
  | some k =>
    let w := (s.reg (ETH_RULE p k 0)).toNat
    match bitsOf w 8 2 with
    | 0 => .queue (bitsOf w 10 2)
    | 1 => dflt (bitsOf w 10 2)
    | _ => .drop
  | none => if s.flag (ETH_RXCFG p) ETH_RXCFG_MISS then .drop else dflt (s.fld (ETH_RXCFG p) ETH_RXCFG_DEFQ)

/-- A good frame counts (R308). -/
def State.rxGood (s : State) (p n : Nat) : State := (s.count (ETH_RXOK p) 1).count (ETH_RXOCT p) n

/-- A frame received on port `p` (R306): its bytes from destination address through FCS, its Clause 99 kind (0 express, 1
reassembled, 2 verify, 3 respond, 4 assembly error), whether it had an alignment or symbol error, whether it found the receive
FIFO full, and the raw SFD stamp in ns of the stamp clock. -/
def rxFrame (p kind : Nat) (bs : List Byte) (aln full : Bool) (sfd : Int) (s : State) : State :=
  if !s.flag (ETH_CTL p) ETH_CTL_EN || !s.flag (ETH_STAT p) ETH_STAT_LINK then s
  else if kind = 2 then s
  else if kind = 3 then s.verified p
  else if kind = 4 then s.countSat (ETH_RXASMERR p) 1
  else if be16 bs 12 = 0x8808 then
    if be16 bs 0 = 0x0180 && be16 bs 2 = 0xC200 && be16 bs 4 = 0x0001 && be16 bs 14 = 1 && fcsGood bs && !aln then
      s.pause p (be16 bs 16)
    else s.countSat (ETH_RXCTLX p) 1
  else
    let rule := s.rxRule p bs
    let way := s.rxWay p rule
    let bad := aln || !fcsGood bs
    let s' := if way = .lane then s
      else if aln then s.countSat (ETH_RXALN p) 1
      else if bad then s.countSat (ETH_RXFCS p) 1
      else if bs.length < 64 then s.countSat (ETH_RXRUNT p) 1
      else s.rxGood p bs.length
    if way = .lane then s'.rxToLane p bs (if aln then 2 else if bad then 1 else 0)
    else if bad || bs.length < 64 then s'
    else
      let mx := let n := s.fld (ETH_RXCFG p) ETH_RXCFG_MAXFRM; if n < 64 || 9216 < n then 9216 else n
      if mx < bs.length then s.countSat (ETH_RXOVS p) 1
      else if full then s'.countSat (ETH_RXOVF p) 1
      else
        match way with
        | .queue r => s'.rxToQueue p r (s.rxMeta p bs sfd (kind == 1) rule) bs
        | .laneDrop => s'.countSat (ETH_LANE_DROP p) 1
        | _ => s'.countSat (ETH_RXCLSD p) 1

/-- RX_FRAME (R306). -/
def execRxFrame (p : Fin 6) (kind : Fin 5) (bs : List Byte) (aln full : Bool) (sfd : Int) (s : State) :
    Host.Outcome State Fault Refusal := .next (rxFrame p kind bs aln full sfd s)

/-! ### Registers (R272, R274, R284, R285, R307, R308) -/

/-- A write in the window of port `p` at offset `o`. -/
def ethPortWrite (p o : Nat) (v : Word) (s : State) : State :=
  let a := 0x60080000 + 0x1000 * p + o
  if o = 0 then ethCtlWrite p v s
  else if Nat.ble 0x200 o && Nat.blt o 0x500 then
    let b := a / 0x40 * 0x40
    let r := o % 0x40
    let tx := Nat.blt o 0x400
    let quiet := if tx then s.txQuiet p (o / 0x40 - 8) else s.rxQuiet p (o / 0x40 - 16)
    if r = 0 then s.plainWrite quiet a (s.keepFld a ETH_TXQ_CFG_DBAGENT (fun n => Nat.ble 36 n) v)
    else if r = 4 || r = 8 then ringConfig b r v s
    else if r = 0x10 then ringTailWrite b v s
    else if r = 0x1C && tx then (txCancel p (o / 0x40 - 8) v s).answer .ok
    else s.plainWrite quiet a v
  else if o = 0x500 then (s.setGates p (v.toNat % 256)).answer .ok
  else if o = 0x504 then
    let was := s.reg a
    let s := s.plainWrite (s.portQuiet p) a v
    if (was ^^^ s.reg a) &&& 3 = 0 then s else (s.verifyRestart p)
  else if Nat.ble 0x600 o && Nat.blt o 0x800 then
    let r := a / 0x10 * 0x10
    if o % 0x10 = 0 then (s.setReg a (s.keepFld a ⟨8, 2⟩ (fun n => n == 3) v &&& 0xFFFF0FFF)).answer .ok
    else
      let v := if o % 0x10 = 8 then v &&& 0xFF3FFFFF else v
      if (s.reg r).getLsbD 0 then s.answer (if v = s.reg a then .ok else .busError) else (s.setReg a v).answer .ok
  else if Nat.ble 0xC00 o && Nat.blt o 0xD00 then aliasWrite p ((o - 0xC00) / 0x40) (o % 0x40) v s
  else s.plainWrite (s.portQuiet p) a v

/-- A read in the window of port `p` at offset `o`. -/
def ethPortRead (rpn p : Nat) (events : Word) (o : Nat) (s : State) : State :=
  let a := 0x60080000 + 0x1000 * p + o
  if o = 4 then s.answerWord (s.ethStat p)
  else if Nat.ble 0x200 o && Nat.blt o 0x400 && o % 0x40 == 0x14 then s.answerWord (s.txqStat p (o / 0x40 - 8))
  else if Nat.ble 0xC00 o && Nat.blt o 0xD00 then almRead rpn events (0x60040100 + (o - 0xC00)) s
  else s.plainRead events a

/-- A write in the Ethernet block. -/
def ethWrite (i : Init) (a : Nat) (v : Word) (s : State) : State :=
  let o := a - 0x60080000
  if o < 0x6000 then ethPortWrite (o / 0x1000) (o % 0x1000) v s
  else if a = ETH_COM_CTL then (if v.getLsbD 0 then ethBlockReset s else s).answer .ok
  else if a = ETH_COM_SVC then
    let busy := (List.range 6).foldl (fun n p => if s.portQuiet p then n else n + 2 ^ p) 0
    let old := s.reg a
    let d := (old ^^^ v) &&& 0x3F
    (s.setReg a (old ^^^ (d &&& ~~~(word busy)))).answer (if d &&& word busy = 0 then .ok else .busError)
  else if a = ETH_COM_MDIO_CTL || a = ETH_COM_MDIO_DATA then mdioWrite a v s
  else if Nat.ble 0x8400 o && Nat.blt o 0x8580 then laneWrite i ((o - 0x8400) / 0x40) (o % 0x40) v s
  else s.plainWrite true a v

/-- A read in the Ethernet block. -/
def ethRead (i : Init) (rpn : Nat) (events : Word) (a : Nat) (s : State) : State :=
  let o := a - 0x60080000
  if o < 0x6000 then ethPortRead rpn (o / 0x1000) events (o % 0x1000) s
  else if Nat.ble 0x8400 o && Nat.blt o 0x8580 then laneRead i events ((o - 0x8400) / 0x40) (o % 0x40) s
  else s.plainRead events a

end Sys2Proof.Machine
end

