-- ==== Sys2Proof/Machine/Mapper.lean ====
section
/-! DEFINITION. The Signal Mapper: table sets, entries and the exact value transform, triggers, list runs, registers
(R431-R446).
Choices of the model: log entries 81. -/

set_option autoImplicit false

namespace Sys2Proof.Machine

open Sys2Proof

/-! ### List descriptors (R434) -/

/-- The base of the table set with selection `sel`. -/
def State.tbase (s : State) (sel : Nat) : Nat := (s.reg (if sel = 0 then SGM_TBASE0 else SGM_TBASE1)).toNat

/-- A used buffer of a descriptor: address, payload bytes, kind, and for a destination ZINIT and the CAN buffer. -/
structure MapBuf where
  addr : Nat
  size : Nat
  kind : Nat
  zinit : Bool
  canc : Nat
  canb : Nat
deriving DecidableEq, Repr

/-- A list descriptor: enable, entries, completion doorbell, chain, buffers. -/
structure MapList where
  en : Bool
  first : Nat
  count : Nat
  w1 : Nat
  srcs : List MapBuf
  dsts : List MapBuf
deriving DecidableEq, Repr

/-- Word `k` of a descriptor, entry or table read as bytes. -/
def wordAt (l : List Byte) (k : Nat) : Nat := ofBytes ((l.drop (4 * k)).take 4)

/-- The descriptor that 128 bytes spell. -/
def listOf (l : List Byte) : MapList :=
  let w (k : Nat) : Nat := wordAt l k
  { en := (w 0).testBit 0
    first := bitsOf (w 0) 1 12
    count := bitsOf (w 0) 13 13
    w1 := w 1
    srcs := (List.range 4).map fun j => ⟨w (4 + 2 * j), bitsOf (w (5 + 2 * j)) 0 11, bitsOf (w (5 + 2 * j)) 11 2, false, 0, 0⟩
    dsts := (List.range 4).map fun j =>
      let c := w (13 + 2 * j)
      ⟨w (12 + 2 * j), bitsOf c 0 11, bitsOf c 11 2, c.testBit 13, bitsOf c 14 2, bitsOf c 16 5⟩ }

/-- Whether the reserved words and bits of a descriptor are 0. -/
def listClean (l : List Byte) : Bool :=
  wordAt l 0 / 2 ^ 26 == 0 && wordAt l 1 / 2 ^ 21 == 0 && wordAt l 2 == 0 && wordAt l 3 == 0 &&
    ((List.range 12).all fun k => wordAt l (20 + k) == 0) &&
    ((List.range 4).all fun j => wordAt l (5 + 2 * j) / 2 ^ 13 == 0 && wordAt l (13 + 2 * j) / 2 ^ 21 == 0)

/-- Whether an address lies, aligned, in tower SRAM, central SRAM, the exchange region or DRAM. -/
def State.mapAddr (s : State) (a : Nat) : Bool :=
  a % 4 == 0 && match s.region a with
    | .dram => true
    | .central => true
    | .tower => true
    | .exchange => true
    | _ => false

/-- Whether a descriptor is valid (R434). -/
def State.listValid (s : State) (l : List Byte) : Bool :=
  let d := listOf l
  listClean l && Nat.ble (d.first + d.count) 4096 && Nat.ble (d.w1 % 64) 35 &&
    (d.srcs.all fun b => b.size == 0 || (Nat.ble b.size 1024 && Nat.blt b.kind 2 && s.mapAddr b.addr)) &&
    (d.dsts.all fun b => b.size == 0 ||
      (if b.kind = 2 then Nat.ble b.size 64 else Nat.ble b.size 1024 && Nat.blt b.kind 2 && s.mapAddr b.addr))

/-- The address of a buffer's payload. -/
def State.payloadAt (s : State) (b : MapBuf) : Nat :=
  match b.kind with
  | 0 => b.addr
  | 1 => b.addr + 16
  | _ => s.txBuf b.canc b.canb + 16

/-! ### Fields (R435, R436) -/

/-- A field of a payload: bit offset, length, big-endian, type. -/
structure SigFld where
  buf : Nat
  ofs : Nat
  len : Nat
  be : Bool
  type : Nat
deriving DecidableEq, Repr

/-- The source or destination field that word 0 or 1 of an entry describes. -/
def sigFld (w : Nat) : SigFld := ⟨bitsOf w 0 2, bitsOf w 2 13, bitsOf w 15 6 + 1, w.testBit 21, bitsOf w 22 2⟩

/-- Whether a field is good for payloads of the given sizes. -/
def SigFld.ok (f : SigFld) (sizes : List Nat) : Bool :=
  let z := sizes.getD f.buf 0
  z != 0 && Nat.ble (f.ofs + f.len) (8 * z) && f.type != 3 && (f.type != 2 || f.len == 32) &&
    (!f.be || (f.ofs % 8 == 0 && f.len % 8 == 0))

/-- The bits of a field in a payload. -/
def SigFld.read (f : SigFld) (l : List Byte) : Nat :=
  if f.be then ofBytes ((l.drop (f.ofs / 8)).take (f.len / 8)).reverse else bitsOf (ofBytes l) f.ofs f.len

/-- A payload with the bits of a field written. -/
def SigFld.write (f : SigFld) (l : List Byte) (v : Nat) : List Byte :=
  let v := v % 2 ^ f.len
  if f.be then l.take (f.ofs / 8) ++ (toBytes v (f.len / 8)).reverse ++ l.drop (f.ofs / 8 + f.len / 8)
  else
    let n := ofBytes l
    toBytes (n - bitsOf n f.ofs f.len * 2 ^ f.ofs + v * 2 ^ f.ofs) l.length

/-- Whether an entry is valid (R436). -/
def entryValid (l : List Byte) (d : MapList) : Bool :=
  let w (k : Nat) : Nat := wordAt l k
  let src := sigFld (w 0)
  let dst := sigFld (w 1)
  let lut := (w 1).testBit 24
  w 0 / 2 ^ 24 == 0 && w 1 / 2 ^ 31 == 0 && bitsOf (w 3) 5 3 == 0 && w 3 / 2 ^ 13 == 0 && Nat.ble (bitsOf (w 3) 8 5) 23 &&
    w 7 / 2 == 0 && src.ok (d.srcs.map (·.size)) && dst.ok (d.dsts.map (·.size)) &&
    !(lut && (src.type == 2 || dst.type == 2)) && !((w 7).testBit 0 && decide (signedOf (w 6) 32 < signedOf (w 5) 32))

/-! ### The value transform (R437, R438) -/

/-- A source value: a real number, an infinity (negative or not), or a NaN. -/
inductive SigVal where
  | num (x : Rat) | inf (neg : Bool) | nan
deriving DecidableEq, Repr

/-- Two to an integer power. -/
def pow2 (e : Int) : Rat := if 0 ≤ e then (2 ^ e.toNat : Nat) else 1 / ((2 ^ (-e).toNat : Nat) : Rat)

/-- The value of a binary32. -/
def binary32 (w : Nat) : SigVal :=
  let neg := w.testBit 31
  let e := bitsOf w 23 8
  let m := bitsOf w 0 23
  if e = 255 then (if m = 0 then .inf neg else .nan)
  else
    let x : Rat := if e = 0 then (m : Rat) * pow2 (-149) else ((2 ^ 23 + m : Nat) : Rat) * pow2 (e - 150)
    .num (if neg then -x else x)

/-- The source value of a field. -/
def sigValue (f : SigFld) (n : Nat) : SigVal :=
  match f.type with
  | 0 => .num (n : Rat)
  | 1 => .num ((signedOf n f.len : Int) : Rat)
  | _ => binary32 n

/-- Rounding of a rational to an integer, to nearest, ties to even. -/
def roundEven (x : Rat) : Int :=
  let f := x.floor
  let d := x - f
  if d < 1 / 2 then f else if 1 / 2 < d then f + 1 else if f % 2 = 0 then f else f + 1

/-- The binary32 nearest to a rational, ties to even. -/
def toBinary32 (x : Rat) : Nat :=
  let neg := decide (x < 0)
  let y := if neg then -x else x
  if y = 0 then 0
  else
    let l : Int := (y.num.toNat.log2 : Int) - y.den.log2
    let e := if y < pow2 l then l - 1 else l
    let q := max (-149) (e - 23)
    let m := (roundEven (y / pow2 q)).toNat
    let bits := if q = -149 then m else ((q + 149).toNat) * 2 ^ 23 + m
    bit neg * 2 ^ 31 + min bits 0x7F800000

/-- An integer clamped to limits, and whether the clamp changed it. -/
def clampI (lo hi x : Int) : Int × Nat := if x < lo then (lo, 1) else if hi < x then (hi, 1) else (x, 0)

/-- The limits of an integer field. -/
def fldMin (f : SigFld) : Int := if f.type = 1 then -(2 ^ (f.len - 1) : Nat) else 0
def fldMax (f : SigFld) : Int := if f.type = 1 then ((2 ^ (f.len - 1) : Nat) : Int) - 1 else ((2 ^ f.len : Nat) : Int) - 1

/-- The lookup of R438: the point and its neighbour are `t0`, `t1` of the table. -/
def lookup (t : Nat → Int) (lsh : Nat) (u : Int) : Int :=
  let k := (u / (2 ^ lsh : Nat)).toNat
  let f := u % (2 ^ lsh : Nat)
  if k < 255 then t k + (t (k + 1) - t k) * f / (2 ^ lsh : Nat) else t 255

/-- What an entry writes (R437): the bits, the number of clamps and saturations, and whether the entry's SGM_SAT bit is set. `t`
is the lookup table; an infinity scaled by 0 has no value in the spec: the number `open_` stands for it. -/
def transform (l : List Byte) (dst : SigFld) (v : SigVal) (t : Nat → Int) (open_ : Int) : Nat × Nat × Bool :=
  let w (k : Nat) : Nat := wordAt l k
  let mul := signedOf (w 2) 32
  let clamp := (w 7).testBit 0
  let lo := signedOf (w 5) 32
  let hi := signedOf (w 6) 32
  let v : SigVal := match v with
    | .inf neg => if mul = 0 then .num (open_ : Rat) else .inf (neg != decide (mul < 0))
    | v => v
  match v with
  | .nan => (if dst.type = 2 then 0x7FC00000 else 0, 0, true)
  | .inf neg =>
    if dst.type = 2 then
      if clamp then (toBinary32 ((if neg then lo else hi : Int) : Rat), 1, true) else (if neg then 0xFF800000 else 0x7F800000, 0, false)
    else
      let lim : Int := if neg then fldMin dst else fldMax dst
      let (r, c) := if clamp then clampI (fldMin dst) (fldMax dst) (if neg then lo else hi) else (lim, 0)
      (((r.emod (2 ^ dst.len : Nat))).toNat, 1 + c, true)
  | .num v =>
    let x := v * (mul : Rat) / ((2 ^ bitsOf (w 3) 0 5 : Nat) : Rat) + ((signedOf (w 4) 32 : Int) : Rat)
    if dst.type = 2 then
      if clamp && decide (x < (lo : Rat)) then (toBinary32 (lo : Rat), 1, true)
      else if clamp && decide ((hi : Rat) < x) then (toBinary32 (hi : Rat), 1, true)
      else (toBinary32 x, 0, false)
    else
      let r := (x + 1 / 2).floor
      let (r, c1) := if (w 1).testBit 24 then
          let lsh := bitsOf (w 3) 8 5
          let (u, c) := clampI 0 (255 * (2 ^ lsh : Nat)) r
          (lookup t lsh u, c)
        else (r, 0)
      let (r, c2) := if clamp then clampI lo hi r else (r, 0)
      let (r, c3) := clampI (fldMin dst) (fldMax dst) r
      ((r.emod (2 ^ dst.len : Nat)).toNat, c1 + c2 + c3, c1 + c2 + c3 != 0)

/-! ### Runs (R440-R443) -/

/-- The last error of the mapper. -/
def State.sgmErr (s : State) (list entry code : Nat) : State :=
  s.setReg SGM_ERR (word (entry + list * 2 ^ 12 + code * 2 ^ 20))

/-- A run aborts (R441): counted, recorded, and the doorbell of SGM_EVT rings. -/
def State.sgmAbort (s : State) (list entry code : Nat) : State :=
  ((s.countSat SGM_ABORT 1).sgmErr list entry code).ringEvt SGM_EVT

/-- An error of a mover access is reported to Vigil (R443). -/
def State.sgmReport (s : State) (a : Nat) : State := s.report 15 (resId 14 0) a 44

/-- A mapper read: the bytes, or none on an error, which is reported. -/
def State.sgmRead (s : State) (a n : Nat) : Option (List Byte) × State :=
  match s.moverRead .mapper a n with
  | (l, none, s) => (some l, s)
  | (_, some _, s) => (none, s.sgmReport a)

/-- A mapper write: whether it succeeded. -/
def State.sgmWriteMem (s : State) (a : Nat) (d : List Byte) : Bool × State :=
  match s.moverWrite .mapper a d with
  | (none, s) => (true, s)
  | (some _, s) => (false, s.sgmReport a)

/-- The snapshots of the sources (R441): a GEN source with an odd GEN stays inconsistent (code 3); an access error is code 5. -/
def State.snapshots (s : State) : List MapBuf → Except Nat (List (List Byte)) × State
  | [] => (.ok [], s)
  | b :: t =>
    if b.size = 0 then
      match State.snapshots s t with
      | (.ok l, s) => (.ok ([] :: l), s)
      | e => e
    else
      let (g, s) := if b.kind = 1 then s.sgmRead b.addr 4 else (some [], s)
      match g with
      | none => (.error 5, s)
      | some g =>
        if ofBytes g % 2 = 1 then (.error 3, s)
        else match s.sgmRead (s.payloadAt b) b.size with
          | (none, s) => (.error 5, s)
          | (some d, s) => match State.snapshots s t with
            | (.ok l, s) => (.ok (d :: l), s)
            | e => e

/-- The destination shadows (R441). -/
def State.shadows (s : State) : List MapBuf → Option (List (List Byte)) × State
  | [] => (some [], s)
  | b :: t =>
    let (d, s) := if b.size = 0 then (some [], s)
      else if b.zinit then (some (List.replicate b.size 0), s)
      else s.sgmRead (s.payloadAt b) b.size
    match d with
    | none => (none, s)
    | some d => match State.shadows s t with
      | (some l, s) => (some (d :: l), s)
      | e => e

/-- One entry against the snapshots and shadows (R436-R438): the shadows after it, or none on a table error. -/
def State.runEntry (s : State) (base list k : Nat) (d : MapList) (srcs sh : List (List Byte)) :
    Option (List (List Byte)) × State :=
  match s.sgmRead (base + 0x8000 + 32 * k) 32 with
  | (none, s) => (none, s)
  | (some l, s) =>
    if !entryValid l d then (some sh, (s.countSat SGM_SKIPENT 1).sgmErr list k 2)
    else
      let src := sigFld (wordAt l 0)
      let dst := sigFld (wordAt l 1)
      let (tab, s) := if (wordAt l 1).testBit 24 then s.sgmRead (base + 0x28000 + 0x400 * bitsOf (wordAt l 1) 25 6) 1024
        else (some [], s)
      match tab with
      | none => (none, s)
      | some tab =>
        let (f, s) := s.free
        let (v, n, flag) := transform l dst (sigValue src (src.read (srcs.getD src.buf []))) (fun k => signedOf (wordAt tab k) 32)
          (signedOf f.toNat 32)
        let s := (s.count SGM_ENTS 1).countSat SGM_SATCNT n
        let s := if flag then s.setReg (SGM_SAT (k / 32)) (s.reg (SGM_SAT (k / 32)) ||| word (2 ^ (k % 32))) else s
        (some (sh.set dst.buf (dst.write (sh.getD dst.buf []) v)), s)

/-- The entries from `k` on, `n` of them: the shadows after them, or the entry whose table read failed. -/
def State.runEntries (s : State) (base list : Nat) (d : MapList) (srcs : List (List Byte)) (k : Nat) :
    Nat → List (List Byte) → Except Nat (List (List Byte)) × State
  | 0, sh => (.ok sh, s)
  | n + 1, sh =>
    match s.runEntry base list k d srcs sh with
    | (none, s) => (.error k, s)
    | (some sh, s) => State.runEntries s base list d srcs (k + 1) n sh

/-- The commit of one destination (R442): whether the run goes on. -/
def State.commit (s : State) (list : Nat) (b : MapBuf) (d : List Byte) : Bool × State :=
  match b.kind with
  | 0 => s.sgmWriteMem b.addr d
  | 1 =>
    match s.sgmRead b.addr 4 with
    | (none, s) => (false, s)
    | (some g, s) =>
      let g := ofBytes g
      let o := if g % 2 = 0 then g + 1 else g
      match s.sgmWriteMem b.addr (toBytes o 4) with
      | (false, s) => (false, s)
      | (true, s) => match s.sgmWriteMem (b.addr + 16) d with
        | (false, s) => (false, s)
        | (true, s) => s.sgmWriteMem b.addr (toBytes (o + 1) 4)
  | _ =>
    if (s.reg (CAN_TXGO b.canc)).getLsbD b.canb || (s.reg (CAN_TXSTOP b.canc)).getLsbD b.canb then
      (true, (s.countSat SGM_DBUSY 1).sgmErr list 0 7)
    else match s.sgmWriteMem (s.txBuf b.canc b.canb + 16) d with
      | (false, s) => (false, s)
      | (true, s) => (true, s.txRequest b.canc b.canb)

/-- The commits of the used destinations in order, up to the first error. -/
def State.commits (s : State) (list : Nat) : List (MapBuf × List Byte) → Bool × State
  | [] => (true, s)
  | (b, d) :: t =>
    if b.size = 0 then State.commits s list t
    else match s.commit list b d with
      | (false, s) => (false, s)
      | (true, s) => State.commits s list t

/-- A run of list `n` with the set that is active (R441). -/
def State.runList (s : State) (n : Nat) : State :=
  let base := s.tbase (s.fld SGM_STAT SGM_STAT_SEL)
  match s.sgmRead (base + 128 * n) 128 with
  | (none, s) => s.sgmAbort n 0 4
  | (some l, s) =>
    let d := listOf l
    if !d.en then (s.countSat SGM_DISTRIG 1).count SGM_RUNS 1
    else if !s.listValid l then s.sgmAbort n 0 1
    else match s.snapshots d.srcs with
      | (.error c, s) => s.sgmAbort n 0 c
      | (.ok srcs, s) => match s.shadows d.dsts with
        | (none, s) => s.sgmAbort n 0 5
        | (some sh, s) => match s.runEntries base n d srcs d.first d.count sh with
          | (.error k, s) => s.sgmAbort n k 4
          | (.ok sh, s) => match s.commits n (d.dsts.zip sh) with
            | (false, s) => s.sgmAbort n 0 6
            | (true, s) =>
              let s := s.count SGM_RUNS 1
              let s := s.ringIf (d.w1.testBit 11) (bitsOf d.w1 0 6) (bitsOf d.w1 6 5)
              if d.w1.testBit 12 then s.trigger (bitsOf d.w1 13 8) else s

/-! ### Swap, triggers, reset (R432, R439, R440, R445) -/

/-- A pending swap takes effect. -/
def sgmSwapEffect (s : State) : State :=
  if s.flag SGM_STAT SGM_STAT_SWPEND then
    let s := s.setFld SGM_STAT SGM_STAT_SEL (1 - s.fld SGM_STAT SGM_STAT_SEL)
    ((s.setFlag SGM_STAT SGM_STAT_SWPEND false).setFlag SGM_CTL SGM_CTL_SWAP false).ringEvt SGM_EVT
  else s

/-- The mapper runs the list at the head of the run order; a pending swap takes effect before the run starts. -/
def listRun (s : State) : State :=
  match s.sgmOrder with
  | [] => s
  | n :: t => if s.flag SGM_CTL SGM_CTL_EN then ({ sgmSwapEffect s with sgmOrder := t }).runList n else s

/-- LIST_RUN (R441). -/
def execListRun (s : State) : Host.Outcome State Fault Refusal := .next (listRun s)

/-- SGM_SWAP_EFFECT (R432). -/
def execSgmSwapEffect (s : State) : Host.Outcome State Fault Refusal := .next (sgmSwapEffect s)

/-- The mapper partial reset (R445). -/
def sgmReset (s : State) : State :=
  let s := sgmSwapEffect s
  let s := s.resetRegs fun a => a == SGM_ERR || (Nat.ble SGM_RUNS a && Nat.ble a SGM_DISTRIG) ||
    (Nat.ble (SGM_SAT 0) a && Nat.ble a (SGM_SAT 127))
  { (s.setFlag SGM_CTL SGM_CTL_EN false) with sgmOrder := [] }

/-- A write of SGM_CTL. -/
def sgmCtlWrite (v : Word) (s : State) : State :=
  (if v.getLsbD 2 then sgmReset s
   else
     let s := s.setFlag SGM_CTL SGM_CTL_EN (v.getLsbD 0)
     if v.getLsbD 1 then (s.setFlag SGM_STAT SGM_STAT_SWPEND true).setFlag SGM_CTL SGM_CTL_SWAP true else s).answer .ok

/-- SGM_SWAP (R432): a write of SGM_CTL with SWAP 1, EN as it stands. -/
def execSgmSwap (i : Init) (s : State) : Host.Outcome State Fault Refusal :=
  .next (s.gate i SGM_CTL fun (s : State) => sgmCtlWrite ((s.reg SGM_CTL &&& 1) ||| 2) s)

/-- SGM_BLKRST (R445). -/
def execSgmBlkrst (i : Init) (s : State) : Host.Outcome State Fault Refusal :=
  .next (s.gate i SGM_CTL (sgmCtlWrite 4))

/-- SGM_TRIG (R439). -/
def execSgmTrig (i : Init) (v : Word) (s : State) : Host.Outcome State Fault Refusal :=
  .next (s.gate i SGM_TRIG fun (s : State) => (s.trigger (v.toNat % 256)).answer .ok)

/-- A write of bytes at `a`, in the exchange region's trigger area where it triggers lists (R439). -/
def triggerAreaWrite (i : Init) (a : Nat) (d : List Byte) (s : State) : State :=
  if s.boot.held || s.hostClosed i a then (s.answer .busError).reported i a
  else
    let (r, s) := s.memAccess i (.write a d)
    (s.answer r).reported i a

/-- TRIGGER_AREA_WRITE (R439): a write of any size to the exchange region, which triggers the lists of the trigger-area words it
reaches. -/
def execTriggerAreaWrite (i : Init) (a : Nat) (d : List Byte) (s : State) : Host.Outcome State Fault Refusal :=
  .next (triggerAreaWrite i a d s)

/-! ### Registers (R433, R446) -/

/-- Whether the block is quiescent: EN 0, and no run in progress between steps. -/
def State.sgmQuiet (s : State) : Bool := !s.flag SGM_CTL SGM_CTL_EN

/-- A write of SGM_TBASEx (R433): quiescent while the set is neither active nor the target of a pending swap, or the block is. -/
def tbaseWrite (x : Nat) (v : Word) (s : State) : State :=
  let a := if x = 0 then SGM_TBASE0 else SGM_TBASE1
  let quiet := s.sgmQuiet || !(s.fld SGM_STAT SGM_STAT_SEL == x || s.flag SGM_STAT SGM_STAT_SWPEND)
  if !quiet then s.answer (if v = s.reg a then .ok else .busError)
  else if v.toNat % 4096 != 0 || Nat.blt v.toNat 0x40000000 || Nat.blt 0x40400000 (v.toNat + 229376) then
    (s.setFlag SGM_STAT SGM_STAT_CFGERR true).answer .ok
  else ((s.setFlag SGM_STAT SGM_STAT_CFGERR false).setReg a v).answer .ok

/-- A write of SGM_TWBASE (R446). -/
def twbaseWrite (v : Word) (s : State) : State :=
  let v := v &&& 0xFFFFFC01
  if !s.sgmQuiet then s.answer (if v = s.reg SGM_TWBASE then .ok else .busError)
  else if Nat.blt v.toNat 0x4C000000 || Nat.ble 0x4C040000 v.toNat then (s.setFlag SGM_STAT SGM_STAT_CFGERR true).answer .ok
  else ((s.setFlag SGM_STAT SGM_STAT_CFGERR false).setReg SGM_TWBASE v).answer .ok

/-- A write in the SGM block. -/
def sgmWrite (a : Nat) (v : Word) (s : State) : State :=
  if a = SGM_CTL then sgmCtlWrite v s
  else if a = SGM_TBASE0 then tbaseWrite 0 v s
  else if a = SGM_TBASE1 then tbaseWrite 1 v s
  else if a = SGM_TWBASE then twbaseWrite v s
  else if a = SGM_TRIG then (s.trigger (v.toNat % 256)).answer .ok
  else if a = SGM_EVT then s.plainWrite true a (s.keepFld a ⟨0, 6⟩ (fun n => Nat.ble 36 n) v)
  else s.plainWrite s.sgmQuiet a v

/-- A read in the SGM block: the pending bits and their number are computed. -/
def sgmRead (events : Word) (a : Nat) (s : State) : State :=
  if Nat.ble (SGM_PEND 0) a && Nat.ble a (SGM_PEND 7) then
    let k := (a - SGM_PEND 0) / 4
    s.answerWord (word ((List.range 32).foldl (fun v b => v + bit (s.sgmOrder.contains (32 * k + b)) * 2 ^ b) 0))
  else if a = SGM_STAT then s.answerWord (SGM_STAT_NPEND.put (s.reg a) s.sgmOrder.length)
  else if a = SGM_CTL then s.answerWord (s.reg a)
  else s.plainRead events a

end Sys2Proof.Machine
end

