-- ==== Sys2Proof/Machine/MemoryCmds.lean ====
section
/-! DEFINITION. The commands of the memories: error queue, scrubber, bank power, test and retirement, MRAM completion, and the
external DRAM (chapter 14).
Choices of the model: log entries 32, 33, 34. -/

set_option autoImplicit false

namespace Sys2Proof.Machine

open Sys2Proof

/-! ### Error queue (R472) -/

/-- A read of MEM_ERRQ0 removes the oldest entry, returns its information word, and latches its address and stamp for the
reading RPN; an empty queue reads 0. -/
def errorQueueRead (i : Init) (s : State) : State :=
  if !rights i .regs then s.answer .busError
  else
    match s.errq with
    | [] => s.answerWord 0
    | e :: t =>
      { s with errq := t, errLatch := Tbl.set (fun _ => (0, 0)) s.errLatch i.rpn (e.addr, e.stamp) }.answerWord e.info

/-- ERROR_QUEUE_READ (R472). -/
def execErrorQueueRead (i : Init) (s : State) : Host.Outcome State Fault Refusal :=
  .next (s.gate i MEM_ERRQ0 (errorQueueRead i))

/-! ### Scrubber (R473) -/

/-- Whether the scrubber reads the granule at `a`: not in OFF, INIT, TEST or RETIRED banks, retired or uninitialised DRAM,
program stores of ISOLATED engines, or outside the memories. -/
def State.scrubbed (s : State) (a : Nat) : Bool :=
  match s.region a with
  | .tower | .central => Nat.ble (s.bankState (bankOf a)) 2
  | .exchange | .mram => true
  | .prog => (s.eng ((a - 0x50000000) / 0x10000)).st != .isolated
  | .dram => s.blocked a true == none
  | _ => false

/-- The scrubber reads and checks the granule at `addr`, waking a bank in RET; a correction or an uncorrectable error is
queued with SCRUB 1 (R470-R473). -/
def scrubRead (addr : Nat) (us : List Upset) (s : State) : State :=
  let s := s.upset us
  if s.flag MEM_SCRUB_CTL MEM_SCRUB_CTL_EN && s.scrubbed addr then
    let r := s.region addr
    let s := (if r = .tower || r = .central then s.waitTarget addr else s).setFld MEM_SCRUB_STAT MEM_SCRUB_STAT_AREA (memtOf r)
    (s.checkGranule r 47 true (addr / granSize r * granSize r)).2
  else s

/-- SCRUB_READ (R473). -/
def execScrubRead (addr : Nat) (upsets : List Upset) (s : State) : Host.Outcome State Fault Refusal :=
  .next (scrubRead addr upsets s)

/-- A scrub period ends: a pass that has ended counts, one that has not sets LATE (R473). -/
def scrubPassEnd (ended : Bool) (s : State) : State :=
  if !s.flag MEM_SCRUB_CTL MEM_SCRUB_CTL_EN then s
  else if ended then s.count MEM_SCRUB_PASS 1
  else s.setFlag MEM_SCRUB_STAT MEM_SCRUB_STAT_LATE true

/-- SCRUB_PASS_END (R473). -/
def execScrubPassEnd (ended : Bool) (s : State) : Host.Outcome State Fault Refusal := .next (scrubPassEnd ended s)

/-! ### Banks (R476-R480) -/

/-- A write of PWR and AUTORET of bank `k` (R476, R477): the PWR value 3 is reserved and keeps the field; in TEST, INIT and
RETIRED a PWR write is ignored; ON enters RET or OFF, RET enters WAKING, OFF enters INIT. -/
def State.bankPower (s : State) (k : Nat) (v : Word) : State :=
  let st := s.bankState k
  let p := MEM_TB_CTL_PWR.get v
  let s := s.setFld (bankCtl k) MEM_TB_CTL_AUTORET (MEM_TB_CTL_AUTORET.get v)
  if p = 3 || st = 4 || st = 5 || st = 6 then s
  else
    let s := s.setFld (bankCtl k) MEM_TB_CTL_PWR p
    match st, p with
    | 0, 1 => s.setBankState k 1
    | 0, 2 => (s.setBankState k 3).eraseBank k
    | 1, 0 => s.setBankState k 2
    | 3, 0 => s.setBankState k 4
    | _, _ => s

/-- A Keep write of the power request of bank `k`; any other initiator's is a bus error (R488). -/
def bankPowerRequest (i : Init) (k : Nat) (v : Word) (s : State) : State :=
  if i != .keep then s.answer .busError else (s.bankPower k v).answer .ok

/-- BANK_POWER_REQUEST (R476). -/
def execBankPowerRequest (i : Init) (k : Fin 96) (v : Word) (s : State) : Host.Outcome State Fault Refusal :=
  .next (s.gate i (bankCtl k) (bankPowerRequest i k v))

/-- A waking bank is ON after 1.5 us (R476). -/
def bankWakeComplete (k : Nat) (s : State) : State := if s.bankState k = 2 then s.setBankState k 0 else s

/-- BANK_WAKE_COMPLETE (R476). -/
def execBankWakeComplete (k : Fin 96) (s : State) : Host.Outcome State Fault Refusal := .next (bankWakeComplete k s)

/-- Power-up and zeroing end: the bank is ON and reads 0 (R476). -/
def bankInitComplete (k : Nat) (s : State) : State :=
  if s.bankState k = 4 then (s.setBankState k 0).eraseBank k else s

/-- BANK_INIT_COMPLETE (R476). -/
def execBankInitComplete (k : Fin 96) (s : State) : Host.Outcome State Fault Refusal := .next (bankInitComplete k s)

/-- An idle bank in ON with AUTORET enters RET (R477). -/
def autoRetention (k : Nat) (s : State) : State :=
  if s.bankState k = 0 && s.flag (bankCtl k) MEM_TB_CTL_AUTORET then s.setBankState k 1 else s

/-- AUTO_RETENTION (R477). -/
def execAutoRetention (k : Fin 96) (s : State) : Host.Outcome State Fault Refusal := .next (autoRetention k s)

/-- TEST of a bank in ON starts its March C- test; in any other state it is ignored (R479). -/
def State.startBankTest (s : State) (k : Nat) : State :=
  if s.bankState k = 0 then ((s.setBankState k 5).setFlag (bankCtl k) MEM_TB_CTL_TEST true).eraseBank k else s

/-- A Keep write of TEST to bank `k` (R479, R488). -/
def bankTest (i : Init) (k : Nat) (s : State) : State :=
  if i != .keep then s.answer .busError else (s.startBankTest k).answer .ok

/-- BANK_TEST (R479). -/
def execBankTest (i : Init) (k : Fin 96) (s : State) : Host.Outcome State Fault Refusal :=
  .next (s.gate i (bankCtl k) (bankTest i k))

/-- The resource of bank `k`. -/
def bankRes (k : Nat) : Nat := if k < 64 then resId 2 k else resId 3 (k - 64)

/-- A bank test ends: the bank is zeroed and ON, TESTRES is written, a failure is reported (R479). -/
def bankTestComplete (k : Nat) (pass : Bool) (s : State) : State :=
  if s.bankState k = 5 then
    let s := ((s.setBankState k 0).setFlag (bankCtl k) MEM_TB_CTL_TEST false).eraseBank k
    let s := s.setFld (bankStat k) MEM_TB_STAT_TESTRES (if pass then 1 else 2)
    if pass then s else s.report 5 (bankRes k) 0 0
  else s

/-- RETIRE powers bank `k` off into RETIRED: its content is lost, later accesses meet a bus error (R480). -/
def State.retireBank (s : State) (k : Nat) : State :=
  ((s.setFlag (bankCtl k) MEM_TB_CTL_RETIRE true).setBankState k 6).eraseBank k

/-- A Keep write of RETIRE to bank `k` (R480, R488). -/
def bankRetire (i : Init) (k : Nat) (s : State) : State :=
  if i != .keep then s.answer .busError else (s.retireBank k).answer .ok

/-- BANK_RETIRE (R480). -/
def execBankRetire (i : Init) (k : Fin 96) (s : State) : Host.Outcome State Fault Refusal :=
  .next (s.gate i (bankCtl k) (bankRetire i k))

/-! ### MRAM (R481) -/

/-- The oldest accepted granule write reaches the array. -/
def mramWriteComplete (s : State) : State :=
  match s.mramQ with
  | [] => s
  | (g, d) :: t => { s with mramQ := t }.setBytes g d

/-- Every accepted MRAM granule write is complete. -/
def State.mramSettle (s : State) : State := (List.range s.mramQ.length).foldl (fun (s : State) _ => mramWriteComplete s) s

/-- Bytes stored in MRAM, with whole granules good again. -/
def State.mramStore (s : State) (a : Nat) (d : List Byte) : State :=
  let s := s.mramSettle.setBytes a d
  (granules 8 a d.length).foldl (fun (s : State) g => if a ≤ g && g + 8 ≤ a + d.length then s.freshGranule g else s) s

/-- MRAM_WRITE_COMPLETE (R481). -/
def execMramWriteComplete (s : State) : Host.Outcome State Fault Refusal := .next (mramWriteComplete s)

/-! ### External DRAM (R483-R486) -/

/-- The SIZE code of a DRAM configuration word (R483): 0 for a reserved combination. -/
def dramCode (v : Word) : Nat :=
  match MEM_DDR_CFG_WIDTH.get v, MEM_DDR_CFG_HALF.get v, MEM_DDR_CFG_DENS.get v with
  | 1, 1, 0 => 1
  | 1, 1, 1 => 2
  | 1, 1, 2 => 3
  | 1, 0, 0 => 2
  | 1, 0, 1 => 3
  | 0, 0, 0 => 3
  | _, _, _ => 0

/-- TRAIN starts training while the controller is enabled. -/
def State.startTraining (s : State) : State :=
  if s.flag MEM_DDR_CTL MEM_DDR_CTL_EN then s.setFlag MEM_DDR_CTL MEM_DDR_CTL_TRAIN true else s

/-- A Keep write of TRAIN (R484, R488). -/
def ddrTrain (i : Init) (s : State) : State := if i != .keep then s.answer .busError else s.startTraining.answer .ok

/-- DDR_TRAIN (R484). -/
def execDdrTrain (i : Init) (s : State) : Host.Outcome State Fault Refusal :=
  .next (s.gate i MEM_DDR_CTL (ddrTrain i))

/-- Training ends with READY, and SIZE shows the configured size, or with TRAINERR (R484, R485). -/
def ddrTrainingComplete (ok : Bool) (s : State) : State :=
  if s.flag MEM_DDR_CTL MEM_DDR_CTL_TRAIN then
    let s := s.setFlag MEM_DDR_CTL MEM_DDR_CTL_TRAIN false
    let s := s.setFlag MEM_DDR_STAT MEM_DDR_STAT_READY ok
    let s := s.setFlag MEM_DDR_STAT MEM_DDR_STAT_TRAINERR !ok
    if ok then s.setFld MEM_DDR_STAT MEM_DDR_STAT_SIZE (dramCode (s.reg MEM_DDR_CFG)) else s
  else s

/-- DDR_TRAINING_COMPLETE (R484). -/
def execDdrTrainingComplete (ok : Bool) (s : State) : Host.Outcome State Fault Refusal := .next (ddrTrainingComplete ok s)

/-- INIT starts zeroing from address 0 upwards once READY; before, it is ignored (R485). -/
def State.startDdrInit (s : State) : State :=
  if s.flag MEM_DDR_STAT MEM_DDR_STAT_READY then
    let s := s.setFlag MEM_DDR_CTL MEM_DDR_CTL_INIT true
    let s := (s.setReg MEM_DDR_INITPTR 0).setFlag MEM_DDR_STAT MEM_DDR_STAT_INITDONE false
    s.eraseMem fun a => Nat.blt a 0x40000000
  else s

/-- A Keep write of INIT (R485, R488). -/
def ddrInit (i : Init) (s : State) : State := if i != .keep then s.answer .busError else s.startDdrInit.answer .ok

/-- DDR_INIT (R485). -/
def execDdrInit (i : Init) (s : State) : Host.Outcome State Fault Refusal :=
  .next (s.gate i MEM_DDR_CTL (ddrInit i))

/-- The whole installed size is zeroed: INITDONE, and INITPTR at the installed size (R485). -/
def ddrInitComplete (s : State) : State :=
  if s.flag MEM_DDR_CTL MEM_DDR_CTL_INIT then
    let s := s.setFlag MEM_DDR_CTL MEM_DDR_CTL_INIT false
    (s.setReg MEM_DDR_INITPTR (word s.dramSize)).setFlag MEM_DDR_STAT MEM_DDR_STAT_INITDONE true
  else s

/-- DDR_INIT_COMPLETE (R485). -/
def execDdrInitComplete (s : State) : Host.Outcome State Fault Refusal := .next (ddrInitComplete s)

/-- The controller in operation issues one of its periodic DRAM commands: 0 refresh, 1 ZQ calibration, 2 DQS tracking. -/
def State.ddrIssue (s : State) (k : Fin 3) : State :=
  if s.flag MEM_DDR_STAT MEM_DDR_STAT_READY then { s with ddrIssued := s.ddrIssued.set k (s.ddrIssued.get k + 1) } else s

/-- DDR_REFRESH (R484): an all-bank refresh is issued; no datum changes. -/
def execDdrRefresh (s : State) : Host.Outcome State Fault Refusal := .next (s.ddrIssue 0)

/-- DDR_ZQ_CALIBRATION (R484): ZQ short calibration is issued; no datum changes. -/
def execDdrZqCalibration (s : State) : Host.Outcome State Fault Refusal := .next (s.ddrIssue 1)

/-- DDR_DQS_TRACKING (R484): the read DQS drift is tracked; no datum changes. -/
def execDdrDqsTracking (s : State) : Host.Outcome State Fault Refusal := .next (s.ddrIssue 2)

/-- A write of MEM_DDR_RSEGk (R486): an entry in use ignores it, a segment beyond the installed size is refused with CFGERR,
else the segment is retired. -/
def State.retireSegment (s : State) (k : Nat) (v : Word) : State :=
  if s.flag (MEM_DDR_RSEG k) MEM_DDR_RSEG_VALID then s
  else if s.dramSize ≤ MEM_DDR_RSEG_SEG.get v * 0x100000 then s.setFlag MEM_DDR_STAT MEM_DDR_STAT_CFGERR true
  else (s.setReg (MEM_DDR_RSEG k) (v &&& 0x800003FF)).setFlag MEM_DDR_STAT MEM_DDR_STAT_CFGERR false

/-- A Keep write of a retired-segment entry (R486, R488). -/
def ddrSegmentRetire (i : Init) (k : Nat) (v : Word) (s : State) : State :=
  if i != .keep then s.answer .busError else (s.retireSegment k v).answer .ok

/-- DDR_SEGMENT_RETIRE (R486). -/
def execDdrSegmentRetire (i : Init) (k : Fin 16) (v : Word) (s : State) : Host.Outcome State Fault Refusal :=
  .next (s.gate i (MEM_DDR_RSEG k) (ddrSegmentRetire i k v))

/-! ### The MEM block's registers (R488) -/

/-- A write of a bank control register: the plain fields, then RETIRE or TEST where written as 1. -/
def State.bankCtlWrite (s : State) (k : Nat) (v : Word) : State :=
  let s := s.bankPower k v
  if v.getLsbD 3 then s.retireBank k else if v.getLsbD 4 then s.startBankTest k else s

/-- A register write to the MEM block. -/
def memWrite (i : Init) (a : Nat) (v : Word) (s : State) : State :=
  if i != .keep then s.answer .busError
  else if 0x60161000 ≤ a && a < 0x60161600 && a % 16 = 0 then
    (s.bankCtlWrite ((a - 0x60161000) / 16) v).answer .ok
  else if a = MEM_DDR_CTL then
    let s := s.setFlag a MEM_DDR_CTL_EN (v.getLsbD 0)
    let s := if v.getLsbD 1 then s.startTraining else s
    (if v.getLsbD 2 then s.startDdrInit else s).answer .ok
  else if a = MEM_DDR_CFG then
    if dramCode v = 0 then (s.setFlag MEM_DDR_STAT MEM_DDR_STAT_CFGERR true).answer .ok
    else
      let s := s.plainWrite (!s.flag MEM_DDR_CTL MEM_DDR_CTL_EN) a v
      if s.resp = .ok then s.setFlag MEM_DDR_STAT MEM_DDR_STAT_CFGERR false else s
  else if 0x60162040 ≤ a && a < 0x60162080 then (s.retireSegment ((a - 0x60162040) / 4) v).answer .ok
  else s.plainWrite (!s.flag MEM_DDR_CTL MEM_DDR_CTL_EN) a v

/-- A register read of the MEM block: the error queue pops, its latches are the reader's own, SPARES show the fuses. -/
def memRead (i : Init) (events : Word) (a : Nat) (s : State) : State :=
  if a = MEM_ERRQ0 then errorQueueRead i s
  else if a = MEM_ERRQ1 then s.answerWord (Tbl.get (fun _ => (0, 0)) s.errLatch i.rpn).1
  else if a = MEM_ERRQ2 then s.answerWord (Tbl.get (fun _ => (0, 0)) s.errLatch i.rpn).2
  else if 0x60161000 ≤ a && a < 0x60161618 && a % 16 = 4 then
    s.answerWord (MEM_TB_STAT_SPARES.put (s.reg a) (Config.spares ((a - 0x60161000) / 16)))
  else s.plainRead events a

end Sys2Proof.Machine
end

