-- ==== Sys2Proof/Machine/Container.lean ====
section
/-! DEFINITION. The Mladvo container: its format check and its verification (R586, R587).
Choices of the model: log entries 24, 51. -/

set_option autoImplicit false

namespace Sys2Proof.Machine

open Sys2Proof

/-- The little-endian word at byte offset `o` of a container. -/
def cw (l : List Byte) (o : Nat) : Nat := ofBytes ((l.drop o).take 4)

/-- The fields of a container header (R586). -/
def cProfile (l : List Byte) : Nat := bitsOf (cw l 4) 8 4
def cUsesDo (l : List Byte) : Bool := bitsOf (cw l 4) 12 1 == 1
def cUsesLane (l : List Byte) : Bool := bitsOf (cw l 4) 13 1 == 1
def cPscompat (l : List Byte) : Bool := bitsOf (cw l 4) 14 1 == 1
def cKeyslot (l : List Byte) : Nat := bitsOf (cw l 4) 16 2
def cLength (l : List Byte) : Nat := cw l 8
def cVersion (l : List Byte) : Word := word (cw l 12)
def cSvn (l : List Byte) : Nat := bitsOf (cw l 16) 0 6
def cCodewords (l : List Byte) : Nat := bitsOf (cw l 20) 0 15
def cLayout (l : List Byte) : Nat := bitsOf (cw l 20) 16 16
def cConv (l : List Byte) : Nat := bitsOf (cw l 24) 0 14
def cNmod (l : List Byte) : Nat := bitsOf (cw l 28) 0 4

/-- A module: type, offset, length, argument. -/
structure CModule where
  type : Nat
  ofs : Nat
  len : Nat
  arg : Nat
deriving DecidableEq, Repr

/-- The modules of a container. -/
def cModules (l : List Byte) : List CModule :=
  (List.range (cNmod l)).map fun i =>
    ⟨bitsOf (cw l (0x40 + 16 * i)) 0 8, cw l (0x44 + 16 * i), cw l (0x48 + 16 * i), cw l (0x4C + 16 * i)⟩

/-- The first module of a type. -/
def cModule (l : List Byte) (t : Nat) : Option CModule := (cModules l).find? fun m => m.type == t

/-- Whether no two modules overlap. -/
def modulesApart : List CModule → Bool
  | [] => true
  | m :: t => t.all (fun q => !(Nat.blt m.ofs (q.ofs + q.len) && Nat.blt q.ofs (m.ofs + m.len))) && modulesApart t

/-- The format check (R586) of a container read from a source of `src` bytes. -/
def formatOk (l : List Byte) (src : Nat) : Bool :=
  cw l 0 == 0x4D4C4456 && bitsOf (cw l 4) 0 8 == 1 && Nat.ble (cProfile l) 3 && bitsOf (cw l 4) 15 1 == 0 &&
    bitsOf (cw l 4) 18 14 == 0 && Nat.ble (cLength l) src && Nat.ble 256 (cLength l) && cLength l % 4 == 0 &&
    bitsOf (cw l 16) 6 26 == 0 && bitsOf (cw l 20) 15 1 == 0 && bitsOf (cw l 24) 14 18 == 0 && bitsOf (cw l 28) 4 28 == 0 &&
    (List.range 8).all (fun k => cw l (0x20 + 4 * k) == 0) && Nat.ble 1 (cCodewords l) && Nat.ble (cCodewords l) 16384 &&
    (cModules l).all (fun m => Nat.ble 1 m.type && Nat.ble m.type 5 && m.ofs % 4 == 0 && Nat.ble (0x40 + 16 * cNmod l) m.ofs &&
      Nat.ble (m.ofs + m.len) (cLength l - 128)) && modulesApart (cModules l)

/-- Word `w` of the hash in key slot `k`. -/
def State.slotHash (s : State) (k w : Nat) : Word :=
  match (s.fuses.slots.getD k ⟨none, false, false⟩).hash with
  | none => Config.factoryHash k w
  | some h => h.getD w 0

/-- The verification of a container (R587): 0 valid, else the step that fails (1-4). -/
def State.verify (s : State) (l : List Byte) (src : Nat) : Nat :=
  if !formatOk l src then 1
  else
    let k := cKeyslot l
    let slot := s.fuses.slots.getD k ⟨none, false, false⟩
    let pub := (l.drop (cLength l - 128)).take 64
    if !slot.programmed || slot.revoked || (List.range 8).any (fun w => Config.digest pub w != s.slotHash k w) then 2
    else if cSvn l < s.fuses.rollback then 3
    else if !Config.signatureValid (l.take (cLength l)) then 4
    else 0

/-- The halfwords of a module as program words (R172). -/
def codeWords (l : List Byte) (ofs n : Nat) : List PWord :=
  (List.range n).map fun j => BitVec.ofNat 14 (ofBytes ((l.drop (ofs + 2 * j)).take 2))

end Sys2Proof.Machine
end

