-- ==== Sys2Proof/Machine/Exchange.lean ====
section
/-! DEFINITION. Mailboxes, latest-value slots, semaphores and doorbells of the XCH block, and the reset epochs (chapter 13), with
the Keep's reading of commands and posting of responses over MBX0 and MBX1 (R193, R194).
Choices of the model: log entries 20. -/

set_option autoImplicit false

namespace Sys2Proof.Machine

open Sys2Proof

/-! ### Objects: CFG, STAT and PEEK words of a mailbox or a latest-value slot share one layout (R456) -/

/-- The three words of an object. -/
structure XObj where
  cfg : Nat
  stat : Nat
  peek : Nat
deriving DecidableEq, Repr

/-- Mailbox `n`. -/
def mbx (n : Nat) : XObj := ⟨XCH_MBX_CFG n, XCH_MBX_STAT n, XCH_MBX_PEEK n⟩

/-- Latest-value slot `n`. -/
def lvs (n : Nat) : XObj := ⟨XCH_LVS_CFG n, XCH_LVS_STAT n, XCH_LVS_PEEK n⟩

/-- The sender of an object. MBX126, MBX127 and LVS63 read 2 (R459, R461). -/
def State.sender (s : State) (o : XObj) : Nat :=
  if o.cfg = XCH_MBX_CFG 126 || o.cfg = XCH_MBX_CFG 127 || o.cfg = XCH_LVS_CFG 63 then 2 else s.fld o.cfg XCH_MBX_CFG_SND

/-- The receiver of an object. MBX124 and MBX125 read 2 (R459). -/
def State.receiver (s : State) (o : XObj) : Nat :=
  if o.cfg = XCH_MBX_CFG 124 || o.cfg = XCH_MBX_CFG 125 then 2 else s.fld o.cfg XCH_MBX_CFG_RCV

/-- Whether an object holds a posted word. -/
def State.full (s : State) (o : XObj) : Bool := s.flag o.stat XCH_MBX_STAT_FULL

/-- A word is stored: FULL set, STALE and ORPHAN cleared, COL kept, and the post ring follows (R456, R460). -/
def State.store (s : State) (o : XObj) (v : Word) : State :=
  let s := s.setReg o.peek v
  let s := s.setFlag o.stat XCH_MBX_STAT_FULL true
  let s := s.setFlag o.stat XCH_MBX_STAT_STALE false
  let s := s.setFlag o.stat XCH_MBX_STAT_ORPHAN false
  s.ringIf (s.flag o.cfg XCH_MBX_CFG_PRING) (s.receiver o) (s.fld o.cfg XCH_MBX_CFG_PRBIT)

/-- The status word that a consume loads into LASTST (R457): number, kind, VALID, and copies of STALE, ORPHAN and COL. -/
def State.lastst (s : State) (o : XObj) (num kind : Nat) : Word :=
  if s.full o then
    word (num + kind * 2 ^ 7 + 2 ^ 8 + s.fld o.stat XCH_MBX_STAT_STALE * 2 ^ 9 + s.fld o.stat XCH_MBX_STAT_ORPHAN * 2 ^ 10 +
      s.fld o.stat XCH_MBX_STAT_COL * 2 ^ 11)
  else word (num + kind * 2 ^ 7)

/-- A consume by agent `a` of object `o`: the word (0 when empty), FULL cleared, COL cleared, LASTST loaded, the sender rung
(R457, R461). -/
def State.take (s : State) (a : Nat) (o : XObj) (num kind : Nat) : Word × State :=
  let st := s.lastst o num kind
  let s' := s.setReg (XCH_A_LASTST a) st
  if s.full o then
    let s' := s'.setFlag o.stat XCH_MBX_STAT_FULL false
    let s' := s'.setFlag o.stat XCH_MBX_STAT_COL false
    (s.reg o.peek, s'.ringIf (s.flag o.cfg XCH_MBX_CFG_ERING) (s.sender o) (s.fld o.cfg XCH_MBX_CFG_ERBIT))
  else (0, s')

/-! ### The Keep's side of MBX0 and MBX1 (R193-R195) -/

/-- PLM_STAT shows how many commands and responses the Keep holds. -/
def State.showQueues (s : State) : State :=
  (s.setFld PLM_STAT PLM_STAT_CMDQ s.cmdq.length).setFld PLM_STAT PLM_STAT_RSPQ s.rspq.length

/-- COMMAND_READ: while READY with fewer than 8 commands and 32 responses held, the Keep consumes MBX0 (R193-R195). -/
def State.keepRead (s : State) : State :=
  if s.flag PLM_STAT PLM_STAT_READY && Nat.blt s.cmdq.length 8 && Nat.blt s.rspq.length 32 && s.full (mbx 0) then
    let (w, s) := s.take 1 (mbx 0) 0 0
    { s with cmdq := s.cmdq ++ [w] }.showQueues
  else s

/-- RESPONSE_POST: the oldest undelivered response is posted to MBX1 once it is empty (R194). -/
def State.deliver (s : State) : State :=
  match s.rspq with
  | [] => s
  | w :: t => if s.full (mbx 1) then s else ({ s with rspq := t }.store (mbx 1) w).showQueues

/-- A response word of the Keep: RES, TAG, OBJ, INFO (R192). -/
def rspWord (res tag obj info : Nat) : Word := word (res + tag * 2 ^ 8 + obj * 2 ^ 16 + min info 255 * 2 ^ 24)

/-- The Keep posts a response, in the order in which responses arise (R194). -/
def State.respond (s : State) (res tag obj info : Nat) : State :=
  { s with rspq := s.rspq ++ [rspWord res tag obj info] }.showQueues.deliver

/-! ### Pages (R453) -/

/-- Whether the page of agent `p` answers the objects and status of initiator `i`. -/
def pageOk (i : Init) (p : Nat) : Bool := agentOf i == some p && p != 3

/-- Whether the page of agent `p` answers the doorbell registers to initiator `i`: agent 3's answer the host and the Keep
(R450). -/
def doorOk (i : Init) (p : Nat) : Bool := agentOf i == some p || (p == 3 && (agentOf i == some 0 || agentOf i == some 1))

/-- Whether the common area answers initiator `i`: the host and the Keep (R453). -/
def commonOk (i : Init) : Bool := agentOf i == some 0 || agentOf i == some 1

/-! ### Commands -/

/-- A post to mailbox `n` through page `p` (R456); the Keep then reads MBX0 if it can (R193). -/
def mailboxPost (i : Init) (p n : Nat) (v : Word) (s : State) : State :=
  if !pageOk i p || s.sender (mbx n) != p then s.answer .busError
  else if s.full (mbx n) then (s.countSat XCH_MBXREJ 1).answer .busError
  else (s.store (mbx n) v).keepRead.answer .ok

/-- MAILBOX_POST (R456). -/
def execMailboxPost (i : Init) (p : Nat) (n : Fin 128) (v : Word) (s : State) : Host.Outcome State Fault Refusal :=
  .next (s.gate i (XCH_A_MBX p n) (mailboxPost i p n v))

/-- A consume of mailbox `n` through page `p` (R457): refused to an agent that is not the receiver; a consume of MBX0 by the
Keep enters its command queue, and an emptied MBX1 takes the next response (R193, R194). -/
def mailboxConsume (i : Init) (p n : Nat) (s : State) : State :=
  if !pageOk i p || s.receiver (mbx n) != p then s.answer .busError
  else
    let full := s.full (mbx n)
    let (w, s) := s.take p (mbx n) n 0
    let s := if n = 0 && p = 1 && full then { s with cmdq := s.cmdq ++ [w] }.showQueues else s
    s.deliver.keepRead.answerWord w

/-- MAILBOX_CONSUME (R457). -/
def execMailboxConsume (i : Init) (p : Nat) (n : Fin 128) (s : State) : Host.Outcome State Fault Refusal :=
  .next (s.gate i (XCH_A_MBX p n) (mailboxConsume i p n))

/-- A post to latest-value slot `n` (R460): never refused for being late; an unconsumed word sets COL and counts. -/
def lvsPost (i : Init) (p n : Nat) (v : Word) (s : State) : State :=
  if !pageOk i p || s.sender (lvs n) != p then s.answer .busError
  else
    let s := if s.full (lvs n) then (s.setFlag (lvs n).stat XCH_MBX_STAT_COL true).countSat XCH_LVSCOL 1 else s
    (s.store (lvs n) v).answer .ok

/-- LVS_POST (R460). -/
def execLvsPost (i : Init) (p : Nat) (n : Fin 64) (v : Word) (s : State) : Host.Outcome State Fault Refusal :=
  .next (s.gate i (XCH_A_LVS p n) (lvsPost i p n v))

/-- A consume of latest-value slot `n` (R461). -/
def lvsConsume (i : Init) (p n : Nat) (s : State) : State :=
  if !pageOk i p || s.receiver (lvs n) != p then s.answer .busError
  else
    let (w, s) := s.take p (lvs n) n 1
    s.answerWord w

/-- LVS_CONSUME (R461). -/
def execLvsConsume (i : Init) (p : Nat) (n : Fin 64) (s : State) : Host.Outcome State Fault Refusal :=
  .next (s.gate i (XCH_A_LVS p n) (lvsConsume i p n))

/-- The value a test-and-set of semaphore `n` returns (R462). -/
def State.semValue (s : State) (n : Nat) : Word :=
  if s.flag (XCH_SEM_STAT n) XCH_SEM_STAT_HELD then word (1 + s.fld (XCH_SEM_STAT n) XCH_SEM_STAT_OWNER * 0x100)
  else if s.flag (XCH_SEM_STAT n) XCH_SEM_STAT_ABND then 2
  else 0

/-- A test-and-set of semaphore `n` through page `p` (R462): a free one is then held by `p` and no longer abandoned. -/
def semTestAndSet (i : Init) (p n : Nat) (s : State) : State :=
  if !pageOk i p then s.answer .busError
  else
    let v := s.semValue n
    let s := if s.flag (XCH_SEM_STAT n) XCH_SEM_STAT_HELD then s else s.setReg (XCH_SEM_STAT n) (word (1 + p * 2 ^ 8))
    s.answerWord v

/-- SEMAPHORE_TEST_AND_SET (R462). -/
def execSemaphoreTestAndSet (i : Init) (p : Nat) (n : Fin 64) (s : State) : Host.Outcome State Fault Refusal :=
  .next (s.gate i (XCH_A_SEM p n) (semTestAndSet i p n))

/-- A release of semaphore `n` through page `p` (R463): its holder frees it, any other write is a bus error. -/
def semRelease (i : Init) (p n : Nat) (s : State) : State :=
  if pageOk i p && s.flag (XCH_SEM_STAT n) XCH_SEM_STAT_HELD && s.fld (XCH_SEM_STAT n) XCH_SEM_STAT_OWNER == p then
    (s.setReg (XCH_SEM_STAT n) 0).answer .ok
  else s.answer .busError

/-- SEMAPHORE_RELEASE (R463). -/
def execSemaphoreRelease (i : Init) (p : Nat) (n : Fin 64) (s : State) : Host.Outcome State Fault Refusal :=
  .next (s.gate i (XCH_A_SEM p n) (semRelease i p n))

/-- A Keep write of XCH_SEM_FREL frees any semaphore; freed so, it is not abandoned (R463). -/
def semForceRelease (i : Init) (n : Nat) (s : State) : State :=
  if i == .keep then (s.setReg (XCH_SEM_STAT n) 0).answer .ok else s.answer .busError

/-- SEMAPHORE_FORCE_RELEASE (R463). -/
def execSemaphoreForceRelease (i : Init) (n : Fin 64) (s : State) : Host.Outcome State Fault Refusal :=
  .next (s.gate i XCH_SEM_FREL (semForceRelease i n))

/-- A write of DB_RING in page `p` (R454): a bus error for agents 36-63, else the named bit is set. -/
def doorbellRing (i : Init) (p : Nat) (v : Word) (s : State) : State :=
  if !doorOk i p || Nat.ble 36 (XCH_A_DB_RING_AGENT.get v) then s.answer .busError
  else (s.ring (XCH_A_DB_RING_AGENT.get v) (XCH_A_DB_RING_BIT.get v)).answer .ok

/-- DOORBELL_RING (R454). -/
def execDoorbellRing (i : Init) (p : Nat) (v : Word) (s : State) : Host.Outcome State Fault Refusal :=
  .next (s.gate i (XCH_A_DB_RING p) (doorbellRing i p v))

/-- A W1C write to DB_PEND in page `p` (R454); bits that `events` names are set in the same cycle and stay set (R9). -/
def doorbellClear (i : Init) (p : Nat) (v events : Word) (s : State) : State :=
  if !doorOk i p then s.answer .busError
  else
    let old := s.reg (XCH_A_DB_PEND p)
    let s := s.setReg (XCH_A_DB_PEND p) ((old &&& ~~~v) ||| events)
    let s := if p = 0 then (s.msixSettle).msixEvents (events &&& ~~~old &&& s.reg (XCH_A_DB_MASK 0)) else s
    let s := if p = 3 then { s with irqReq := (s.irqReq &&& ~~~(v.truncate 8 &&& ~~~(events.truncate 8))) |||
      ((events &&& ~~~old &&& s.reg (XCH_A_DB_MASK 3)).truncate 8 &&& 0xFE) } else s
    s.answer .ok

/-- DOORBELL_CLEAR (R454). -/
def execDoorbellClear (i : Init) (p : Nat) (v events : Word) (s : State) : Host.Outcome State Fault Refusal :=
  .next (s.gate i (XCH_A_DB_PEND p) (doorbellClear i p v events))

/-- A write of DB_MASK in page `p` (R455): pending bits that become unmasked assert the doorbell; for the host they are
message events, and PBA bits of masked ones clear (R39). -/
def doorbellMaskWrite (i : Init) (p : Nat) (v : Word) (s : State) : State :=
  if !doorOk i p then s.answer .busError
  else
    let old := s.reg (XCH_A_DB_MASK p)
    let s := s.setReg (XCH_A_DB_MASK p) v
    let new := v &&& ~~~old &&& s.reg (XCH_A_DB_PEND p)
    let s := if p = 0 then s.msixSettle.msixEvents new else s
    let s := if p = 3 then { s with irqReq := s.irqReq ||| (new.truncate 8 &&& 0xFE) } else s
    s.answer .ok

/-- DOORBELL_MASK_WRITE (R455). -/
def execDoorbellMaskWrite (i : Init) (p : Nat) (v : Word) (s : State) : Host.Outcome State Fault Refusal :=
  .next (s.gate i (XCH_A_DB_MASK p) (doorbellMaskWrite i p v))

/-- A write of 1 to XCH_HOSTRST.BUMP by the host or the Keep advances the host epoch (R451). -/
def hostEpochBump (i : Init) (s : State) : State :=
  if commonOk i then (s.advanceEpoch 0).answer .ok else s.answer .busError

/-- HOST_EPOCH_BUMP (R451). -/
def execHostEpochBump (i : Init) (s : State) : Host.Outcome State Fault Refusal :=
  .next (s.gate i XCH_HOSTRST (hostEpochBump i))

end Sys2Proof.Machine
end

