-- ==== Sys2Proof/Machine/Retire.lean ====
section
/-! DEFINITION. The retirement record in MRAM and the registers that show retired and failed resources (R572, R576).
Choices of the model: log entries 43. -/

set_option autoImplicit false

namespace Sys2Proof.Machine

open Sys2Proof

/-- The kind and index of a resource identifier (R562). -/
def resKind (r : Nat) : Nat := r / 0x800
def resIndex (r : Nat) : Nat := r % 0x800

/-- The register and bit that show resource `r` as RETIRED or FAILED (R576). -/
def retBit (r : Nat) : Option (Nat × Nat) :=
  let n := resIndex r
  match resKind r with
  | 1 => some (VIG_RET_ENG, n)
  | 2 => some (VIG_RET_TB (n / 32), n % 32)
  | 3 => some (VIG_RET_CB, n)
  | 4 => some (VIG_RET_MISC, n)
  | 6 => some (VIG_RET_MISC, 2 + n)
  | 7 => if n = 1 then some (VIG_RET_MISC, 6) else none
  | 8 => some (VIG_RET_MISC, 7 + n)
  | 9 => some (VIG_RET_MISC, 9 + n)
  | 10 => some (VIG_RET_MISC, 13 + n)
  | 11 => some (VIG_RET_MISC, 19 + n)
  | 12 => some (VIG_RET_MISC, 21 + n)
  | 13 => some (VIG_RET_CAR, n)
  | 14 => some (VIG_RET_MISC, 25)
  | 15 => some (VIG_RET_MISC, 26)
  | 16 => some (VIG_RET_MISC, 27 + n)
  | 17 => some (VIG_RET_MISC, 29)
  | _ => none

/-- Resource `r` is RETIRED (5) or FAILED (6), and its bit shows it. -/
def State.resDown (s : State) (r st : Nat) : State :=
  let s := s.updResource r fun x => { x with state := st }
  match retBit r with
  | some (a, b) => s.setReg a (s.reg a ||| word (2 ^ b))
  | none => s

/-! ### The record (R572) -/

/-- Addresses of copies A and B. -/
abbrev recordA : Nat := 0x5407F000
abbrev recordB : Nat := 0x540FF000

/-- A record in MRAM: 256 entries of two words (identifier [15:0] and ECODE [20:16]; boot count), 0 where unused, then the CRC. The
order of the fields is the model's (DESIGN CHOICE, log entry 43). -/
def recordBytes (l : List (Nat × Nat × Nat)) : List Byte :=
  let body := (l.flatMap fun (r, c, b) => toBytes (r + c * 65536) 4 ++ toBytes b 4) ++ List.replicate (2048 - 8 * l.length) 0
  body ++ toBytes (crc32c body).toNat 4

/-- The entries of a record copy; none where its CRC fails. -/
def readRecord (d : List Byte) : Option (List (Nat × Nat × Nat)) :=
  let w (k : Nat) : Nat := ofBytes ((d.drop (4 * k)).take 4)
  if crc32c (d.take 2048) = word (w 512) then
    some (((List.range 256).map fun k => (bitsOf (w (2 * k)) 0 16, bitsOf (w (2 * k)) 16 5, w (2 * k + 1))).filter fun q => q.1 != 0)
  else none

/-- Both copies are written and verified; RREC ends (R569, R572). -/
def State.writeRecord (s : State) : State :=
  let d := recordBytes s.vigil.record
  ((s.mramStore recordA d).mramStore recordB d).degrSet ((s.reg VIG_DEGR).getLsbD 2) false

/-- A retirement is recorded; beyond 256 entries it is not, and RRFULL is set (R572). -/
def State.recordRetirement (s : State) (r ecode : Nat) : State :=
  if s.vigil.record.any fun q => q.1 == r then s
  else if s.vigil.record.length < 256 then
    let e := (r, ecode, (s.reg SYS_BOOTCNT).toNat)
    ({ s with vigil := { s.vigil with record := s.vigil.record ++ [e] } } : State).writeRecord
  else s.setFlag VIG_STAT VIG_STAT_RRFULL true

/-- DRAM segment `n` is retired at a free entry of MEM_DDR_RSEG; without one it is FAILED (R486, R568). -/
def State.segmentDown (s : State) (n : Nat) : State :=
  match (List.range 16).find? fun k => !s.flag (MEM_DDR_RSEG k) MEM_DDR_RSEG_VALID with
  | some k => (s.setReg (MEM_DDR_RSEG k) (word (2 ^ 31 + n))).resDown (resId 5 n) 5
  | none => s.resDown (resId 5 n) 6

end Sys2Proof.Machine
end

