-- ==== Sys2Proof/Machine/Placement.lean ====
section
/-! DEFINITION. The placement manager's operations: allocation, descriptor checks, loading, protection windows, engine control
blocks, results (R199-R213). The commands are in Plm.lean.
Choices of the model: log entries 15, 16, 17, 37, 49. -/

set_option autoImplicit false

namespace Sys2Proof.Machine

open Sys2Proof

/-! ### Tables -/

/-- Channel `c`. -/
def State.chan (s : State) (c : Nat) : Chan := Tbl.get (fun _ => Chan.init) s.plm.chans c

/-- The state with the placement manager's tables changed. -/
def State.updPlm (s : State) (f : Plm → Plm) : State := { s with plm := f s.plm }

/-- The state with channel `c` changed. -/
def State.updChan (s : State) (c : Nat) (f : Chan → Chan) : State :=
  s.updPlm fun p => { p with chans := Tbl.set (fun _ => Chan.init) p.chans c (f (s.chan c)) }

/-- Descriptor word `w` of a channel as the Keep read it. -/
def Chan.w (x : Chan) (k : Nat) : Nat := (x.desc.getD k 0).toNat

/-- The open migration of channel `c`. -/
def State.mig (s : State) (c : Nat) : Option Mig := s.plm.migs.find? fun m => m.ch == c

/-- The state with the open migration of channel `c` changed. -/
def State.updMig (s : State) (c : Nat) (f : Mig → Mig) : State :=
  s.updPlm fun p => { p with migs := p.migs.map fun m => if m.ch = c then f m else m }

/-- Field `f` of word `w` of the result entry of channel `c` (R201). -/
def State.resFld (s : State) (c w : Nat) (f : Fld) (v : Nat) : State := s.setFld (PLM_RES c w) f v

/-- One update of the result entry of channel `c`: GEN is incremented before and after (R201). -/
def State.result' (s : State) (c : Nat) (f : State → State) : State := (f (s.count (PLM_RES c 1) 1)).count (PLM_RES c 1) 1

/-- Fields of result word 0 (R201). -/
def rSTATE : Fld := ⟨0, 3⟩
def rENG : Fld := ⟨3, 5⟩
def rENGV : Fld := ⟨8, 1⟩
def rPHASE : Fld := ⟨9, 3⟩
def rDISPLACED : Fld := ⟨12, 1⟩
def rREMOTE : Fld := ⟨13, 1⟩
def rSUSPECT : Fld := ⟨14, 1⟩
def rSTATELOST : Fld := ⟨15, 1⟩
def rLASTRES : Fld := ⟨16, 8⟩

/-- Channel `c` enters state `st` (R212). -/
def State.chanState (s : State) (c st : Nat) : State :=
  (s.updChan c fun x => { x with st := st }).result' c fun s => s.resFld c 0 rSTATE st

/-- The final response for channel `c`: LASTRES and the response word (R194, R201). -/
def State.final (s : State) (res tag c info : Nat) : State :=
  (s.result' c fun s => s.resFld c 0 rLASTRES res).respond res tag c info

/-- PHASE of channel `c`. -/
def State.phase (s : State) (c p : Nat) : State := s.result' c fun s => s.resFld c 0 rPHASE p

/-- EV7 of engine `n` (R207): role or rights have changed. -/
def State.ev7 (s : State) (n : Nat) : State := s.latchEv n 7

/-! ### Engines and banks in use -/

/-- Whether the power domain of tower `t` is ON (R596). -/
def State.towerOn (s : State) (t : Nat) : Bool := s.domain t == 0

/-- Whether engine `n` may be used at all: not ISOLATED, its tower on, not being tested, evacuated or retired by Vigil. -/
def State.engineUsable (s : State) (n : Nat) : Bool :=
  (s.eng n).st != .isolated && s.towerOn (n / 8) && Nat.ble (s.resource (resId 1 n)).state 1

/-- Role of engine `n` (PLM_ENGn). -/
def State.role (s : State) (n : Nat) : Nat := s.fld (PLM_ENG n) PLM_ENG_ROLE

/-- Engine `n` takes role `r` for channel `c`. -/
def State.setRole (s : State) (n r c : Nat) : State := (s.setFld (PLM_ENG n) PLM_ENG_ROLE r).setFld (PLM_ENG n) PLM_ENG_CH c

/-- Whether engine `n` is free (R209). -/
def State.engineFree (s : State) (n : Nat) : Bool := s.role n == 0 && s.engineUsable n

/-- Engines of tower `t` of a class. -/
def towerEngines (t : Nat) (cc : Bool) : List Nat := if cc then [8 * t, 8 * t + 1] else (List.range 6).map (8 * t + 2 + ·)

/-- The applied reserve minimums of tower `t`, and of the central banks (R199). -/
def State.rc (s : State) (t : Nat) (cc : Bool) : Nat := bitsOf s.plm.reserve.toNat (if cc then 6 * t else 6 * t + 2) 2
def State.rb (s : State) (t : Nat) : Nat := bitsOf s.plm.reserve.toNat (6 * t + 4) 2
def State.rcb (s : State) : Nat := bitsOf s.plm.reserve.toNat 24 2

/-- Whether two address ranges overlap. -/
def overlap (a n b m : Nat) : Bool := Nat.blt a (b + m) && Nat.blt b (a + n)

/-- Whether bank `k` counts towards the reserve: not OFF, RETIRED or to be retired; central bank 31 is the Keep's. -/
def State.bankCounts (s : State) (k : Nat) : Bool :=
  s.bankState k != 3 && s.bankState k != 6 && k != 95 && Nat.blt (s.resource (bankRes k)).state 4

/-- The open self-test of bank `k`: kind 1 a tower bank, kind 2 a central bank (R230). -/
def bankTestOf (l : List (Nat × Nat × Nat)) (k : Nat) : Option (Nat × Nat × Nat) :=
  l.find? fun q => q.2 == (if k < 64 then (1, k) else (2, k - 64))

/-- Whether bank `k` may hold new items: it counts, and is neither tested nor being cleared for a test. -/
def State.bankUsable (s : State) (k : Nat) : Bool :=
  s.bankCounts k && (bankTestOf s.plm.tests k).isNone && Nat.ble (s.resource (bankRes k)).state 1

/-- The items that reach into the `n` bytes from `a`; those in bank `k`. -/
def inRange (l : List Alloc) (a n : Nat) : List Alloc := l.filter fun x => overlap x.addr x.size a n
def inBank (l : List Alloc) (k : Nat) : List Alloc := inRange l (bankBase k) 0x20000

/-- Whether bank `k` is wholly free, given the items. -/
def State.bankFree (s : State) (l : List Alloc) (k : Nat) : Bool := s.bankCounts k && (inBank l k).isEmpty

/-- The banks of tower `t`, or the central banks. -/
def towerBanks (t : Nat) : List Nat := (List.range 16).map (16 * t + ·)
def centralBanks : List Nat := (List.range 32).map (64 + ·)

/-- The number of wholly free banks in a list. -/
def State.freeBanks (s : State) (l : List Alloc) (ks : List Nat) : Nat := (ks.filter (s.bankFree l)).length

/-- USE and FREE of bank `k` (R199), and KEEP. -/
def State.bankWord (s : State) (k : Nat) : Word :=
  if k = 95 then 0x8000
  else
    let l := inBank s.plm.allocs k
    let used := (l.map fun x => min (x.addr + x.size) (bankBase k + 0x20000) - max x.addr (bankBase k)).sum
    let use := if s.bankState k = 6 then 3 else if l.isEmpty then 0
      else if k < 64 && !(l.any fun x => x.cc) then 2 else 1
    word (use + (0x20000 - used) / 64 * 4)

/-! ### Shortfalls (R213) -/

/-- Items that do not count against the reserve: targets, scratch areas, audits. -/
def lasting (l : List Alloc) : List Alloc := l.filter fun x => Nat.blt x.own 64 || (Nat.ble 128 x.own && Nat.blt x.own 384)

/-- Engines that count towards a minimum: free, or in a temporary role (2-5). -/
def State.counts (s : State) (n : Nat) : Bool :=
  (s.role n == 0 || (Nat.ble 2 (s.role n) && Nat.ble (s.role n) 5)) && (s.eng n).st != .isolated && s.towerOn (n / 8) &&
    Nat.blt (s.resource (resId 1 n)).state 5

/-- The shortfall word (PLM_RSVSTAT). -/
def State.shortfall (s : State) : Word :=
  let l := lasting s.plm.allocs
  let b (f : Nat → Bool) : Nat := bit (f 0) + 2 * bit (f 1) + 4 * bit (f 2) + 8 * bit (f 3)
  let sc := b fun t => Nat.blt ((towerEngines t true).filter s.counts).length (s.rc t true)
  let sg := b fun t => Nat.blt ((towerEngines t false).filter s.counts).length (s.rc t false)
  let sb := b fun t => Nat.blt (s.freeBanks l (towerBanks t)) (s.rb t)
  word (sc + 16 * sg + 256 * sb + 4096 * bit (Nat.blt (s.freeBanks l centralBanks) s.rcb))

/-! ### Tests and retirements that wait for their resource to be cleared (R168, R230, R479, R566, R568) -/

/-- An open test (tag, kind, object) goes on: an engine without work is tested once it is HALTED, a double fault being reset first;
a bank without items is tested. Vigil's own tests carry tag 256. -/
def State.testStep (s : State) (q : Nat × Nat × Nat) : State :=
  let mark (r : Nat) (s : State) : State := if q.1 = 256 then s.updResource r fun x => { x with state := 3 } else s
  if q.2.1 = 0 then
    let n := q.2.2
    if s.role n = 0 || s.role n = 5 then
      let s := mark (resId 1 n) ((s.setRole n 5 0).updEng n fun g => { g with clken := true })
      if (s.eng n).st = .dfault then s.engineRst n
      else if (s.eng n).st = .halted && !(s.eng n).busy && !s.loaderOn n && (s.laneOf n).isNone then s.applyCtl noStep n 0x80
      else s
    else s
  else
    let k := if q.2.1 = 1 then q.2.2 else 64 + q.2.2
    if (inBank s.plm.allocs k).isEmpty && (s.bankState k = 0 || s.bankState k = 1 || s.bankState k = 2) then
      (mark (bankRes k) (s.setBankState k 0)).startBankTest k
    else s

/-- A bank or DRAM segment that is EVACUATING is retired once nothing is left in it (R568); of central bank 31 the Keep's tables
stay. -/
def State.retireStep (s : State) (r : Nat) : State :=
  let n := resIndex r
  if (s.resource r).state != 4 then s
  else if resKind r = 5 then (if (inRange s.plm.allocs (n * 0x100000) 0x100000).isEmpty then s.segmentDown n else s)
  else
    let k := if resKind r = 2 then n else 64 + n
    if k != 95 && (inBank s.plm.allocs k).isEmpty then (s.retireBank k).resDown r 5 else s

/-- Every open test and retirement goes as far as it can. -/
def State.settle (s : State) : State :=
  let s := s.plm.tests.foldl (fun (s : State) q => s.testStep q) s
  (s.vigil.res.map fun q => q.1).foldl (fun (s : State) r => s.retireStep r) s

/-- The placement status follows the tables: counts, OPEN, shortfalls; EV_RESERVE is posted when a shortfall arises and when the
last one ends (R199, R213). -/
def State.plmSync (s : State) : State :=
  let s := s.settle
  let cs := s.plm.chans.map fun q => q.2.st
  let s := s.setFld PLM_STAT PLM_STAT_NDECL (cs.filter fun n => n != 0).length
  let s := s.setFld PLM_STAT PLM_STAT_NRUN (cs.filter fun n => n == 2 || n == 3).length
  let s := s.setFlag PLM_STAT PLM_STAT_OPEN !s.plm.migs.isEmpty
  let old := s.reg PLM_RSVSTAT
  let new := s.shortfall
  let s := (s.setReg PLM_RSVSTAT new).setFlag PLM_STAT PLM_STAT_SHORT (new != 0)
  let s := if (new &&& ~~~old) != 0 then s.respond 0x33 0 0 1
    else if old != 0 && new == 0 then s.respond 0x33 0 0 0
    else s
  s.degrSync

/-! ### Allocation (R210) -/

/-- The least power of two that is at least `n` (R204). -/
def pow2up (n : Nat) : Nat := if n ≤ 64 then 64 else 2 ^ (Nat.log2 (n - 1) + 1)

/-- The first multiple of `step` from `a`, among `fuel`, that `p` accepts. -/
def firstFit (p : Nat → Bool) (step : Nat) : Nat → Nat → Option Nat
  | 0, _ => none
  | fuel + 1, a => if p a then some a else firstFit p step fuel (a + step)

/-- Whether an item fits at SRAM address `a` in the banks `ks`: free space, usable banks of its class, and the reserve of `keep`
wholly free banks, in which temporary items do not count (R213). -/
def State.fitsSram (s : State) (ks : List Nat) (cc : Bool) (keep size a : Nat) : Bool :=
  let l := s.plm.allocs
  let touched := ks.filter fun k => overlap a size (bankBase k) 0x20000
  l.all (fun x => !overlap a size x.addr x.size) &&
    touched.all (fun k => s.bankUsable k && (k ≥ 64 || (inBank l k).all fun x => x.cc == cc)) &&
    Nat.ble keep (s.freeBanks (⟨0, 0, a, size, cc⟩ :: lasting l) ks)

/-- The lowest address for an item of `size` bytes in class `cls` for tower `t`; `rsv`: the reserve may be used (R210, R213). In
DRAM, where R210 names no order, the lowest address too (DESIGN CHOICE, log entry 15). -/
def State.findPlace (s : State) (cls t : Nat) (cc rsv : Bool) (size : Nat) : Option Nat :=
  let clear (a : Nat) : Bool := s.plm.allocs.all fun x => !overlap a size x.addr x.size
  match cls with
  | 0 => firstFit (s.fitsSram (towerBanks t) cc (if rsv then 0 else s.rb t) size) size (0x200000 / size) (0x48000000 + 0x200000 * t)
  | 1 => firstFit (s.fitsSram centralBanks cc (if rsv then 0 else s.rcb) size) size (0x3E0000 / size) 0x40000000
  | 2 => firstFit (fun a => clear a && (!(List.range 16).any fun k =>
      s.flag (MEM_DDR_RSEG k) MEM_DDR_RSEG_VALID && overlap a size (s.fld (MEM_DDR_RSEG k) MEM_DDR_RSEG_SEG * 0x100000) 0x100000) &&
      s.vigil.res.all fun q => !(resKind q.1 == 5 && q.2.state == 4 && overlap a size (resIndex q.1 * 0x100000) 0x100000))
      size (s.dramSize / size) 0
  | _ =>
    let b := (s.reg PLM_LXBASE).toNat + 0x800
    let e := (s.reg PLM_LXBASE).toNat + (s.reg PLM_LXSIZE).toNat
    firstFit (fun a => clear a && Nat.ble (a + size) e) size ((e - b) / size) ((b + size - 1) / size * size)

/-- Places an item of owner `own` in the first class of `cs` that has room: class and address. -/
def State.placeItem (s : State) (own t : Nat) (cc rsv : Bool) (size : Nat) : List Nat → Option (Nat × Nat × State)
  | [] => none
  | c :: cs =>
    match s.findPlace c t cc rsv size with
    | some a => some (c, a, s.updPlm fun p => { p with allocs := ⟨own, c, a, size, cc⟩ :: p.allocs })
    | none => State.placeItem s own t cc rsv size cs

/-- Every item of owner `own` is returned. -/
def State.freeItems (s : State) (own : Nat) : State :=
  s.updPlm fun p => { p with allocs := p.allocs.filter fun x => x.own != own }

/-- The classes that LMAX, or PCLS, permits (R205, R210). -/
def classesOf (lmax : Nat) : List Nat :=
  match lmax with
  | 0 => [0]
  | 1 => [0, 1]
  | 2 => [0, 1, 2]
  | _ => [3]

/-! ### Descriptors (R202, R203, R205, R206) -/

/-- Fields of buffer entry words. -/
def bSize (a : Nat) : Nat := bitsOf a 0 24
def bLmax (a : Nat) : Nat := bitsOf a 24 2
def bKind (a : Nat) : Nat := bitsOf a 26 2
def bUsed (a : Nat) : Bool := bKind a == 3 || bSize a != 0

/-- Whether word `k` of a descriptor violates the table of R202; `d` reads its words. -/
def State.descWordBad (s : State) (d : Nat → Nat) (k : Nat) : Bool :=
  let w := d k
  match k with
  | 0 => bitsOf w 0 8 != 1 || bitsOf w 14 18 != 0
  | 1 => match s.region w with
    | .dram | .central | .exchange => false
    | _ => true
  | 2 => w < 64 || 0x100000 < w
  | 3 => bitsOf w 4 28 != 0 || (bitsOf w 3 1 == 1 && 5 < bitsOf w 0 3)
  | 4 => bitsOf w 21 11 != 0
  | 5 => w != 0 && w < 10000
  | 6 => d 5 != 0 && d 5 ≤ w
  | 7 => bitsOf w 3 29 != 0
  | 8 => d 5 != 0 && w == 0
  | 9 => d 8 != 0 && d 8 ≤ w
  | 10 => w % 64 != 0 || w < 64 || 262144 < w
  | 11 => bitsOf w 12 12 == 0 || bitsOf w 24 2 == 3 || bitsOf w 26 6 != 0
  | 12 => false
  | 13 => false
  | 14 => w != 0
  | 15 => w != 0
  | _ =>
    if 26 ≤ k then w != 0
    else if k % 2 = 0 then (bKind w != 3 && bitsOf w 0 6 != 0) || bitsOf w 28 4 != 0
    else bitsOf w 9 23 != 0 ||
      (bKind (d (k - 1)) == 3 && !(s.reg (PLM_BRES (bitsOf w 0 8) 1)).getLsbD 2)

/-- The first word of a descriptor that violates R202. -/
def State.descBad (s : State) (d : Nat → Nat) : Option Nat := (List.range 32).find? (s.descWordBad d)

/-- The size of a channel's private area (R204). -/
def privSize (statesz w11 : Nat) : Nat := pow2up (2 * statesz + bitsOf w11 0 12 * 64 + bitsOf w11 12 12 * 64)

/-- The register windows of a descriptor's bindings in order (R206): base, log2 of the size, and whether it is the bridge's. -/
def windows (w4 : Nat) : List (Nat × Nat × Bool) :=
  ((List.range 6).filter fun p => bitsOf w4 p 1 == 1).map (fun p => (0x60080000 + 0x1000 * p, 12, false)) ++
    (if bitsOf w4 6 1 == 1 then [(0x600C0000, 16, false)] else []) ++
    (if bitsOf w4 7 1 == 1 then [(0x600D0000, 16, false)] else []) ++
    ((List.range 4).filter fun n => bitsOf w4 (8 + n) 1 == 1).map (fun n => (0x600E0000 + 0x1000 * n, 12, false)) ++
    (if bitsOf w4 12 1 == 1 then [(0x80000000, 31, true)] else []) ++
    ((List.range 8).filter fun c => bitsOf w4 (13 + c) 1 == 1).map (fun c => (0x60060000 + 0x1000 * c, 12, false))

/-- The used buffer entries of a descriptor: index, words A and B. -/
def usedBufs (d : Nat → Nat) : List (Nat × Nat × Nat) :=
  ((List.range 5).map fun i => (i, d (16 + 2 * i), d (17 + 2 * i))).filter fun q => bUsed q.2.1

/-- The number of bound items of a descriptor whose home tower is `t`: the lane counts as two (R26, R209). -/
def homeScore (d : Nat → Nat) (t : Nat) : Nat :=
  let w4 := d 4
  let eth (p : Nat) : Nat := bitsOf w4 p 1
  let lane := if bitsOf (d 3) 3 1 = 1 && bitsOf (d 3) 0 3 / 2 = t then 2 else 0
  lane + (if t < 3 then eth (2 * t) + eth (2 * t + 1) else ((List.range 15).map fun k => bitsOf w4 (6 + k) 1).sum)

/-! ### Engine choice (R209, R214) -/

/-- Tower and engine for a new channel: the highest score with an engine beyond the reserve, ties to the lowest tower; the
lowest-numbered free engine. -/
def State.pickNew (s : State) (d : Nat → Nat) (cc : Bool) : Option Nat :=
  let ok (t : Nat) : Bool := Nat.blt (s.rc t cc) ((towerEngines t cc).filter s.counts).length && (towerEngines t cc).any s.engineFree
  let best := ([0, 1, 2, 3].filter ok).foldl (fun (b : Option Nat) t =>
    match b with
    | none => some t
    | some u => if homeScore d u < homeScore d t then some t else some u) none
  best.bind fun t => (towerEngines t cc).find? s.engineFree

/-- The target of a migration: the lowest-numbered free engine of the class in the source tower, reserve included; with XT the
best-scored other tower (R214). `skip` is excluded. -/
def State.pickTarget (s : State) (d : Nat → Nat) (cc xt : Bool) (t skip : Nat) : Option Nat :=
  let free (n : Nat) : Bool := s.engineFree n && n != skip
  match (towerEngines t cc).find? free with
  | some n => some n
  | none =>
    if !xt then none
    else
      let ts := [0, 1, 2, 3].filter fun u => u != t && (towerEngines u cc).any free
      let best := ts.foldl (fun (b : Option Nat) u =>
        match b with
        | none => some u
        | some v => if homeScore d v < homeScore d u then some u else some v) none
      best.bind fun u => (towerEngines u cc).find? free

/-! ### Protection windows and control blocks (R206, R207) -/

/-- Programs region `k` of engine `n`: base, log2 of the size, rights. -/
def State.mpuSet (s : State) (n k base lg : Nat) (rd wr : Bool) : State :=
  (s.setReg (SYS_E_MPU_BASE n k) (word (base / 32 * 32))).setReg (SYS_E_MPU_ATTR n k)
    (word (1 + 2 * bit rd + 4 * bit wr + 256 * lg))

/-- Address of field `o` of the control block of engine `n` (R204). -/
def State.ecb (s : State) (n o : Nat) : Nat := (s.reg PLM_LXBASE).toNat + 0x40 * n + o

/-- A Keep write of a field of the control block of engine `n`. -/
def State.ecbPut (s : State) (n o v : Nat) : State := s.setMemWord (s.ecb n o) (word v)

/-- A field of the control block of engine `n`. -/
def State.ecbGet (s : State) (n o : Nat) : Nat := (s.memWord (s.ecb n o)).toNat

/-- ROLE codes. -/
def roleWord (role peer : Nat) (peerv : Bool) (c : Nat) : Nat := role + peer * 8 + bit peerv * 256 + c * 65536

/-- The windows of engine `n` for a channel record (R206): `primary` rights or those of shadow, audit and vote. -/
def State.protect (s : State) (n : Nat) (x : Chan) (primary : Bool) : State :=
  let s := s.mpuSet n 0 (s.reg PLM_LXBASE).toNat 11 true false
  let s := s.mpuSet n 1 (s.ecb n 0) 6 true true
  let s := s.mpuSet n 2 x.priv (Nat.log2 (privSize (x.w 10) (x.w 11))) true true
  let bufs := (usedBufs x.w).map fun (i, a, b) =>
    let decl := bKind a == 3
    let sz := if decl then bSize (s.reg (PLM_BDECL (bitsOf b 0 8) 0)).toNat else bSize a
    (x.bufs.getD i 0, Nat.log2 (pow2up sz), true, bKind a != 1 && (!decl || bitsOf b 8 1 == 1), false)
  let wins := (windows (x.w 4)).map fun (b, lg, br) => (b, lg, true, primary, br && !primary)
  let s := ((bufs ++ wins).zipIdx).foldl (fun s (q, j) =>
    let (b, lg, rd, wr, off) := q
    if off then s.setReg (SYS_E_MPU_ATTR n (3 + j)) 0 else s.mpuSet n (3 + j) b lg rd wr) s
  s.setReg (SYS_E_MPU_CTL n) 1

/-- The addresses of a channel record in the control block of engine `n` (R207). -/
def State.ecbAddrs (s : State) (n : Nat) (x : Chan) : State :=
  (List.range 5).foldl (fun s i => s.ecbPut n (0x2C + 4 * i) (x.bufs.getD i 0)) (s.ecbPut n 0x28 x.priv)

/-- The role of engine `n` for channel `c`, with EV7 (R207). -/
def State.ecbRole (s : State) (n role peer : Nat) (peerv : Bool) (c hcyc : Nat) : State :=
  ((s.ecbPut n 0 (roleWord role peer peerv c)).ecbPut n 4 hcyc).ev7 n

/-! ### Loading (R172, R203, R214) -/

/-- The program words of a channel record loaded onto engine `n` from word 0, and the initial register state: the values of R47
with the PC from program word 0 (PRESUMED, log entry 16). False where the image cannot be read. -/
def State.loadEngine (s : State) (n : Nat) (x : Chan) : Bool × State :=
  match s.moverRead .loader x.code (2 * x.words) with
  | (_, some _, s) => (false, s)
  | (l, none, s) =>
    let s := ((codeWords l 0 x.words).zipIdx).foldl (fun s (w, j) => (s.setProgWord n j w).freshGranule (progAddr n j)) s
    let s := s.setFlag (PLM_ENG n) PLM_ENG_LOADED true
    (true, s.updEng n fun g => { g.zero (s.progWord n 0) with clken := true })

/-- The Keep runs, or halts, engine `n`. -/
def State.keepRun (s : State) (n : Nat) (on : Bool) : State := (s.updEng n fun g => { g with clken := true }).writeRun n on

/-- The Keep frees engine `n`: halted, role 0, image kept loaded. -/
def State.freeEngine (s : State) (n : Nat) : State := (s.keepRun n false).setRole n 0 0

/-- Calendar entry of engine `n`'s cycle event (DESIGN CHOICE within entries 1,920-2,047, log entry 17). -/
def cycleEntry (n : Nat) : Nat := 1920 + n

/-- Programs the cycle event of engine `n` for a channel record (R208). -/
def State.cycleOn (s : State) (n : Nat) (x : Chan) : State :=
  if x.w 5 = 0 then s else s.calCycle (cycleEntry n) (x.w 7) (x.w 8) (x.w 9) n

/-! ### Placing a channel (R209, R210) -/

/-- The class of the memory at address `a` (R210). -/
def State.classAt (s : State) (a : Nat) : Nat :=
  match s.region a with
  | .tower => 0
  | .central => 1
  | .exchange => 3
  | _ => 2

/-- Whether `n` bytes at `a` reach into an evacuated range (base, length); the empty range holds nothing. -/
def moves (range : Nat × Nat) (a n : Nat) : Bool := overlap a n range.1 range.2

/-- Places the buffers of a record for owner `own`: addresses and classes; none where one fits nowhere. With an evacuated range, for a
migration: what lies in it is placed anew (R229), an OUT buffer outside it gets a scratch copy of its size and class (R206), the
others keep their place. -/
def State.placeBufs (s : State) (own t : Nat) (x : Chan) (rsv : Bool) (range : Option (Nat × Nat)) :
    List (Nat × Nat × Nat) → Option (List (Nat × Nat × Nat) × State)
  | [] => some ([], s)
  | (i, a, b) :: rest =>
    let next (addr cls : Nat) (s : State) : Option (List (Nat × Nat × Nat) × State) :=
      (State.placeBufs s own t x rsv range rest).map fun (l, s) => ((i, addr, cls) :: l, s)
    if bKind a = 3 then
      let u := bitsOf b 0 8
      next (s.reg (PLM_BRES u 0)).toNat (bitsOf (s.reg (PLM_BRES u 1)).toNat 0 2) s
    else
      let cur := x.bufs.getD i 0
      let stays := match range with
        | none => false
        | some q => !moves q cur (bSize a)
      if stays && bKind a != 2 then next cur (s.classAt cur) s
      else
      match s.placeItem own t x.cc rsv (pow2up (bSize a)) (if stays then [s.classAt cur] else classesOf (bLmax a)) with
      | none => none
      | some (c, ad, s) => next ad c s

/-- The address of entry `i` among placed buffers. -/
def bufAddrs (l : List (Nat × Nat × Nat)) : List Nat :=
  (List.range 5).map fun i => match l.find? fun q => q.1 == i with
    | some q => q.2.1
    | none => 0

/-- Result words 2-9 and the engine fields for a channel record on engine `n`: addresses, sizes, the classes of the memories that
hold them, and whether a lane is attached from outside its home tower (R201). -/
def State.showWords (s : State) (c n : Nat) (x : Chan) : State :=
  let s := ((s.resFld c 0 rENG n).resFld c 0 rENGV 1)
  let s := (s.setReg (PLM_RES c 2) (word x.priv)).setReg (PLM_RES c 3) (word (privSize (x.w 10) (x.w 11)))
  let s := (List.range 5).foldl (fun s i => s.setReg (PLM_RES c (4 + i)) (word (x.bufs.getD i 0))) s
  let cls := ((usedBufs x.w).map fun q => s.classAt (x.bufs.getD q.1 0) * 4 ^ q.1).sum
  let s := s.setReg (PLM_RES c 9) (word (cls + s.classAt x.priv * 1024))
  s.resFld c 0 rREMOTE (if (x.w 3).testBit 3 && n / 8 != bitsOf (x.w 3) 0 3 / 2 then 1 else 0)

/-- The references of a record's declared buffers change by one (PLM_BRES word 1 [15:8]). -/
def State.refBufs (s : State) (x : Chan) (up : Bool) : State :=
  (usedBufs x.w).foldl (fun s (_, a, b) =>
    if bKind a = 3 then
      let r := PLM_BRES (bitsOf b 0 8) 1
      let n := s.fld r ⟨8, 8⟩
      s.setFld r ⟨8, 8⟩ (if up then n + 1 else n - 1)
    else s) s

/-- Attaches the primary of a lane channel (R202 word 3, R189). -/
def State.attachLane (s : State) (n : Nat) (x : Chan) : State :=
  if (x.w 3).testBit 3 then
    let l := bitsOf (x.w 3) 0 3
    laneCtlWrite .keep l ((s.reg (ETH_LANE_CTL l) &&& 0xFFFEFFC0) ||| word (n + 32)) s
  else s

/-- Places channel `c` with record `x` (R209): result code 0 on success, else NO_ENGINE or NO_FIT with nothing taken. -/
def State.placeChan (s : State) (c : Nat) (x : Chan) : Nat × State :=
  match s.pickNew x.w x.cc with
  | none => (0x21, s)
  | some n =>
    let t := n / 8
    match s.placeItem c t x.cc false (privSize (x.w 10) (x.w 11)) (classesOf (min 2 (bitsOf (x.w 11) 24 2))) with
    | none => (0x20, s)
    | some (_, pa, s1) =>
      match s1.placeBufs c t x false none (usedBufs x.w) with
      | none => (0x20, s)
      | some (l, s2) =>
        let x := { x with eng := n, priv := pa, bufs := bufAddrs l, st := 1 }
        match s2.loadEngine n x with
        | (false, _) => (0x15, s)
        | (true, s3) =>
          let s := ((s3.updChan c fun _ => x).setRole n 1 c).refBufs x true
          let s := ((s.protect n x true).ecbAddrs n x).ecbRole n 0 0 false c 0
          (0, ((s.result' c fun s => s.showWords c n x).attachLane n x).chanState c 1)

/-- Undeclares channel `c` and frees all its resources (R212). -/
def State.releaseChan (s : State) (c : Nat) : State :=
  let x := s.chan c
  let s := if x.st = 5 then s else ((s.calOff (cycleEntry x.eng)).freeEngine x.eng).refBufs x false
  let s := if (x.w 3).testBit 3 && x.st != 5 then
      laneCtlWrite .keep (bitsOf (x.w 3) 0 3) (s.reg (ETH_LANE_CTL (bitsOf (x.w 3) 0 3)) &&& 0xFFFEDFDF) s
    else s
  let s := (s.freeItems c).updChan c fun _ => Chan.init
  s.result' c fun s => (List.range 8).foldl (fun s w => s.setReg (PLM_RES c (2 + w)) 0)
    (((((s.resFld c 0 rSTATE 0).resFld c 0 rENGV 0).resFld c 0 rPHASE 0).resFld c 0 rDISPLACED 0).resFld c 0 rREMOTE 0)

end Sys2Proof.Machine
end

