-- ==== Sys2Proof/Machine/Plm.lean ====
section
/-! DEFINITION. The Keep's commands and the events of placement and migration (R193-R231). A command of the host is the oldest
word that the Keep holds; a row of the table executes it only where it is that row's command.
Choices of the model: log entries 21, 30, 35, 36, 39, 50, 101, 102. -/

set_option autoImplicit false

namespace Sys2Proof.Machine

open Sys2Proof

/-! ### The command at the front of the Keep's queue (R191, R193, R197) -/

/-- The oldest command leaves the queue; a place is free for the next (R193). -/
def State.popCmd (s : State) : State := { s with cmdq := s.cmdq.drop 1 }.showQueues.keepRead

/-- Fields of a command word. -/
def cOp (w : Word) : Nat := bitsOf w.toNat 0 8
def cTag (w : Word) : Nat := bitsOf w.toNat 8 8
def cObj (w : Word) : Nat := bitsOf w.toNat 16 8
def cArg (w : Word) : Nat := bitsOf w.toNat 24 8

/-- Unknown commands at the front are answered BAD_OP (R197). -/
def State.dropBad (s : State) : Nat → State
  | 0 => s
  | fuel + 1 =>
    match s.cmdq with
    | [] => s
    | w :: _ =>
      if 1 ≤ cOp w && cOp w ≤ 9 then s else State.dropBad (s.popCmd.respond 0x10 (cTag w) (cObj w) 0) fuel

/-- Executes the oldest command if it is one that `want` accepts (OP, OBJ, ARG); `f` gets TAG, OBJ, ARG. -/
def withCmd (want : Nat → Nat → Nat → Bool) (f : Nat → Nat → Nat → State → State) (s : State) : State :=
  let s := s.dropBad 8
  match s.cmdq with
  | [] => s
  | w :: _ => if want (cOp w) (cObj w) (cArg w) then f (cTag w) (cObj w) (cArg w) s.popCmd else s

/-- Whether channel `c` has an open command: a start, a migration or an update (R193). -/
def State.chanBusy (s : State) (c : Nat) : Bool := (s.chan c).startTag != 0 || (s.mig c).isSome

/-! ### CHANNEL_DECLARE (R197, R202, R203, R209) -/

/-- Whether lane or ports of a descriptor conflict (R203). -/
def State.portConflict (s : State) (c : Nat) (d : Nat → Nat) : Bool :=
  let svc := (s.reg ETH_COM_SVC).toNat
  let l := bitsOf (d 3) 0 3
  let lane := (d 3).testBit 3
  (lane && (svc.testBit (laneIn l) || svc.testBit (laneOut l) ||
      s.plm.chans.any fun q => q.1 != c && q.2.st != 0 && (q.2.w 3).testBit 3 && bitsOf (q.2.w 3) 0 3 == l)) ||
    (d 5 != 0 && (List.range 6).any fun p => (d 4).testBit p && svc.testBit p)

/-- The image at `a`, `n` bytes, verified for a channel (R203, R587): result code, INFO, container. -/
def State.readImage (s : State) (a n : Nat) : Nat × List Byte × State :=
  match s.moverRead .keep a n with
  | (_, some _, s) => (0x15, [], s)
  | (l, none, s) =>
    if s.verify l n != 0 then (0x15, [], s)
    else if cProfile l = 1 then (0x16, [], s)
    else if cProfile l != 0 || (cModule l 1).isNone then (0x15, [], s)
    else (0, l, s)

/-- The record of channel `c` from its descriptor slot: result code and INFO, 0 where it is valid. -/
def State.readChan (s : State) (c : Nat) : Nat × Nat × Chan × State :=
  let d (k : Nat) : Nat := (s.reg (PLM_DESC c k)).toNat
  match s.descBad d with
  | some k => (0x14, k, Chan.init, s)
  | none =>
    match s.readImage (d 1) (d 2) with
    | (0, l, s) =>
      let x : Chan := { Chan.init with
        cc := (d 0).testBit 8 || cUsesDo l || cUsesLane l
        desc := (List.range 32).map fun k => word (d k)
        code := d 1 + ((cModule l 1).map fun m => m.ofs).getD 0
        words := cCodewords l, conv := cConv l, layout := cLayout l }
      if cUsesLane l && !(d 3).testBit 3 then (0x14, 3, x, s)
      else if s.portConflict c d then (0x17, 0, x, s)
      else if 5 < (usedBufs d).length + (windows (d 4)).length then (0x18, 0, x, s)
      else (0, 0, x, s)
    | (r, _, s) => (r, 0, Chan.init, s)

/-- CHANNEL_DECLARE of one channel (R197, R212). -/
def channelDeclare (s : State) : State :=
  withCmd (fun op obj _ => op == 1 && obj != 0xFF) (fun tag c arg s =>
    if 63 < c then s.respond 0x11 tag c 0
    else if arg / 2 != 0 then s.respond 0x12 tag c 0
    else if (s.chan c).st != 0 then s.respond 0x13 tag c 0
    else
      match s.readChan c with
      | (0, _, x, s) =>
        if arg = 1 then
          let s := s.updPlm fun p => { p with seq := p.seq + 1 }
          let s := (s.updChan c fun _ => { x with seq := s.plm.seq }).chanState c 5
          s.plmSync.final 0 tag c 0
        else
          let (r, s) := s.placeChan c x
          s.plmSync.final r tag c 0
      | (r, info, _, s) => s.final r tag c info) s

/-- CHANNEL_DECLARE (R209). -/
def execChannelDeclare (s : State) : Host.Outcome State Fault Refusal := .next (channelDeclare s)

/-- The deferred channels in the order of R209: class C first, then ascending CYCLE_NS with acyclic last, then DEFER order. -/
def State.deferred (s : State) : List (Nat × Chan) :=
  let key (x : Chan) : Nat := (if x.cc then 0 else 2 ^ 80) + (if x.w 5 = 0 then 2 ^ 40 else x.w 5) * 2 ^ 32 + x.seq
  (s.plm.chans.filter fun q => q.2.st == 5).mergeSort fun a b => Nat.ble (key a.2) (key b.2)

/-- CHANNEL_DECLARE with OBJ 0xFF (R209): the deferred channels are placed one by one; INFO counts those that failed. -/
def deferredCommit (s : State) : State :=
  withCmd (fun op obj _ => op == 1 && obj == 0xFF) (fun tag obj arg s =>
    if arg / 2 != 0 then s.respond 0x12 tag obj 0
    else
      let (n, s) := s.deferred.foldl (fun (n, s) (c, x) =>
        match s.placeChan c x with
        | (0, s) => (n, s.result' c fun s => s.resFld c 0 rLASTRES 0)
        | (r, s) => (n + 1, ((s.updChan c fun _ => Chan.init).chanState c 0).result' c fun s => s.resFld c 0 rLASTRES r)) (0, s)
      s.plmSync.respond 0 tag obj n) s

/-- DEFERRED_COMMIT (R209). -/
def execDeferredCommit (s : State) : Host.Outcome State Fault Refusal := .next (deferredCommit s)

/-! ### Start and stop (R212) -/

/-- CYCLE_NS of a channel, and a state copy's time C(S) in ns (R216). -/
def copyTime (sz : Nat) : Nat := 32000 * sz / 262144

/-- The engine of channel `c` starts in role PRIMARY (R208, R212): DONE := 0xFFFF_FFFF unless it resumes. -/
def State.startChan (s : State) (c : Nat) (resume : Bool) : State :=
  let x := s.chan c
  let s := if resume then s else s.ecbPut x.eng 0x10 0xFFFFFFFF
  let hc := if resume then (s.ecbGet x.eng 0x10 + 1) % 2 ^ 32 else 0
  let s := ((s.ecbPut x.eng 0x0C 0xFFFFFFFF).ecbPut x.eng 8 0).ecbRole x.eng 1 0 false c hc
  (s.cycleOn x.eng x).keepRun x.eng true

/-- A FAILED channel takes a spare engine again (R212): none where there is none. -/
def State.respare (s : State) (c : Nat) : Option State :=
  let x := s.chan c
  match s.pickTarget x.w x.cc true (x.eng / 8) 99 with
  | none => none
  | some n =>
    match s.loadEngine n x with
    | (false, _) => none
    | (true, s) =>
      let s := (s.setRole n 1 c).updChan c fun y => { y with eng := n }
      some (((s.protect n x true).ecbAddrs n x).result' c fun s => (s.resFld c 0 rENG n).resFld c 0 rENGV 1)

/-- CHANNEL_START (R212). -/
def channelStart (s : State) : State :=
  withCmd (fun op _ _ => op == 2) (fun tag c arg s =>
    let x := s.chan c
    if 63 < c || x.st = 0 then s.respond 0x11 tag c 0
    else if arg / 2 != 0 then s.respond 0x12 tag c 0
    else if s.chanBusy c then s.respond 0x22 tag c 0
    else
      let go (s : State) : State :=
        ((s.startChan c (arg == 1)).updChan c fun y => { y with startTag := tag + 1 }).respond 1 tag c 0
      if x.st = 1 || x.st = 4 then go s
      else if x.st = 6 then
        match s.respare c with
        | some s => go s
        | none => s.final 0x21 tag c 0
      else s.respond 0x13 tag c 0) s

/-- CHANNEL_START (R212). -/
def execChannelStart (s : State) : Host.Outcome State Fault Refusal := .next (channelStart s)

/-- The first cycle start after CHANNEL_START (R212): RUNNING, and the final response. -/
def channelRunning (c : Nat) (s : State) : State :=
  let x := s.chan c
  if x.startTag = 0 then s
  else (((s.updChan c fun y => { y with startTag := 0 }).chanState c 2).plmSync).final 0 (x.startTag - 1) c 0

/-- CHANNEL_RUNNING (R212). -/
def execChannelRunning (c : Fin 64) (s : State) : Host.Outcome State Fault Refusal := .next (channelRunning c s)

/-- Frees the target of channel `c`'s open migration and closes it with result `res` (R215, R219): the source stays primary. -/
def State.dropTarget (s : State) (c : Nat) (m : Mig) : State :=
  let s := ((s.calOff (cycleEntry m.dst)).freeEngine m.dst).freeItems (64 + c)
  let s := if ((s.chan c).w 3).testBit 3 then
      let l := bitsOf ((s.chan c).w 3) 0 3
      laneCtlWrite .keep l (s.reg (ETH_LANE_CTL l) &&& 0xFFFEDFFF) s
    else s
  let s := if m.phase = 6 || m.hold then s.ecbRole m.src 1 0 false c m.k else s
  s.updPlm fun p => { p with migs := p.migs.filter fun q => q.ch != c }

/-- An open migration ends without effect on the source (R215, R219). -/
def State.endMig (s : State) (c res : Nat) (m : Mig) : State :=
  let s := ((s.dropTarget c m).chanState c 2).phase c 0
  match m.kind with
  | .clear => if m.tag < 256 then s.plmSync.respond 0x22 m.tag m.src 0 else s.plmSync
  | .evacuate => s.plmSync
  | _ => s.plmSync.final res m.tag c 0

/-- CHANNEL_STOP (R197, R212, R215). -/
def channelStop (s : State) : State :=
  withCmd (fun op _ _ => op == 3) (fun tag c arg s =>
    let x := s.chan c
    if 63 < c || x.st = 0 then s.respond 0x11 tag c 0
    else if arg / 2 != 0 then s.respond 0x12 tag c 0
    else if x.startTag != 0 then s.respond 0x22 tag c 0
    else if x.st = 2 || x.st = 3 then
      let s := match s.mig c with
        | some m => if m.committed then s else s.endMig c 3 m
        | none => s
      let e := match s.mig c with
        | some m => m.dst
        | none => (s.chan c).eng
      let s := s.ecbRole e 5 0 false c ((s.ecbGet e 0x10 + 2) % 2 ^ 32)
      (s.updChan c fun y => { y with stopReq := true, release := arg == 1 }).final 0 tag c 0
    else if arg = 1 && (x.st = 1 || x.st = 4 || x.st = 5 || x.st = 6) then (s.releaseChan c).plmSync.final 0 tag c 0
    else s.respond 0x13 tag c 0) s

/-- CHANNEL_STOP (R212). -/
def execChannelStop (s : State) : Host.Outcome State Fault Refusal := .next (channelStop s)

/-- At the end of the current cycle the engine is halted and stays loaded (R212); RELEASE frees it. -/
def channelStopped (c : Nat) (s : State) : State :=
  let x := s.chan c
  if x.stopReq then
    let s := (s.calOff (cycleEntry x.eng)).keepRun x.eng false
    let s := (s.updChan c fun y => { y with stopReq := false }).chanState c 4
    (if x.release then s.releaseChan c else s).plmSync
  else s

/-- CHANNEL_STOPPED (R212). -/
def execChannelStopped (c : Fin 64) (s : State) : Host.Outcome State Fault Refusal := .next (channelStopped c s)

/-! ### Buffers, reserve, query, LX pool (R197, R200, R204, R205, R210, R213) -/

/-- The first invalid word of a declaration (R205). -/
def declBad (a b : Nat) : Option Nat :=
  if bitsOf a 0 6 != 0 || bitsOf a 28 4 != 0 || bSize a = 0 || bKind a = 3 || bLmax a = 0 then some 0
  else if bitsOf b 9 23 != 0 then some 1
  else none

/-- A response to BUFFER_DECLARE of buffer `u`, with LASTRES (R199). -/
def State.bufFinal (s : State) (res tag u info : Nat) : State := (s.setFld (PLM_BRES u 1) ⟨16, 8⟩ res).respond res tag u info

/-- BUFFER_DECLARE (R205, R210). -/
def bufferDeclare (s : State) : State :=
  withCmd (fun op _ _ => op == 6) (fun tag u arg s =>
    let placed := (s.reg (PLM_BRES u 1)).getLsbD 2
    if arg / 2 != 0 then s.respond 0x12 tag u 0
    else if arg = 1 then
      if !placed || s.fld (PLM_BRES u 1) ⟨8, 8⟩ != 0 then s.bufFinal 0x13 tag u 0
      else
        let s := ((s.freeItems (128 + u)).setReg (PLM_BRES u 0) 0).setReg (PLM_BRES u 1) 0
        s.plmSync.bufFinal 0 tag u 0
    else if placed then s.bufFinal 0x13 tag u 0
    else
      let a := (s.reg (PLM_BDECL u 0)).toNat
      match declBad a (s.reg (PLM_BDECL u 1)).toNat with
      | some k => s.bufFinal 0x14 tag u k
      | none =>
        match s.placeItem (128 + u) 0 true false (pow2up (bSize a)) ((classesOf (bLmax a)).filter fun c => c != 0) with
        | none => s.bufFinal 0x20 tag u 0
        | some (c, ad, s) =>
          let s := (s.setReg (PLM_BRES u 0) (word ad)).setReg (PLM_BRES u 1) (word (c + 4))
          s.plmSync.bufFinal 0 tag u 0) s

/-- BUFFER_DECLARE (R210). -/
def execBufferDeclare (s : State) : Host.Outcome State Fault Refusal := .next (bufferDeclare s)

/-- RESERVE_SET (R213). -/
def reserveSet (s : State) : State :=
  withCmd (fun op _ _ => op == 7) (fun tag obj arg s =>
    if obj != 0 then s.respond 0x11 tag obj 0
    else if arg != 0 then s.respond 0x12 tag obj 0
    else (s.updPlm fun p => { p with reserve := s.reg PLM_RSV }).plmSync.respond 0 tag obj 0) s

/-- RESERVE_SET (R213). -/
def execReserveSet (s : State) : Host.Outcome State Fault Refusal := .next (reserveSet s)

/-- QUERY (R197, R200): the channel's STATE, or the number of channels in FAILED; word 12 is read again, DONE shown. -/
def query (s : State) : State :=
  withCmd (fun op _ _ => op == 9) (fun tag obj arg s =>
    if arg != 0 then s.respond 0x12 tag obj 0
    else if obj = 0xFF then s.respond 0 tag obj (s.plm.chans.filter fun q => q.2.st == 6).length
    else if 63 < obj then s.respond 0x11 tag obj 0
    else
      let x := s.chan obj
      let s := if x.st = 0 then s
        else
          let s := s.updChan obj fun y => { y with desc := y.desc.set 12 (s.reg (PLM_DESC obj 12)) }
          if x.st = 5 then s else s.result' obj fun s => s.setReg (PLM_RES obj 10) (word (s.ecbGet x.eng 0x10))
      s.respond 0 tag obj x.st) s

/-- QUERY (R197). -/
def execQuery (s : State) : Host.Outcome State Fault Refusal := .next (query s)

/-- Whether initiator `i` is the host or the Keep (R199). -/
def hostOrKeep (i : Init) : Bool := i == .pcie || i == .localBus || i == .keep

/-- Whether LXBASE `b` and LXSIZE `n` form a valid pool (R204). -/
def poolOk (b n : Nat) : Bool :=
  Nat.ble 0x4C000000 b && n % 4096 == 0 && Nat.ble 4096 n && Nat.ble (b + n) 0x4C040000

/-- A write of PLM_LXBASE or PLM_LXSIZE (R199, R204). -/
def plmLxPoolWrite (i : Init) (size : Bool) (v : Word) (s : State) : State :=
  if !hostOrKeep i then s.answer .busError
  else
    let a := if size then PLM_LXSIZE else PLM_LXBASE
    let b := if size then (s.reg PLM_LXBASE).toNat else v.toNat
    let n := if size then v.toNat else (s.reg PLM_LXSIZE).toNat
    let quiet := s.plm.chans.all (fun q => q.2.st == 0) && s.plm.allocs.all fun x => !(Nat.ble 128 x.own && Nat.blt x.own 384)
    if s.reg a = v then s.answer .ok
    else if !quiet || !poolOk b n then s.answer .busError
    else (s.setReg a v).answer .ok

/-- PLM_LX_POOL_WRITE (R204). -/
def execPlmLxPoolWrite (i : Init) (size : Bool) (v : Word) (s : State) : Host.Outcome State Fault Refusal :=
  .next (s.gate i (if size then PLM_LXSIZE else PLM_LXBASE) (plmLxPoolWrite i size v))

/-! ### Migration (R214-R223) -/

/-- Opens a migration of channel `c` with target record `x` (class, image, descriptor): the target chosen and its areas taken.
An update with a changed state takes a scratch area for the old state (R223); items in `range` move (R229). Result code, state. -/
def State.openMig (s : State) (c tag : Nat) (kind : MigKind) (xt cmp : Bool) (x : Chan) (conv : Bool) (skip : Nat)
    (range : Nat × Nat := (0, 0)) : Nat × State :=
  let cur := s.chan c
  match s.pickTarget x.w x.cc xt (cur.eng / 8) skip with
  | none => (0x21, s)
  | some n =>
    let t := n / 8
    match s.placeItem (64 + c) t x.cc (t == cur.eng / 8) (privSize (x.w 10) (x.w 11)) (classesOf (min 2 (bitsOf (x.w 11) 24 2))) with
    | none => (0x20, s)
    | some (_, pa, s1) =>
      match s1.placeBufs (64 + c) t { x with bufs := cur.bufs } (t == cur.eng / 8) (some range)
          (usedBufs x.w) with
      | none => (0x20, s)
      | some (l, s2) =>
        let fin (scr : Nat) (s2 : State) : Nat × State :=
          let m : Mig := ⟨c, tag, kind, 1, cur.eng, n, xt, cmp, { x with eng := n, priv := pa, bufs := bufAddrs l, st := 2 }, scr, 0,
            false, 0, 0, conv, false, false, range⟩
          (0, (((s2.updPlm fun p => { p with migs := p.migs ++ [m] }).setRole n 2 c).chanState c 3).phase c 1)
        if conv then
          match s2.placeItem (64 + c) t x.cc true (pow2up (cur.w 10)) [0, 1, 2] with
          | none => (0x20, s)
          | some (_, sa, s3) => fin sa s3
        else fin 0 s2

/-- CHANNEL_MIGRATE (R212, R214). -/
def channelMigrate (s : State) : State :=
  withCmd (fun op _ arg => op == 4 && arg < 128) (fun tag c arg s =>
    let x := s.chan c
    if 63 < c || x.st = 0 then s.respond 0x11 tag c 0
    else if arg / 2 != 0 then s.respond 0x12 tag c 0
    else if s.chanBusy c then s.respond 0x22 tag c 0
    else if x.st != 2 || x.stopReq then s.respond 0x13 tag c 0
    else
      match s.openMig c tag .migrate (arg == 1) true x false 99 with
      | (0, s) => (s.respond 1 tag c 0).plmSync
      | (r, s) => s.final r tag c 0) s

/-- CHANNEL_MIGRATE (R214). -/
def execChannelMigrate (s : State) : Host.Outcome State Fault Refusal := .next (channelMigrate s)

/-- CHANNEL_MIGRATE or CHANNEL_UPDATE with ABORT (R215). -/
def migrationAbort (s : State) : State :=
  let named := match (s.dropBad 8).cmdq with
    | [] => 1
    | w :: _ => if cOp w = 5 then 4 else 2
  withCmd (fun op _ arg => (op == 4 || op == 5) && 128 ≤ arg) (fun tag c arg s =>
    if 63 < c || (s.chan c).st = 0 then s.respond 0x11 tag c 0
    else if arg % 128 / named != 0 then s.respond 0x12 tag c 0
    else
      match s.mig c with
      | none => s.respond 0x13 tag c 0
      | some m => if m.committed then s.respond 2 tag c 0 else (s.endMig c 3 m).respond 0 tag c 0) s

/-- MIGRATION_ABORT (R215). -/
def execMigrationAbort (s : State) : Host.Outcome State Fault Refusal := .next (migrationAbort s)

/-- CHANNEL_UPDATE (R223): words 1, 2, 10 and 11 are read again. -/
def channelUpdate (s : State) : State :=
  withCmd (fun op obj arg => op == 5 && obj != 0xFF && arg < 128) (fun tag c arg s =>
    let x := s.chan c
    if 63 < c || x.st = 0 then s.respond 0x11 tag c 0
    else if arg / 4 != 0 then s.respond 0x12 tag c 0
    else if s.chanBusy c then s.respond 0x22 tag c 0
    else if x.st != 2 || x.stopReq then s.respond 0x13 tag c 0
    else
      let d (k : Nat) : Nat :=
        if k = 1 || k = 2 || k = 10 || k = 11 then (s.reg (PLM_DESC c k)).toNat else x.w k
      match [1, 2, 10, 11].find? (s.descWordBad d) with
      | some k => s.final 0x14 tag c k
      | none =>
        match s.readImage (d 1) (d 2) with
        | (0, l, s) =>
          let y : Chan := { x with
            cc := (d 0).testBit 8 || cUsesDo l || cUsesLane l, desc := (List.range 32).map fun k => word (d k)
            code := d 1 + ((cModule l 1).map fun m => m.ofs).getD 0, words := cCodewords l, conv := cConv l
            layout := cLayout l }
          let changed := y.layout != x.layout || y.w 10 != x.w 10
          if changed && y.conv = 0 then s.final 0x14 tag c 1
          else
            match s.openMig c tag .update ((arg / 2) % 2 == 1) (arg % 2 == 1) y changed 99 with
            | (0, s) => (s.respond 1 tag c 0).plmSync
            | (r, s) => s.final r tag c 0
        | (r, _, s) => s.final r tag c 0) s

/-- CHANNEL_UPDATE (R223). -/
def execChannelUpdate (s : State) : Host.Outcome State Fault Refusal := .next (channelUpdate s)

/-- Prepare ends (R214): the target is loaded, restored and protected for role SHADOW; an image that cannot be read ends the
migration IMAGE_BAD. -/
def migrationPrepareDone (c : Nat) (s : State) : State :=
  match s.mig c with
  | some m =>
    if m.phase != 1 || m.k != 0 then s
    else
      match s.loadEngine m.dst m.tgt with
      | (false, s) => s.endMig c 0x15 m
      | (true, s) =>
        let s := ((s.protect m.dst m.tgt false).ecbAddrs m.dst m.tgt).calOff (cycleEntry m.dst)
        s.updMig c fun m => { m with phase := 1, k := 1 }
  | none => s

/-- MIGRATION_PREPARE_DONE (R214). -/
def execMigrationPrepareDone (c : Fin 64) (s : State) : Host.Outcome State Fault Refusal := .next (migrationPrepareDone c s)

/-- The source's DONE = k - 1 (R214, R216-R218): a plain copy where CYCLE_NS allows it, else the source holds from cycle k. -/
def stateCopyStart (c : Nat) (s : State) : State :=
  match s.mig c with
  | some m =>
    if m.phase != 1 || m.k = 0 then s
    else
      let x := s.chan c
      let k := (s.ecbGet m.src 0x10 + 1) % 2 ^ 32
      if x.w 5 != 0 && 30500 + copyTime (x.w 10) ≤ x.w 5 then s.updMig c fun m => { m with k := k, phase := 7 }
      else ((s.ecbRole m.src 4 m.dst true c k).phase c 6).updMig c fun m => { m with k := k, hold := true, phase := 6 }
  | none => s

/-- STATE_COPY_START (R216). -/
def execStateCopyStart (c : Fin 64) (s : State) : Host.Outcome State Fault Refusal := .next (stateCopyStart c s)

/-- A Keep copy of `n` bytes by the loader (R173); false where it fails. -/
def State.keepCopy (s : State) (src dst n : Nat) : Bool × State :=
  match s.moverRead .loader src n with
  | (l, none, s) =>
    match s.moverWrite .loader dst l with
    | (none, s) => (true, s)
    | (some _, s) => (false, s)
  | (_, some _, s) => (false, s)

/-- The state copy completes (R214, R217, R223): copy (k - 1) mod 2 of the source stands in both copies of the target, which
starts in role SHADOW; a hold ends with `skipped` cycles lost; an update with a changed state starts the conversion routine. -/
def stateCopyDone (c skipped : Nat) (s : State) : State :=
  match s.mig c with
  | some m =>
    if m.phase != 6 && m.phase != 7 then s
    else
      let x := s.chan c
      let old := x.priv + (m.k + 1) % 2 * x.w 10
      let done := (m.k + 2 ^ 32 - 1) % 2 ^ 32
      let lost := if m.hold && x.w 5 != 0 then skipped else 0
      let hc := (m.k + 0) % 2 ^ 32
      let s := (s.ecbPut m.dst 0x14 (s.ecbGet m.src 0x14)).ecbPut m.dst 0x18 (s.ecbGet m.src 0x18)
      let s := if m.hold then
          ((s.ecbPut m.src 0x24 lost).ecbPut m.dst 0x24 lost).ecbRole m.src 1 m.dst true c hc
        else s
      let r := if m.conv then s.keepCopy old m.scratch (x.w 10)
        else
          let (a, s) := s.keepCopy old m.tgt.priv (x.w 10)
          let (b, s) := s.keepCopy old (m.tgt.priv + x.w 10) (x.w 10)
          (a && b, s)
      let r := (usedBufs x.w).foldl (fun (ok, s) (i, a, _) =>
          if bKind a = 3 || !moves m.range (x.bufs.getD i 0) (bSize a) then (ok, s)
          else
            let (b, s) := s.keepCopy (x.bufs.getD i 0) (m.tgt.bufs.getD i 0) (bSize a)
            (ok && b, s)) r
      if !r.1 then r.2.endMig c 0x26 m
      else
        let s := (r.2.ecbPut m.dst 0x10 (if m.conv then 0xFFFFFFFF else done)).ecbRole m.dst 2 m.src true c hc
        let s := if m.conv then
            s.updEng m.dst fun g => { g with
              pc := BitVec.ofNat 14 m.tgt.conv
              a := (g.a.set 5 (word m.scratch)).set 6 (word (m.tgt.priv + (m.k + 1) % 2 * m.tgt.w 10))
              d := (g.d.set 0 (word x.layout)).set 1 (x.desc.getD 10 0) }
          else s
        let s := if (x.w 3).testBit 3 then
            let l := bitsOf (x.w 3) 0 3
            laneCtlWrite .keep l ((s.reg (ETH_LANE_CTL l) &&& 0xFFFEC0FF) ||| word (m.dst * 256 + 0x2000)) s
          else s
        ((s.keepRun m.dst true).phase c 2).updMig c fun m => { m with phase := 2, lost := m.lost + lost }
  | none => s

/-- STATE_COPY_DONE (R214). -/
def execStateCopyDone (c : Fin 64) (skipped : Nat) (s : State) : Host.Outcome State Fault Refusal :=
  .next (stateCopyDone c skipped s)

/-- SHCYC and SHMAX: 0 acts as 1 (R199). -/
def State.shcyc (s : State) : Nat := max 1 (s.fld PLM_CFG PLM_CFG_SHCYC)

/-- A transient error of both engines of a migration is reported (R219, R563 CMP). -/
def State.reportCmp (s : State) (a b : Nat) : State := (s.report 7 (resId 1 a) 0 a).report 7 (resId 1 b) 0 b

/-- A difference between the shadow and the source (R219): once more with the next eligible target, else COMPARE_FAIL. -/
def State.compareFail (s : State) (c : Nat) (m : Mig) : State :=
  let s := s.reportCmp m.src m.dst
  if m.retried then s.endMig c 0x24 m
  else
    match (s.dropTarget c m).openMig c m.tag m.kind m.xt m.cmp m.tgt m.conv m.dst m.range with
    | (0, s) => s.updMig c fun q => { q with retried := true }
    | (_, _) => s.endMig c 0x24 m

/-- A shadow cycle is compared (R214, R220, R223): REL follows both DONE; an equal compare with the target in step and SHCYC
cycles done selects H. -/
def shadowCompare (c : Nat) (inStep : Bool) (s : State) : State :=
  match s.mig c with
  | some m =>
    let ds := s.ecbGet m.src 0x10
    let dt := s.ecbGet m.dst 0x10
    if (m.phase != 2 && m.phase != 3) || (m.conv && (dt = 0xFFFFFFFF || dt = 0xFFFFFFFE)) then s
    else
      let x := s.chan c
      let rel := min ds dt
      let s := (s.ecbPut m.src 8 rel).ecbPut m.dst 8 rel
      let lane := (x.w 3).testBit 3
      let l := bitsOf (x.w 3) 0 3
      let same (o : Nat) : Bool := s.ecbGet m.src o == s.ecbGet m.dst o
      let equal := (if m.kind = .update then !m.cmp || same 0x18 else same 0x14 && same 0x18) &&
        (!lane || s.reg (ETH_LANE_CMPP l) == s.reg (ETH_LANE_CMPS l))
      if !equal then s.compareFail c m
      else
        let n := m.shadow + (if m.kind = .update && !m.cmp && !inStep then 0 else 1)
        let go := inStep && Nat.ble s.shcyc n
        (s.phase c (if go then 4 else 3)).updMig c fun m => { m with shadow := n, phase := if go then 4 else 3 }
  | none => s

/-- SHADOW_COMPARE (R214). -/
def execShadowCompare (c : Fin 64) (inStep : Bool) (s : State) : Host.Outcome State Fault Refusal :=
  .next (shadowCompare c inStep s)

/-- SHMAX cycles have passed without the target in step (R219, R220). -/
def shadowLagTimeout (c : Nat) (s : State) : State :=
  match s.mig c with
  | some m => if m.phase = 2 || m.phase = 3 then (s.reportCmp m.src m.dst).endMig c 0x23 m else s
  | none => s

/-- SHADOW_LAG_TIMEOUT (R219). -/
def execShadowLagTimeout (c : Fin 64) (s : State) : Host.Outcome State Fault Refusal := .next (shadowLagTimeout c s)

/-- 1 ms after its start the conversion has not set DONE, or has set 0xFFFF_FFFE (R223). -/
def convTimeout (c : Nat) (s : State) : State :=
  match s.mig c with
  | some m =>
    let d := s.ecbGet m.dst 0x10
    if m.conv && m.phase = 2 && (d = 0xFFFFFFFF || d = 0xFFFFFFFE) then s.endMig c 0x25 m else s
  | none => s

/-- CONV_TIMEOUT (R223). -/
def execConvTimeout (c : Fin 64) (s : State) : Host.Outcome State Fault Refusal := .next (convTimeout c s)

/-- The buffers that the channel of a migration uses after it: those in the evacuated range have moved, declared buffers are where
their declaration stands, scratch copies are dropped. -/
def Mig.bufsAfter (m : Mig) (x : Chan) : List Nat :=
  (List.range 5).map fun i =>
    let cur := x.bufs.getD i 0
    if bKind (x.w (16 + 2 * i)) = 3 || moves m.range cur (bSize (x.w (16 + 2 * i))) then m.tgt.bufs.getD i 0 else cur

/-- H - 5 us (R214, R215, R220): cycle event, roles and rights move from source to target; a lane channel swaps. -/
def handoverCommit (c : Nat) (s : State) : State :=
  match s.mig c with
  | some m =>
    if m.phase != 4 || m.committed then s
    else
      let x := s.chan c
      let hc := (s.ecbGet m.src 0x10 + 1) % 2 ^ 32
      let s := (s.calOff (cycleEntry m.src)).cycleOn m.dst m.tgt
      let s := (s.ecbRole m.src 5 m.dst true c hc).ecbRole m.dst 1 m.src true c hc
      let s := (s.protect m.dst { m.tgt with bufs := m.bufsAfter x } true).protect m.src x false
      let s := s.ecbAddrs m.dst { m.tgt with bufs := m.bufsAfter x }
      let s := if (x.w 3).testBit 3 then s.askSwap (bitsOf (x.w 3) 0 3) else s
      s.updMig c fun m => { m with committed := true }
  | none => s

/-- HANDOVER_COMMIT (R214). -/
def execHandoverCommit (c : Fin 64) (s : State) : Host.Outcome State Fault Refusal := .next (handoverCommit c s)

/-- A test of engine `n` is opened (R168, R230): role 5 once it is without work; the response follows at the test's end. -/
def State.testEngine (s : State) (tag n : Nat) : State :=
  (s.updPlm fun p => { p with tests := p.tests ++ [(tag, 0, n)] }).settle

/-- What an open migration was for, once its source has no work: an engine that SELFTEST or Vigil cleared is tested, or fails the
test where it is isolated; a migration or update gets its final response. -/
def State.migDone (s : State) (m : Mig) (res info : Nat) : State :=
  match m.kind with
  | .clear =>
    if (s.eng m.src).st = .isolated then (if m.tag < 256 then s.plmSync.respond 0x27 m.tag m.src 0 else s.plmSync)
    else (s.testEngine m.tag m.src).plmSync
  | .evacuate => s.plmSync
  | _ => s.plmSync.final res m.tag m.ch info

/-- The Release of a migration (R214): the source is halted and freed with its areas, the target's areas become the channel's, the
counters and the result entry follow, and OK is posted. -/
def State.release (s : State) (c : Nat) (m : Mig) : State :=
  let x := s.chan c
  let gone := (s.eng m.src).st == .isolated
  let s := s.freeEngine m.src
  let s := if gone then s.setRole m.src 7 0 else s
  let bufs := m.bufsAfter x
  let s := s.updPlm fun p => { p with
    migs := p.migs.filter fun q => q.ch != c
    allocs := (p.allocs.filter fun a => !(a.own == c && !bufs.contains a.addr) &&
        !(a.own == 64 + c && a.addr != m.tgt.priv && !bufs.contains a.addr)).map
      fun a => if a.own = 64 + c then { a with own := c } else a }
  let y := { m.tgt with eng := m.dst, bufs := bufs, startTag := 0, stopReq := x.stopReq, release := x.release }
  let s := (s.updChan c fun _ => y).setRole m.dst 1 c
  let s := (s.count PLM_CNT_MIG 1).result' c fun s =>
    let s := (s.showWords c m.dst y).resFld c 0 rPHASE 0
    let s := if m.dst / 8 != m.src / 8 then s.resFld c 0 rDISPLACED 1 else s
    ((s.count (PLM_RES c 13) 1).countSat (PLM_RES c 14) m.lost).setReg (PLM_RES c 10) (word (s.ecbGet m.dst 0x10))
  (s.chanState c 2).migDone m 0 m.lost

/-- After the target's first DONE as primary (R214). -/
def migrationRelease (c : Nat) (s : State) : State :=
  match s.mig c with
  | some m => if m.committed then s.release c m else s
  | none => s

/-- MIGRATION_RELEASE (R214). -/
def execMigrationRelease (c : Fin 64) (s : State) : Host.Outcome State Fault Refusal := .next (migrationRelease c s)

/-! ### Audit (R224-R226) -/

/-- The lowest-numbered free engine of a class, the tower `t` first (R224). -/
def State.auditEngine (s : State) (t : Nat) (cc : Bool) : Option Nat :=
  (([t] ++ [0, 1, 2, 3].filter (· != t)).findSome? fun u => (towerEngines u cc).find? s.engineFree)

/-- Starts engine `n` in role AUDIT, or as vote, for cycle `a` of channel `c` (R224, R226): image, private area with the state
copy (a - 1) mod 2 of the private area at `src`, rights, PEER. None where it has no place or the copy fails. -/
def State.startAudit (s : State) (c n role : Nat) (a src : Nat) : Option State :=
  let x := s.chan c
  match s.placeItem (384 + c) (n / 8) x.cc true (privSize (x.w 10) (x.w 11)) (classesOf (min 2 (bitsOf (x.w 11) 24 2))) with
  | none => none
  | some (_, pa, s) =>
    let y := { x with priv := pa, eng := n }
    match s.loadEngine n y with
    | (false, _) => none
    | (true, s) =>
      let o := (a + 1) % 2 * x.w 10
      match s.keepCopy (src + o) (pa + o) (x.w 10) with
      | (false, _) => none
      | (true, s) =>
        let s := ((s.protect n y false).ecbAddrs n y).ecbPut n 0x10 ((a + 2 ^ 32 - 1) % 2 ^ 32)
        some (((s.ecbRole n 3 x.eng true c a).setRole n role c).keepRun n true)

/-- Audit of cycle `cycle` of channel `c` starts, or is skipped and counted (R222, R224). -/
def auditStart (c : Nat) (cycle : Word) (s : State) : State :=
  let x := s.chan c
  if (x.st != 2 && x.st != 3) || !(x.w 0).testBit 9 || !s.flag PLM_CFG PLM_CFG_AUDEN ||
      s.plm.audits.any (fun q => q.ch == c) then s
  else if x.st = 3 then s.count PLM_CNT_SKIP 1
  else
    match (s.auditEngine (x.eng / 8) x.cc).bind fun n => (s.startAudit c n 3 cycle.toNat x.priv).map fun s => (n, s) with
    | none => s.count PLM_CNT_SKIP 1
    | some (n, s) =>
      let s := (s.ecbPut x.eng 0x0C cycle.toNat).updPlm fun p => { p with audits := p.audits ++ [⟨c, cycle.toNat, n, none⟩] }
      let s := if (x.w 3).testBit 3 then
          let l := bitsOf (x.w 3) 0 3
          laneCtlWrite .keep l ((s.reg (ETH_LANE_CTL l) &&& 0xFFFEC0FF) ||| word (n * 256 + 0x2000)) s
        else s
      s.plmSync

/-- AUDIT_START (R224). -/
def execAuditStart (c : Fin 64) (cycle : Word) (s : State) : Host.Outcome State Fault Refusal := .next (auditStart c cycle s)

/-- An audit of channel `c` ends: its engines are freed, loaded; AUD is withdrawn; a lane's shadow is detached. -/
def State.endAudit (s : State) (c : Nat) (q : Audit) : State :=
  let x := s.chan c
  let s := ((s.freeEngine q.eng).freeItems (384 + c)).ecbPut x.eng 0x0C 0xFFFFFFFF
  let s := match q.vote with
    | some n => s.freeEngine n
    | none => s
  let s := if (x.w 3).testBit 3 then
      let l := bitsOf (x.w 3) 0 3
      laneCtlWrite .keep l (s.reg (ETH_LANE_CTL l) &&& 0xFFFEDFFF) s
    else s
  (s.updPlm fun p => { p with audits := p.audits.filter fun a => a.ch != c }).plmSync

/-- Whether the results of engines `a` and `b` agree: SHASH and OCRC (R224). -/
def State.sameResult (s : State) (a b : Nat) : Bool :=
  s.ecbGet a 0x14 == s.ecbGet b 0x14 && s.ecbGet a 0x18 == s.ecbGet b 0x18

/-- The audit engine's results are compared (R224-R226): equal counts a pass; a mismatch starts a vote engine from the
snapshot that the audit engine started from. -/
def auditCompare (c : Nat) (s : State) : State :=
  match s.plm.audits.find? fun q => q.ch == c with
  | none => s
  | some q =>
    let x := s.chan c
    if q.vote.isSome then s
    else
      let lane := (x.w 3).testBit 3
      let l := bitsOf (x.w 3) 0 3
      if s.sameResult q.eng x.eng && (!lane || s.reg (ETH_LANE_CMPP l) == s.reg (ETH_LANE_CMPS l)) then
        ((s.count PLM_CNT_AUD 1).result' c fun s => s.count (PLM_RES c 11) 1).endAudit c q
      else
        let s := ((s.count PLM_CNT_AUD 1).count PLM_CNT_AUDF 1).result' c fun s => s.count (PLM_RES c 12) 1
        match (s.auditEngine (x.eng / 8) x.cc).bind fun n => (s.startAudit c n 4 q.cyc (s.ecbGet q.eng 0x28)).map fun s => (n, s) with
        | none => ((s.reportCmp x.eng q.eng).respond 0x32 0 c 3).endAudit c q
        | some (n, s) =>
          s.updPlm fun p => { p with audits := p.audits.map fun a => if a.ch = c then { a with vote := some n } else a }

/-- AUDIT_COMPARE (R224). -/
def execAuditCompare (c : Fin 64) (s : State) : Host.Outcome State Fault Refusal := .next (auditCompare c s)

/-- The vote decides (R226): a lost audit vote is reported to Vigil, which retires the engine; EV_AUDIT. -/
def auditVote (c : Nat) (s : State) : State :=
  match s.plm.audits.find? fun q => q.ch == c with
  | none => s
  | some q =>
    match q.vote with
    | none => s
    | some v =>
      let p := (s.chan c).eng
      let s' := s.endAudit c q
      if s.sameResult p v then (s'.report 6 (resId 1 q.eng) 0 q.eng).respond 0x32 0 c 1
      else if s.sameResult q.eng v then
        let s' := (s'.report 6 (resId 1 p) 0 p).updChan c fun y => { y with voteLost := true }
        (s'.result' c fun s => s.resFld c 0 rSUSPECT 1).respond 0x32 0 c 2
      else ((s'.reportCmp p q.eng).report 7 (resId 1 v) 0 v).respond 0x32 0 c 3

/-- AUDIT_VOTE (R226). -/
def execAuditVote (c : Fin 64) (s : State) : Host.Outcome State Fault Refusal := .next (auditVote c s)

/-! ### Emergency migration and evacuation (R222, R227-R229) -/

/-- Whether engine `n` has failed its channel: double fault, isolated, being retired, or a lost vote (R227). -/
def State.engineFailed (s : State) (n : Nat) (x : Chan) : Bool :=
  (s.eng n).st == .dfault || (s.eng n).st == .isolated || x.voteLost || Nat.ble 4 (s.resource (resId 1 n)).state

/-- The source of a migration has failed with the target in step (R222): the target is primary from the next cycle boundary, with its
own areas, and `lost` cycles are skipped; the migration ends OK. -/
def State.promote (s : State) (c lost : Nat) (m : Mig) : State :=
  let x := s.chan c
  let y := { m.tgt with bufs := m.bufsAfter x }
  let s := (s.calOff (cycleEntry m.src)).cycleOn m.dst m.tgt
  let s := (s.ecbPut m.dst 0x24 lost).ecbRole m.dst 1 0 false c ((s.ecbGet m.dst 0x10 + 1) % 2 ^ 32)
  let s := (s.protect m.dst y true).ecbAddrs m.dst y
  let s := if (x.w 3).testBit 3 then
      let l := bitsOf (x.w 3) 0 3
      (laneCtlWrite .keep l (s.reg (ETH_LANE_CTL l) &&& 0xFFFEDFFF) s).attachLane m.dst y
    else s
  (s.updChan c fun z => { z with voteLost := false }).release c { m with lost := m.lost + lost }

/-- No restart of channel `c` (R227): FAILED with EV_FAILED, INFO 1 no spare, 2 image unreadable; an open migration ends with `res`. -/
def State.chanFailed (s : State) (c info res : Nat) (m : Option Mig) : State :=
  let s := ((s.chanState c 6).phase c 0).updChan c fun y => { y with stopReq := false, voteLost := false }
  let s := match m with
    | some m => s.migDone m res 0
    | none => s.plmSync
  s.respond 0x31 0 c info

/-- The channel's engine has failed (R222, R227): an open migration's target in step takes over; else the channel restarts on a
target, an open migration's first, from the last state; `lost` cycles are not executed. Without a spare it becomes FAILED. -/
def emergencyMigration (c lost : Nat) (s : State) : State :=
  let x := s.chan c
  if (x.st != 2 && x.st != 3) || !s.engineFailed x.eng x then s
  else
    let m := s.mig c
    match m.filter fun m => m.committed || m.phase == 4 with
    | some m => s.promote c lost m
    | none =>
      let s0 := (s.calOff (cycleEntry x.eng)).setRole x.eng (if (s.eng x.eng).st = .isolated then 7 else 0) 0
      let dst := match m with
        | some m => some m.dst
        | none => s0.pickTarget x.w x.cc true (x.eng / 8) x.eng
      match dst with
      | none => s0.chanFailed c 1 0 none
      | some n =>
        let s := match m with
          | some m => s0.dropTarget c { m with hold := false, phase := 1 }
          | none => s0
        let near := n / 8 = x.eng / 8
        match s.loadEngine n x with
        | (false, s) => s.chanFailed c 2 0x15 m
        | (true, s) =>
          let size := privSize (x.w 10) (x.w 11)
          let placed := if near then some (x.priv, s)
            else (s.placeItem c (n / 8) x.cc true size (classesOf (min 2 (bitsOf (x.w 11) 24 2)))).map fun q => (q.2.1, q.2.2)
          match placed with
          | none => s.chanFailed c 1 0x20 m
          | some (pa, s) =>
            let done := s.ecbGet x.eng 0x10
            let o := done % 2 * x.w 10
            let (good, s) := s.keepCopy (x.priv + o) (pa + o) (x.w 10)
            let s := if near then s
              else s.updPlm fun p => { p with allocs := p.allocs.filter fun a => !(a.own == c && a.addr == x.priv) }
            let y := { x with eng := n, priv := pa, voteLost := false, st := 2 }
            let s := (((s.updChan c fun _ => y).setRole n 1 c).protect n y true).ecbAddrs n y
            let s := (s.ecbPut n 0x10 (if good then done else 0xFFFFFFFF)).ecbPut n 0x24 lost
            let s := (s.ecbPut n 0x0C 0xFFFFFFFF).ecbRole n 1 0 false c ((done + 1) % 2 ^ 32)
            let s := ((s.cycleOn n y).attachLane n y).keepRun n true
            let s := s.result' c fun s =>
              let s := ((s.showWords c n y).resFld c 0 rPHASE 0).resFld c 0 rSTATELOST (bit !good)
              let s := if near then s else s.resFld c 0 rDISPLACED 1
              (s.count (PLM_RES c 13) 1).countSat (PLM_RES c 14) lost
            let s := (s.count PLM_CNT_MIG 1).chanState c 2
            match m with
            | some m =>
              let s := s.migDone m 0 lost
              if m.kind = .migrate || m.kind = .update then s else s.respond 0x30 0 c lost
            | none => s.plmSync.respond 0x30 0 c lost

/-- EMERGENCY_MIGRATION (R227). -/
def execEmergencyMigration (c : Fin 64) (lost : Nat) (s : State) : Host.Outcome State Fault Refusal :=
  .next (emergencyMigration c lost s)

/-- The `n` bytes from `a0` are evacuated (R229): declared buffers in them are copied to a new place, and every running channel with
an item or a referenced buffer there is migrated to a target with new copies. -/
def State.evacuate (s : State) (a0 n : Nat) : State :=
  let hit := inRange s.plm.allocs a0 n
  let s := (hit.filter fun a => Nat.ble 128 a.own && Nat.blt a.own 384).foldl (fun (s : State) a =>
    let u := a.own - 128
    match s.placeItem a.own 0 true true a.size [1, 2] with
    | none => s
    | some (c, ad, s') =>
      let (_, s') := s'.keepCopy a.addr ad a.size
      let s' := s'.updPlm fun p => { p with allocs := p.allocs.filter fun b => !(b.own == a.own && b.addr == a.addr) }
      ((s'.setReg (PLM_BRES u 0) (word ad)).setFld (PLM_BRES u 1) ⟨0, 2⟩ c)) s
  let chans := s.plm.chans.filter fun q => q.2.st == 2 && hit.any fun a =>
    a.own == q.1 || ((Nat.ble 128 a.own && Nat.blt a.own 384) && q.2.bufs.contains a.addr)
  (chans.foldl (fun (s : State) (c, x) =>
    if s.chanBusy c then s else (s.openMig c 0 .evacuate true true x false 99 (a0, n)).2) s).plmSync

/-- Bank `k` is evacuated; Vigil or a self-test must have asked for it (R229, R230, R566, R568). -/
def bankEvacuation (k : Nat) (s : State) : State :=
  let st := (s.resource (bankRes k)).state
  if st = 2 || st = 4 || (bankTestOf s.plm.tests k).isSome then s.evacuate (bankBase k) 0x20000 else s

/-- BANK_EVACUATION (R229). -/
def execBankEvacuation (k : Fin 96) (s : State) : Host.Outcome State Fault Refusal := .next (bankEvacuation k s)

/-! ### SELFTEST (R230) -/

/-- Bank number of a SELFTEST resource: tower bank (kind 1) or central bank (kind 2). -/
def testBank (kind obj : Nat) : Nat := if kind = 1 then obj else 64 + obj

/-- Whether every item in bank `k` is about to leave it: it belongs to a channel with an open migration. -/
def State.leaving (s : State) (k : Nat) : Bool :=
  (inBank s.plm.allocs k).all fun a => Nat.blt a.own 64 && (s.mig a.own).isSome

/-- SELFTEST of an engine or bank (R222, R230): cleared first where it carries work; BUSY where Vigil clears or tests it (R567). -/
def selftest (s : State) : State :=
  withCmd (fun op _ _ => op == 8) (fun tag obj arg s =>
    if 3 ≤ arg then s.respond 0x12 tag obj 0
    else if arg = 0 then
      if 31 < obj then s.respond 0x11 tag obj 0
      else if !s.engineUsable obj || s.plm.tests.any (fun q => q.2.1 == 0 && q.2.2 == obj) then s.respond 0x22 tag obj 0
      else if s.role obj = 0 then ((s.respond 1 tag obj 0).testEngine tag obj).plmSync
      else if s.role obj = 1 && (s.chan (s.fld (PLM_ENG obj) PLM_ENG_CH)).st = 2 &&
          !s.chanBusy (s.fld (PLM_ENG obj) PLM_ENG_CH) then
        let c := s.fld (PLM_ENG obj) PLM_ENG_CH
        match s.openMig c tag .clear true true (s.chan c) false 99 with
        | (0, s) => (s.respond 1 tag obj 0).plmSync
        | (_, s) => s.respond 0x22 tag obj 0
      else s.respond 0x22 tag obj 0
    else
      let k := testBank arg obj
      if (arg = 1 && 63 < obj) || (arg = 2 && 30 < obj) then s.respond 0x11 tag obj 0
      else if !s.bankUsable k then s.respond 0x22 tag obj 0
      else
        let t := ((s.updPlm fun p => { p with tests := p.tests ++ [(tag, arg, obj)] })).evacuate (bankBase k) 0x20000
        if t.leaving k then t.respond 1 tag obj 0 else s.respond 0x22 tag obj 0) s

/-- SELFTEST (R230). -/
def execSelftest (s : State) : Host.Outcome State Fault Refusal := .next (selftest s)

/-- A test of an engine (kind 0) or bank ends: a pass returns the resource to service and clears its CE count (R566, R568); one
that SELFTEST opened is answered OK or SELFTEST_FAIL (R230). -/
def State.selftestEnd (s : State) (kind obj : Nat) (pass : Bool) : State :=
  match s.plm.tests.find? fun q => q.2.1 == kind && q.2.2 == obj with
  | none => s
  | some (tag, _, _) =>
    let s := s.updPlm fun p => { p with tests := p.tests.filter fun q => !(q.2.1 == kind && q.2.2 == obj) }
    let r := if kind = 0 then resId 1 obj else bankRes (testBank kind obj)
    let s := if kind = 0 then s.setRole obj 0 0 else s
    let s := if pass && (s.resource r).state = 3 then s.updResource r fun x => { x with state := 0, ce := [] } else s
    if tag < 256 then s.plmSync.respond (if pass then 0 else 0x27) tag obj 0 else s.plmSync

/-- ENGINE_TEST_COMPLETE (R168, R230). -/
def execEngineTestComplete (e : Fin 32) (pass : Bool) (s : State) : Host.Outcome State Fault Refusal :=
  .next (if (s.eng e).st = .test then (engineTestComplete e pass s).selftestEnd 0 e pass else s)

/-- BANK_TEST_COMPLETE (R479, R230). -/
def execBankTestComplete (k : Fin 96) (pass : Bool) (s : State) : Host.Outcome State Fault Refusal :=
  .next (if s.bankState k = 5 then
    (bankTestComplete k pass s).selftestEnd (if k.val < 64 then 1 else 2) (if k.val < 64 then k else k - 64) pass else s)

/-- The bits of SYS_TW_RST stand until every engine of their tower has completed its reset (R591). -/
def State.towerBits (s : State) : State :=
  s.setReg SYS_TW_RST (s.reg SYS_TW_RST &&& word (((List.range 4).map fun t =>
    bit ((List.range 8).any fun j => (s.eng (8 * t + j)).action == .rst) * 2 ^ t).sum))

/-- ENGINE_RESET_COMPLETE (R165). -/
def execEngineResetComplete (e : Fin 32) (s : State) : Host.Outcome State Fault Refusal :=
  .next ((engineResetComplete e s).towerBits.settle)

/-! ### Keep update (R231) -/

/-- CHANNEL_UPDATE with OBJ 0xFF: the new image is verified and written into the inactive bank. -/
def keepUpdate (s : State) : State :=
  withCmd (fun op obj arg => op == 5 && obj == 0xFF && arg < 128) (fun tag obj arg s =>
    if arg / 4 != 0 then s.respond 0x12 tag obj 0
    else if s.plm.update.isSome then s.respond 0x22 tag obj 0
    else
      let n := (s.reg PLM_KIMGL).toNat
      match s.moverRead .keep (s.reg PLM_KIMGA).toNat n with
      | (_, some _, s) => s.respond 0x15 tag obj 0
      | (l, none, s) =>
        match cModule l 3 with
        | some md =>
          if s.verify l n != 0 || cProfile l != 2 then s.respond 0x15 tag obj 0
          else
            (s.updPlm fun p => { p with
              bank := codeWords l md.ofs (min 16384 (md.len / 2)), update := some (tag, cVersion l) }).respond 1 tag obj 0
        | none => s.respond 0x15 tag obj 0) s

/-- KEEP_UPDATE (R231). -/
def execKeepUpdate (s : State) : Host.Outcome State Fault Refusal := .next (keepUpdate s)

/-- The program banks of the Keep are exchanged. -/
def State.swapBanks (s : State) : State :=
  let old := (List.range 16384).map (s.progWord 32)
  let s := { s with prog := Tbl.clear (fun k => k / 16384 == 32) s.prog }
  let s := (s.plm.bank.zipIdx).foldl (fun s (w, j) => s.setProgWord 32 j w) s
  s.updPlm fun p => { p with bank := old }

/-- Whether nothing stands against a bank swap: no migration, audit, vote, test or other command open (R231). -/
def State.plmIdle (s : State) : Bool :=
  s.plm.migs.isEmpty && s.plm.audits.isEmpty && s.plm.tests.isEmpty && s.cmdq.isEmpty &&
    s.plm.chans.all fun q => q.2.startTag == 0

/-- The Keep swaps its program banks (R231): SWAP 1 and READY 0; the new firmware, if it comes up, sets READY and answers OK. -/
def keepBankSwap (ready : Bool) (s : State) : State :=
  match s.plm.update with
  | none => s
  | some (tag, v) =>
    if !s.plmIdle || s.flag PLM_STAT PLM_STAT_SWAP then s
    else
      let s := ((s.swapBanks.setFlag PLM_STAT PLM_STAT_SWAP true).setFlag PLM_STAT PLM_STAT_READY false).setFld PLM_STAT
        PLM_STAT_BANK (1 - s.fld PLM_STAT PLM_STAT_BANK)
      let s := s.updEng 32 fun g => { g.zero (s.progWord 32 0) with st := .running }
      if ready then
        let s := ((s.setFlag PLM_STAT PLM_STAT_SWAP false).setFlag PLM_STAT PLM_STAT_READY true).setFlag PLM_STAT
          PLM_STAT_FALLBACK false
        let s := s.degrSet false ((s.reg VIG_DEGR).getLsbD 6)
        (((s.setReg PLM_KVER v).updPlm fun p => { p with update := none }).respond 0 tag 0xFF 0).keepRead
      else s

/-- KEEP_BANK_SWAP (R231). -/
def execKeepBankSwap (ready : Bool) (s : State) : Host.Outcome State Fault Refusal := .next (keepBankSwap ready s)

/-- The mode controller resets the Keep (R149, R590): it restarts from its active program bank, its epoch advances, and the reset is
reported; the PLM and VIG blocks, the channels and the program banks stay. -/
def State.keepRestart (s : State) : State :=
  ((s.updEng 32 fun g => { g.zero (s.progWord 32 0) with st := .running, run := true, clken := true }).advanceEpoch 1).report 12
    (resId 7 0) 0 32

/-- READY not set within 50 us of a swap (R231, R563 KBANK): the banks are swapped back, the previous firmware sets FALLBACK and
posts KEEP_FALLBACK. -/
def keepFallback (s : State) : State :=
  match s.plm.update with
  | none => s
  | some (tag, _) =>
    if !s.flag PLM_STAT PLM_STAT_SWAP then s
    else
      let s := ((s.swapBanks.setFlag PLM_STAT PLM_STAT_SWAP false).setFlag PLM_STAT PLM_STAT_READY true).setFld PLM_STAT
        PLM_STAT_BANK (1 - s.fld PLM_STAT PLM_STAT_BANK)
      let s := s.keepRestart
      let s := ((s.setFlag PLM_STAT PLM_STAT_FALLBACK true).updPlm fun p => { p with update := none }).report 13 (resId 7 1) 0 32
      (s.respond 0x34 tag 0xFF 0).keepRead

/-- KEEP_FALLBACK (R231). -/
def execKeepFallback (s : State) : Host.Outcome State Fault Refusal := .next (keepFallback s)

/-! ### Registers of the PLM block (R199) -/

/-- Whether the host may write location `a`: PLM_CFG, PLM_RSV, PLM_KIMGA, PLM_KIMGL, the descriptor and declaration areas. -/
def plmHostWritable (a : Nat) : Bool :=
  a == PLM_CFG || a == PLM_RSV || a == PLM_KIMGA || a == PLM_KIMGL || (Nat.ble 0x60021000 a && Nat.blt a 0x60023000) ||
    (Nat.ble 0x60024000 a && Nat.blt a 0x60024800)

/-- A write of the PLM block: the host and the Keep; a reserved minimum of 3 keeps the value (R11, R199). -/
def plmWrite (i : Init) (a : Nat) (v : Word) (s : State) : State :=
  if a = PLM_LXBASE then plmLxPoolWrite i false v s
  else if a = PLM_LXSIZE then plmLxPoolWrite i true v s
  else if !hostOrKeep i then s.answer .busError
  else if plmHostWritable a then
    let v := if a = PLM_RSV then
        (List.range 13).foldl (fun (v : Word) k =>
          let f : Fld := ⟨2 * k, 2⟩
          s.keepFld a f (fun n => n == 3) v) v
      else v
    s.plainWrite true a v
  else if i = .keep then (if (regRow? a).isSome then (s.setReg a v).answer .ok else s.answer .ok)
  else s.answer .busError

/-- A read of the PLM block: the bank words are computed. -/
def plmRead (a : Nat) (s : State) : State :=
  if Nat.ble 0x60020200 a && Nat.blt a 0x60020300 then s.answerWord (s.bankWord ((a - 0x60020200) / 4))
  else if Nat.ble 0x60020300 a && Nat.blt a 0x60020380 then s.answerWord (s.bankWord (64 + (a - 0x60020300) / 4))
  else s.plainRead 0 a

end Sys2Proof.Machine
end

