-- ==== Sys2Proof/Machine/Hold.lean ====
section
/-! DEFINITION. The mode controller: HOLD entry and its policy, the evaluation of mode events, mode requests (R579-R582).
Choices of the model: log entries 49, 60. -/

set_option autoImplicit false

namespace Sys2Proof.Machine

open Sys2Proof

/-- Channel `c` is stopped by the HOLD policy (R582): as CHANNEL_STOP without RELEASE; a migration before its commit point ends
ABORTED. -/
def State.holdChannel (s : State) (c : Nat) : State :=
  if (s.chan c).st = 2 || (s.chan c).st = 3 then
    let s := match s.mig c with
      | some m => if m.committed then s else s.endMig c 3 m
      | none => s
    let e := (s.chan c).eng
    let s := s.ecbRole e 5 0 false c ((s.ecbGet e 0x10 + 2) % 2 ^ 32)
    s.updChan c fun y => { y with stopReq := true, release := false }
  else s

/-- HOLD entry (R582): each block whose policy bit is 1 is stopped. -/
def State.holdStop (s : State) : State :=
  let r := s.resp
  let pol := s.reg SYS_HOLDPOL
  let s := if pol.getLsbD 0 then (List.range 64).foldl (fun (s : State) c => s.holdChannel c) s else s
  let s := (List.range 6).foldl (fun (s : State) p =>
    if pol.getLsbD (1 + p) then ethCtlWrite p (ETH_CTL_EN.put (s.reg (ETH_CTL p)) 0) s else s) s
  let s := if pol.getLsbD 7 then ctbHalt s else s
  let s := if pol.getLsbD 8 then bfyReset s else s
  let s := (List.range 4).foldl (fun (s : State) n => if pol.getLsbD (9 + n) then canReset n s else s) s
  let s := if pol.getLsbD 13 then (List.range 8).foldl (fun (s : State) c => carReset c s) s else s
  let s := if pol.getLsbD 14 then sgmReset s else s
  let s := if pol.getLsbD 15 then s.bpbReset else s
  s.answer r

/-- Whether the run permission is valid (R548): it binds the selected set, its confirmed CRC, the active firmware version and the
absence of a recorded break. -/
def State.runPerm (s : State) : Bool :=
  match s.sealw.perm with
  | none => false
  | some (n, crc, v) =>
    !s.sealw.recBrk && !s.cup.set.isEmpty && n == s.cup.setNo && Tbl.get (fun _ => none) s.sealw.conf n == some crc &&
      word (ofBytes ((s.cup.set.drop 0x7FC).take 4)) == crc && s.cup.ver.getD s.cup.active 0 == v

/-- One evaluation of the mode controller (R579, R581): a HOLD request first, then a void run permission, then DEGREQ. A HOLD
request in BOOT waits for boot complete; HOLD ends in COMMISSION once no request stands. -/
def State.modeEval (s : State) : State :=
  let s := s.syncMode
  let m := s.mode
  if (m = 2 || m = 3 || m = 4) && s.holdStands then (s.setMode 5 (if s.cup.hold != 0 then 7 else 8)).holdStop
  else if m = 5 && !s.holdStands then s.setMode 2 9
  else if (m = 3 || m = 4) && !s.runPerm then s.setMode 2 4
  else s.degrMode

/-- A HOLD cause of the Cupola is found (R518): the first one is latched and reported; within 64 cycles of a takeover it is cause
9 (R556). Outputs follow the latch at the next exchange, and HOLD is requested. -/
def State.holdCause (s : State) (c : Nat) : State :=
  let c := if s.cup.newCore = 0 then c else 9
  let s := { s with cup := { s.cup with live := s.cup.live ||| BitVec.ofNat 16 (2 ^ c) } }
  if s.cup.hold != 0 then s
  else
    let s := { s with cup := { s.cup with hold := c } }
    let s := (s.setFlag CUP_STAT CUP_STAT_HOLDL true).setFld CUP_STAT CUP_STAT_HCAUSE c
    let s := s.setFlag CUP_STAT CUP_STAT_OUTOFF true
    (s.report 11 (resId 8 s.cup.active) 0 (c * 256)).modeEval

/-- Vigil requests HOLD (R570) with cause `c`; the first cause stands until power-on or system reset. -/
def State.vigilHold (s : State) (c : Nat) : State :=
  if s.flag VIG_STAT VIG_STAT_HOLDREQ then s
  else (((s.setFlag VIG_STAT VIG_STAT_HOLDREQ true).setReg VIG_HOLDC (word c)).ringEvt VIG_EVT).modeEval

/-! ### Mode requests (R580) -/

/-- SYS_MODE_RES (R583): 1 accepted or 2 refused, with the conditions that failed in [8:2]. -/
def State.modeRes (s : State) (ok : Bool) (why : Nat) : State :=
  (s.setReg SYS_MODE_RES (word (if ok then 1 else 2 + why))).answer .ok

/-- The conditions of a RUN request that fail (R580), as the bits RPERM to RKEEP. -/
def State.runBars (s : State) : Nat :=
  8 * bit (!s.flag CUP_STAT CUP_STAT_RUNPERM) +
    16 * bit (!s.flag CUP_STAT CUP_STAT_PSVALID || !s.flag CUP_STAT CUP_STAT_PSCONF) +
    32 * bit (s.flag CUP_STAT CUP_STAT_SEALBRK) + 64 * bit s.holdStands +
    128 * bit (!(s.reg CUP_SW).getLsbD 12 || s.cup.sw.getLsbD 9) + 256 * bit (!s.flag PLM_STAT PLM_STAT_READY)

/-- A mode request without its key or from another initiator than the host and the Keep completes with a bus error. -/
def modeKey (i : Init) (v : Word) : Bool := (i == .keep || i == .pcie || i == .localBus) && SYS_MODE_REQ_KEY.get v == 0xC3

/-- A COMMISSION request (R580): accepted in COMMISSION, RUN and DEGRADED. -/
def State.commissionReq (s : State) : State :=
  if s.mode = 2 then s.modeRes true 0
  else if s.mode = 3 || s.mode = 4 then (s.setMode 2 3).modeRes true 0
  else s.modeRes false 4

/-- A RUN request (R580): accepted in COMMISSION when no condition fails; the mode is then RUN, or DEGRADED while DEGREQ is 1. -/
def State.runReq (s : State) : State :=
  let bars := 4 * bit (s.mode != 2) + s.runBars
  if bars = 0 then (((s.setMode (if s.flag VIG_STAT VIG_STAT_DEGREQ then 4 else 3) 2).modeRes true 0)).degrSync
  else s.modeRes false bars

/-- A write of SYS_MODE_REQ. -/
def modeReqWrite (i : Init) (v : Word) (s : State) : State :=
  if !modeKey i v then s.answer .busError
  else
    match SYS_MODE_REQ_REQ.get v with
    | 1 => s.commissionReq
    | 2 => s.runReq
    | _ => s.modeRes false 4

/-- COMMISSION_REQUEST: a write of SYS_MODE_REQ with REQ 1. -/
def commissionRequest (i : Init) (key : BitVec 8) (s : State) : State := modeReqWrite i (word (1 + key.toNat * 256)) s

/-- COMMISSION_REQUEST (R580). -/
def execCommissionRequest (i : Init) (key : BitVec 8) (s : State) : Host.Outcome State Fault Refusal :=
  .next (s.gate i SYS_MODE_REQ (commissionRequest i key))

/-- RUN_REQUEST: a write of SYS_MODE_REQ with REQ 2. -/
def runRequest (i : Init) (key : BitVec 8) (s : State) : State := modeReqWrite i (word (2 + key.toNat * 256)) s

/-- RUN_REQUEST (R580). -/
def execRunRequest (i : Init) (key : BitVec 8) (s : State) : Host.Outcome State Fault Refusal :=
  .next (s.gate i SYS_MODE_REQ (runRequest i key))

end Sys2Proof.Machine
end

