-- ==== Sys2Proof/Machine/Cupola.lean ====
section
/-! DEFINITION. The Cupola: parameter sets, seal switches, safe inputs as the island sees them, motion monitoring, reactions, output
commands, status word, core address map (R514-R519, R529-R546, R553, R560).
Choices of the model: log entries 41, 42, 86, 88, 89. -/

set_option autoImplicit false

namespace Sys2Proof.Machine

open Sys2Proof

/-- The state with the island, the field die or the seal changed. -/
def State.updCup (s : State) (f : Cup → Cup) : State := { s with cup := f s.cup }
def State.updDie (s : State) (f : Die → Die) : State := { s with die := f s.die }
def State.updSeal (s : State) (f : Seal → Seal) : State := { s with sealw := f s.sealw }

/-- The active core's processor number. -/
def State.activeCore (s : State) : Nat := 33 + s.cup.active

/-! ### Parameter sets (R541-R544) -/

/-- Word and field of a parameter set. -/
def psW (l : List Byte) (o : Nat) : Nat := ofBytes ((l.drop o).take 4)
def psF (l : List Byte) (o lo w : Nat) : Nat := bitsOf (psW l o) lo w

/-- The offset of word `o` of axis `n`. -/
def axO (n o : Nat) : Nat := 0x100 + 0x80 * n + o

/-- The bits of the word at offset `o` that R541 lists. -/
def psMask (o : Nat) : Nat :=
  if o = 0 then 0xFFFFFF
  else if o = 4 || o = 0x7FC then 0xFFFFFFFF
  else if o = 8 then 0xFFFF
  else if 0x10 ≤ o && o < 0x50 then 0x1FFFF
  else if 0x50 ≤ o && o < 0x60 then 0x3FFFFF
  else if o = 0x60 || o = 0x64 then 0xFFFF000F
  else if 0x100 ≤ o && o < 0x200 then
    match o % 0x80 with
    | 0x00 => 0x3FF
    | 0x04 => 0xFFFFFFF
    | 0x08 => 0xFFFF
    | 0x14 => 0x3FFFF
    | 0x18 => 0x7FFFF
    | 0x20 => 0x3FFFF
    | k => if k ≤ 0x38 then 0xFFFFFFFF else 0
  else 0

/-- The inputs with USED 1, as a mask. -/
def psUsed (l : List Byte) : Nat := ((List.range 16).map fun k => psF l (0x10 + 4 * k) 16 1 * 2 ^ k).sum

/-- Whether mask `m` names only used inputs. -/
def psOnlyUsed (l : List Byte) (m : Nat) : Bool := (List.range 16).all fun k => !m.testBit k || (psUsed l).testBit k

/-- A position limit: low word, then revolution word, as a signed 64-bit value. -/
def psPos (l : List Byte) (o : Nat) : Int := signedOf (psW l o + psW l (o + 4) * 2 ^ 32) 64

/-- Whether the word at offset `o` of a set stored under `setno` is as R541 and R542 require. -/
def psWordOk (l : List Byte) (setno o : Nat) : Bool :=
  let w := psW l o
  let n := (o - 0x100) / 0x80
  (w &&& psMask o) == w &&
  (if o = 0 then w % 0x10000 == 0x5A3C && bitsOf w 16 4 == setno && bitsOf w 20 4 == 1
   else if o = 8 then psOnlyUsed l w
   else if 0x10 ≤ o && o < 0x50 then
     let k := (o - 0x10) / 4
     Nat.ble (bitsOf w 0 3) 4 && Nat.ble 1 (bitsOf w 8 8) &&
       (bitsOf w 7 1 == 0 || (bitsOf w 16 1 == 1 && psF l (0x10 + 4 * (Nat.xor k 1)) 16 1 == 1 &&
         psF l (0x10 + 4 * (Nat.xor k 1)) 7 1 == 1))
   else if 0x50 ≤ o && o < 0x60 then
     Nat.ble 100 (bitsOf w 2 10) && Nat.ble (bitsOf w 2 10) 1000 && Nat.ble 50 (bitsOf w 12 10) &&
       Nat.ble (bitsOf w 12 10 + 50) (bitsOf w 2 10)
   else if o = 0x60 || o = 0x64 then psOnlyUsed l (bitsOf w 16 16)
   else if 0x100 ≤ o && o < 0x200 then
     match o % 0x80 with
     | 0x00 => Nat.ble (bitsOf w 4 4) 8
     | 0x04 => Nat.ble 1 w
     | 0x08 => Nat.blt (psF l (axO n 0) 1 2) 2 || (Nat.ble 8 (bitsOf w 0 6) && Nat.ble (bitsOf w 0 6) 40 && Nat.ble (bitsOf w 7 3) 5)
     | 0x14 => psOnlyUsed l (bitsOf w 0 16)
     | 0x18 => psOnlyUsed l (bitsOf w 0 16)
     | 0x20 => psOnlyUsed l (bitsOf w 0 16) && (bitsOf w 17 1 == 0 || Nat.ble 2 (psF l (axO n 0) 1 2) || psF l (axO n 0) 8 1 == 1)
     | 0x24 => decide (psPos l (axO n 0x24) < psPos l (axO n 0x2C))
     | _ => true
   else if o = 0x7FC then word w == crc32c (l.take 0x7FC)
   else true)

/-- The first invalid offset of a set, in words (R542, R550); none: the set is valid. -/
def psBad (l : List Byte) (setno : Nat) : Option Nat := (List.range 512).find? fun j => !psWordOk l setno (4 * j)

/-- Whether a set is valid (R542). -/
def psValid (l : List Byte) (setno : Nat) : Bool := l.length == 2048 && (psBad l setno).isNone

/-- MRAM bytes as the island reads them through MON_MRD: none where a word is uncorrectable. -/
def State.readMram (s : State) (a n : Nat) : Option (List Byte) × State :=
  let (bad, s) := s.checkGranules .mram 46 false (granules 8 a n)
  (if bad then none else some (s.mramBytes a n), s)

/-- The MRAM addresses of copies A and B of a set, of the staging area and of the firmware slots (R543). -/
def copyA (n : Nat) : Nat := 0x54170000 + 0x800 * n
def copyB (n : Nat) : Nat := 0x541F0000 + 0x800 * n
def stagingArea : Nat := 0x54178000
def fwSlot (n : Nat) : Nat := if n = 0 then 0x54160000 else 0x541E0000

/-! ### Switches (R544, R546) -/

/-- Whether the switch pattern is valid: SW4-SW7 the complement of SW0-SW3, SW11 and SW10 reading 0b10. -/
def swValid (sw : BitVec 12) : Bool :=
  bitsOf sw.toNat 4 4 == 15 - bitsOf sw.toNat 0 4 && bitsOf sw.toNat 10 2 == 2

/-- SW8 (update permit) and SW9 (commissioning permit). -/
def State.sw8 (s : State) : Bool := s.cup.sw.getLsbD 8
def State.sw9 (s : State) : Bool := s.cup.sw.getLsbD 9

/-- A cause is no longer present. -/
def State.causeOver (s : State) (c : Nat) : State := s.updCup fun x => { x with live := x.live &&& ~~~BitVec.ofNat 16 (2 ^ c) }

/-- An order to the Keep (R552): the write window opens over the destination and the three words wait for MBX127. -/
def State.sendOrder (s : State) (tag len src dst : Nat) : State :=
  s.updCup fun x => { x with
    wwa := word dst
    wwl := word ((len + 7) / 8 * 8)
    order := some ⟨tag, len, src, dst⟩
    orders := x.orders ++ [word (0x81 + tag % 256 * 256 + (len + 7) / 8 % 65536 * 65536), word src, word dst] }

/-- The copy check of the selected set (R543): the set in use, HOLD cause 7 in RUN and DEGRADED where the copies differ or neither is
valid, and the order that rewrites an invalid copy from the valid one. -/
def State.judgeSets (s : State) : State :=
  if !swValid s.cup.sw then s.updCup fun x => { x with set := [] }
  else
    let n := bitsOf s.cup.sw.toNat 0 4
    let (a, s) := s.readMram (copyA n) 2048
    let (b, s) := s.readMram (copyB n) 2048
    let la := a.getD []
    let lb := b.getD []
    let bad (s : State) : State :=
      let s := s.updCup fun x => { x with set := [], setNo := n }
      if s.mode = 3 || s.mode = 4 then s.holdCause 7 else s
    let use (s : State) (l : List Byte) : State := (s.updCup fun x => { x with set := l, setNo := n }).causeOver 7
    let heal (s : State) (src dst : Nat) : State :=
      if s.cup.order.isSome || s.cup.job.isSome then s
      else (s.sendOrder 0 2048 src dst).updCup fun x => { x with job := some ⟨0, 0, n, [], dst⟩ }
    match psValid la n, psValid lb n with
    | true, true => if la = lb then use s la else bad s
    | true, false => heal (use s la) (copyA n) (copyB n)
    | false, true => heal (use s lb) (copyB n) (copyA n)
    | false, false => bad s

/-- PARAMETER_CHECK: in BOOT and every 10 s. -/
def parameterCheck (s : State) : State := s.judgeSets.modeEval

/-- PARAMETER_CHECK (R543). -/
def execParameterCheck (s : State) : Host.Outcome State Fault Refusal := .next (parameterCheck s)

/-! ### Safe inputs on the island (R525-R531) -/

/-- A field of the receive area. -/
def State.rxW (s : State) (o n : Nat) : Nat := ofBytes ((s.cup.rx.drop o).take n)

/-- Inputs with a stuck-high, cross-short or discrepancy fault (R529, R530). -/
def State.inFaults (s : State) : Nat := (s.rxW 44 2 ||| s.rxW 46 2 ||| s.cup.disc.toNat) &&& psUsed s.cup.set

/-- Whether input `k` alone has logical state 1: used, filtered 1, no fault, its supply not overloaded. -/
def State.inOne (s : State) (k : Nat) : Bool :=
  let j := psF s.cup.set (0x10 + 4 * k) 0 3
  (psUsed s.cup.set).testBit k && (s.rxW 42 2).testBit k && !(s.inFaults).testBit k && !((s.rxW 2 2).testBit j && Nat.blt j 4)

/-- The logical state of input `k` (R529, R530): of a pair, 1 only while both are 1. -/
def State.input (s : State) (k : Nat) : Bool :=
  s.inOne k && (psF s.cup.set (0x10 + 4 * k) 7 1 == 0 || s.inOne (Nat.xor k 1))

/-- The logical inputs as a mask. -/
def State.inputs (s : State) : Nat := ((List.range 16).map fun k => bit (s.input k) * 2 ^ k).sum

/-! ### Motion (R534-R538) -/

/-- Binary from Gray code of `n` bits. -/
def unGray (n : Nat) : Nat → Nat
  | 0 => n
  | k + 1 => Nat.xor (unGray n k) (n / 2 ^ (k + 1))

/-- The position of an axis after a sample of the receive area (R534, R538): `l` the set, `z` a Z index since the last one. -/
def axisSample (l : List Byte) (n cnt : Nat) (z : Bool) (x : Axis) : Axis :=
  let ty := psF l (axO n 0) 1 2
  let sg : Int := if psF l (axO n 0) 3 1 = 1 then -1 else 1
  let cpr := psF l (axO n 4) 0 28
  let ofs := psW l (axO n 0x0C)
  if 2 ≤ ty then
    let ab := psF l (axO n 8) 0 6
    let mt := psF l (axO n 8) 10 6
    let raw := cnt % 2 ^ ab
    let raw := if psF l (axO n 8) 6 1 = 1 then unGray raw ab else raw
    let p0 : Int := sg * ((raw / 2 ^ (ab - mt) * cpr + raw % 2 ^ (ab - mt) : Nat) : Int)
    let c := (p0 % (cpr : Int)).toNat
    { x with
      cnt := cnt, seen := true, acc := p0, ref := x.ref || x.fault == 0
      p := p0 / (cpr : Int) * 2 ^ 32 + (((c * 2 ^ 32 / cpr + ofs) % 2 ^ 32 : Nat) : Int) }
  else
    let d : Int := sg * signedOf ((cnt + 2 ^ 40 - x.cnt) % 2 ^ 40) 40
    let acc : Int := if x.seen then x.acc + d else (sg * (cnt : Int)) % (cpr : Int)
    let setRef := z && psF l (axO n 0) 8 1 == 1 && !x.ref && x.fault == 0
    let acc : Int := if setRef then (2 * acc + cpr) / (2 * (cpr : Int)) * cpr else acc
    let q : Int := acc * 2 ^ 32 / (cpr : Int) + (ofs : Int)
    let k0 := if x.seen then x.k0 else q / 2 ^ 32
    { x with cnt := cnt, seen := true, acc := acc, ref := x.ref || setRef, k0 := k0, p := q - k0 * 2 ^ 32 }

/-- The speed at a computation (R535): v_raw over 500 us, then the mean of the last EFILT + 1 values. -/
def axisSpeed (l : List Byte) (n : Nat) (x : Axis) : Axis :=
  let raw : Int := match x.ps with
    | _ :: p2 :: _ => ((x.p - p2) * 2000).tdiv 65536
    | _ => 0
  let vs := (raw :: x.vs).take 9
  let m := vs.take (psF l (axO n 0) 4 4 + 1)
  { x with vs := vs, v := m.sum.tdiv (m.length : Int), ps := (x.p :: x.ps).take 2 }

/-- Whether the function with activation word at `o` is active (R536), given the logical inputs. -/
def fnActive (l : List Byte) (n o ins : Nat) : Bool :=
  let w := psW l (axO n o)
  bitsOf w 17 1 == 1 && (bitsOf w 16 1 == 1 || (List.range 16).any fun k => w.testBit k && !ins.testBit k)

/-- SLS, SDI and SLP at a computation (R536-R538): the violations found. -/
def axisCheck (l : List Byte) (n ins : Nat) (x : Axis) : Axis :=
  let fast := decide ((psW l (axO n 0x10) : Int) < x.v.natAbs)
  let sls := fnActive l n 0x14 ins && fast
  let dir := psF l (axO n 0x18) 18 1
  let tol : Int := psW l (axO n 0x1C)
  let sdiOn := fnActive l n 0x18 ins
  let r := x.sdiRef.getD x.p
  let r := if dir = 0 then max r x.p else min r x.p
  let sdi := sdiOn && decide (tol < (if dir = 0 then r - x.p else x.p - r))
  let slp := fnActive l n 0x20 ins &&
    (decide (x.p < psPos l (axO n 0x24)) || decide (psPos l (axO n 0x2C) < x.p) || !x.ref)
  let sdiN := if sdi then min 2 (x.sdiN + 1) else 0
  let slpN := if slp then min 2 (x.slpN + 1) else 0
  { x with
    slsPrev := fast, sdiRef := if sdiOn then some r else none, sdiN := sdiN, slpN := slpN
    viol := BitVec.ofNat 3 (bit (sls && x.slsPrev) + 2 * bit (sdiN == 2) + 4 * bit (slpN == 2)) }

/-- The plausibility check of axis `n` against the other axis (R539): consecutive computations that miss it. -/
def axisPlaus (l : List Byte) (n : Nat) (x m : Axis) : Axis :=
  if psF l (axO n 0) 9 1 = 1 && x.seen && m.seen && x.fault == 0 && m.fault == 0 then
    let d : Int := ((x.p - signedOf (psW l (axO n 0x34)) 32 * m.p / 65536).natAbs : Int)
    match x.plBase with
    | none => { x with plBase := some d, plN := 0 }
    | some b => { x with plN := if psW l (axO n 0x38) < (d - b).natAbs then x.plN + 1 else 0 }
  else { x with plBase := none, plN := 0 }

/-- Axis `n`. -/
def State.axis (s : State) (n : Nat) : Axis := s.cup.axes.getD n Axis.init

/-- The state with axis `n` changed. -/
def State.updAxis (s : State) (n : Nat) (f : Axis → Axis) : State :=
  s.updCup fun x => { x with axes := x.axes.setIfInBounds n (f (x.axes.getD n Axis.init)) }

/-- Whether axis `n` is monitored. -/
def State.axEn (s : State) (n : Nat) : Bool := !s.cup.set.isEmpty && psF s.cup.set (axO n 0) 0 1 == 1

/-- The code of a plausibility fault in CUP_AXn_STAT (DESIGN CHOICE, log entry 42). -/
abbrev plausCode : Nat := 7

/-- A computation of motion (R519, R533-R539): samples, speed, plausibility, checks; violations and encoder faults of a monitored
axis latch their reactions. The violations of the first computation of a cycle stand through the cycle, so that a reset accepted in it
leaves the reaction latched (R533). -/
def State.motion (s : State) : State :=
  let l := s.cup.set
  let ins := s.inputs
  let s := [0, 1].foldl (fun (s : State) n =>
    if s.axEn n && !s.cup.rx.isEmpty then
      s.updAxis n fun x => axisSpeed l n (axisSample l n (s.rxW (8 + 16 * n) 5) ((s.rxW (17 + 16 * n) 1).testBit 0) x)
    else s) s
  let x0 := axisPlaus l 0 (s.axis 0) (s.axis 1)
  let x1 := axisPlaus l 1 (s.axis 1) (s.axis 0)
  let pl := Nat.ble 2 x0.plN || Nat.ble 2 x1.plN
  let s := (s.updAxis 0 fun _ => x0).updAxis 1 fun _ => x1
  [0, 1].foldl (fun (s : State) n =>
    if s.axEn n then
      let s := s.updAxis n fun x => if pl then { x with fault := plausCode, ref := false } else x
      let s := s.updAxis n fun x =>
        let y := axisCheck l n ins x
        if s.cup.half then { y with viol := y.viol ||| x.viol } else y
      let x := s.axis n
      let r := x.viol.toNat + 8 * bit (x.fault != 0)
      s.updCup fun c => { c with react := c.react ||| BitVec.ofNat 8 (r * 16 ^ n) }
    else s) s

/-! ### Output commands (R531) -/

/-- Whether every input that output `m` requires has logical state 1. -/
def State.reqMet (s : State) (m : Nat) : Bool :=
  let w := psF s.cup.set (0x60 + 4 * m) 16 16
  (List.range 16).all fun k => !w.testBit k || s.input k

/-- Whether output `m` is commanded on (R531, R532). -/
def State.outCmd (s : State) (m : Nat) : Bool :=
  let w := psW s.cup.set (0x60 + 4 * m)
  (s.mode == 3 || s.mode == 4) && s.cup.hold == 0 && !s.cup.set.isEmpty && bitsOf w 0 1 == 1 && s.reqMet m &&
    (bitsOf w 1 1 == 1 || s.cup.react == 0) && (bitsOf w 3 1 == 0 || !s.cup.rstreq.getLsbD m) && !(s.rxW 48 2).testBit (2 + m)

/-- The logic of the outputs: RSTREQ becomes pending where REQ is unmet, and the commands go to the transmit area with their
complement. -/
def State.outLogic (s : State) : State :=
  let pend := [0, 1].foldl (fun n m =>
    n + bit (psF s.cup.set (0x60 + 4 * m) 3 1 == 1 && (s.cup.rstreq.getLsbD m || !s.reqMet m)) * 2 ^ m) 0
  let s := s.updCup fun x => { x with rstreq := BitVec.ofNat 2 pend }
  let c := bit (s.outCmd 0) + 2 * bit (s.outCmd 1)
  s.updCup fun x => { x with tx := (x.tx.set 2 (BitVec.ofNat 8 c)).set 3 (BitVec.ofNat 8 (3 - c)) }

/-! ### Latches and their reset (R526, R529, R532, R533, R550) -/

/-- Reactions that stand although their reset is asked: the cause is still present. -/
def State.reactLive (s : State) : Nat :=
  ([0, 1].map fun n => ((s.axis n).viol.toNat + 8 * bit ((s.axis n).fault != 0)) * 16 ^ n).sum

/-- REACT_RESET with `mask` (R550): reactions, overloaded supplies and output faults whose cause is gone are cleared, and outputs
whose REQ is met have had their reset. Returns the mask of those still latched. -/
def State.reactReset (s : State) (mask : Nat) : Nat × State :=
  let keep := s.reactLive
  let s := s.updCup fun x => { x with
    react := x.react &&& BitVec.ofNat 8 (keep ||| (255 - mask % 256))
    rstreq := BitVec.ofNat 2 ([0, 1].map fun m => bit (x.rstreq.getLsbD m && !s.reqMet m) * 2 ^ m).sum }
  let s := s.updDie fun d => { d with
    sup := if mask.testBit 9 then d.sup.map fun q => if q.ovl && 3 ≤ q.passes then { q with ovl := false, retried := false } else q
      else d.sup
    outs := if mask.testBit 10 then d.outs.map fun q => { q with fault := false, lows := 0 } else d.outs }
  let left := s.cup.react.toNat + 256 * bit (s.inFaults != 0) + 512 * bit (s.die.sup.toList.any fun q => q.ovl) +
    1024 * bit (s.die.outs.toList.any fun q => q.fault)
  (left &&& mask, s)

/-- A pulse of 0.1-2 s (200-4,000 cycles) on an input in RSTIN acts as REACT_RESET of everything (R533, R541). -/
def State.rstPulse (s : State) : State :=
  let m := psF s.cup.set 8 0 16
  let ins := s.inputs
  let hit := (List.range 16).any fun k =>
    m.testBit k && !ins.testBit k && Nat.ble 200 (s.cup.high.getD k 0) && Nat.ble (s.cup.high.getD k 0) 4000
  let s := s.updCup fun x => { x with
    high := Vector.ofFn fun k : Fin 16 => if ins.testBit k then min 5000 (x.high.getD k 0 + 1) else 0 }
  if hit then (s.reactReset 0x7FF).2 else s

/-! ### Status (R553, R560) -/

/-- The status word of LVS63 (R553). -/
def State.cupStatus (s : State) : Word :=
  let c := s.cup
  word (s.mode + 8 * bit (c.hold != 0) + 16 * c.hold + 256 * c.react.toNat +
    2 ^ 16 * (bit (s.die.outs.getD 0 ⟨false, false, false, 0, 0, false, false⟩).level +
      2 * bit (s.die.outs.getD 1 ⟨false, false, false, 0, 0, false, false⟩).level) +
    2 ^ 18 * c.setNo + 2 ^ 22 * bit (!c.set.isEmpty) + 2 ^ 23 * bit s.runPerm + 2 ^ 24 * bit c.stby +
    2 ^ 25 * (c.cycles.toNat % 128))

/-- Whether the selected set is confirmed in the seal record. -/
def State.setConf (s : State) : Bool :=
  !s.cup.set.isEmpty && Tbl.get (fun _ => none) s.sealw.conf s.cup.setNo == some (word (psW s.cup.set 0x7FC))

/-- The registers of the CUP block take the values of the safety cycle that has ended (R560). -/
def State.cupPublish (s : State) : State :=
  let c := s.cup
  let off := !(s.mode == 3 || s.mode == 4) || c.hold != 0
  let s := s.setReg CUP_STAT (word (c.active + 2 * bit c.stby + 4 * bit (c.hold != 0) + 8 * c.hold + 128 * bit off +
    2 ^ 8 * bit (!c.set.isEmpty) + 2 ^ 9 * c.setNo + 2 ^ 13 * bit s.setConf + 2 ^ 14 * bit s.runPerm +
    2 ^ 15 * bit (s.sealw.brk || s.sealw.recBrk) + 2 ^ 16 * bit ((c.job.map fun j => j.op == 7).getD false)))
  let s := s.setReg CUP_SW (word (c.sw.toNat + 4096 * bit (swValid c.sw)))
  let s := s.setReg CUP_SI (word (s.inputs + s.inFaults * 65536))
  let cmd := (c.tx.getD 2 0).toNat % 4
  let s := s.setReg CUP_SO (word ((if off then 0 else cmd) + s.rxW 48 2 % 16 * 4 + s.rxW 2 2 % 16 * 64))
  let s := s.setReg CUP_REACT (word (c.react.toNat + c.rstreq.toNat * 256))
  let s := (s.setReg CUP_PSCRC (word (psW c.set 0x7FC))).setReg CUP_PSSEQ (word (psW c.set 4))
  let s := s.setReg CUP_FWVER (word ((c.ver.getD c.active 0).toNat % 65536 + (c.ver.getD (1 - c.active) 0).toNat % 65536 * 65536))
  let s := [0, 1].foldl (fun (s : State) n =>
    let x := s.axis n
    let s := (s.setReg (CUP_AX_POSL n) (wordOfInt x.p)).setReg (CUP_AX_POSH n) (wordOfInt (x.p / 2 ^ 32))
    let act (o : Nat) : Nat := bit (s.axEn n && fnActive c.set n o s.inputs)
    (s.setReg (CUP_AX_VEL n) (wordOfInt x.v)).setReg (CUP_AX_STAT n)
      (word (bit (s.axEn n) + 2 * bit x.ref + 4 * act 0x14 + 8 * act 0x18 + 16 * act 0x20 + 32 * (x.fault % 8)))) s
  (s.setReg CUP_CYCLE c.cycles).setReg CUP_TESTCYC c.tests

/-! ### The address map of a core (R515, R517) -/

/-- Whether core `k` (0, 1) is the active one. -/
def State.isActive (s : State) (k : Nat) : Bool := s.cup.active == k

/-- The key of island memory in `ecc`: above every fabric address. -/
def islandKey (k a : Nat) : Nat := 2 ^ 32 + 65536 * k + a

/-- The check of the data RAM words that `n` bytes at `a` of core `k` touch (R557): single-bit errors are corrected and reported;
an uncorrectable one is HOLD cause 4. -/
def State.ramCheck (s : State) (k a n : Nat) : Bool × State :=
  (granules 4 a n).foldl (fun (r : Bool × State) g =>
    match r.2.mark (islandKey k g) with
    | none => r
    | some (.single b) =>
      (r.1, (r.2.report 1 (resId 8 k) g (46 + synOf 0 b * 256)).setMark (islandKey k g) none)
    | some .uncorrectable =>
      let s := r.2.report 2 (resId 8 k) g (46 + synOf 0 0xFF * 256)
      (true, if s.isActive k then s.holdCause 4 else s)) (false, s)

/-- The bytes of a RAM of a core. -/
def State.ramBytes (s : State) (k a n : Nat) : List Byte :=
  (List.range n).map fun j => Tbl.get (fun _ => 0) s.cup.ram (65536 * k + a + j)

/-- The state with bytes of a core's RAM written. -/
def State.setRam (s : State) (k a : Nat) (d : List Byte) : State :=
  s.updCup fun x => { x with
    ram := (d.zipIdx).foldl (fun t (b, j) => Tbl.set (fun _ => 0) t (65536 * k + a + j) b) x.ram }

/-- MON_STAT and MON_GW as core `k` reads them. -/
def State.monStat (s : State) (k : Nat) : Word :=
  word (bit s.cup.half + 2 * bit (s.isActive k) + s.cup.cycles.toNat % 65536 * 65536)
def State.monGw (s : State) : Word :=
  let f (a : Nat) : Nat := bit (s.flag a XCH_MBX_STAT_FULL)
  word ((s.reg (XCH_A_LASTST 2)).toNat % 4096 + f (XCH_MBX_STAT 124) * 2 ^ 16 + f (XCH_MBX_STAT 125) * 2 ^ 17 +
    f (XCH_MBX_STAT 126) * 2 ^ 18 + f (XCH_MBX_STAT 127) * 2 ^ 19 + f (XCH_LVS_STAT 63) * 2 ^ 20)

/-- The MRAM read that a write of MON_MRA starts (R517): a word of the safety area; an uncorrectable one returns a bus error. -/
def monMra (k : Nat) (v : Word) (s : State) : State :=
  let a := v.toNat / 4 * 4
  if !s.isActive k then s
  else
    let s := s.updCup fun x => { x with mra := word a }
    if !safetyArea a then s.updCup fun x => { x with mrd := .busError }
    else
      match s.readMram a 4 with
      | (some l, s) => s.updCup fun x => { x with mrd := .data l }
      | (none, s) => s.updCup fun x => { x with mrd := .busError }

/-- A write of MON_CHK by core `k` (R517): PFSIG against the signature table, and the order of the checkpoints. -/
def checkpoint (k n : Nat) (s : State) : State :=
  if !s.isActive k then s
  else
    let e := 33 + k
    let good := (s.eng e).pfsig == Tbl.get (fun _ => 0) s.cup.sig (64 * k + n)
    let order := match s.cup.chk with
      | none => n == 0
      | some m => Nat.blt m n
    let s := s.updCup fun x => { x with chk := some n, chk0 := x.chk0 || n == 0, chk63 := x.chk63 || n == 63 }
    let s := if n = 0 then s.updEng e fun g => { g with pfsig := 0 } else s
    if good && order then s else s.holdCause 1

/-- A write of MON_FAIL by core `k`: a nonzero value is HOLD cause 11. -/
def monFail (k : Nat) (v : Word) (s : State) : State := if s.isActive k && v.toNat % 16 != 0 then s.holdCause 11 else s

/-- A word read of the monitor page. -/
def State.monRead (s : State) (k o : Nat) : Resp :=
  let r (w : Word) : Resp := .data (toBytes w.toNat 4)
  match o with
  | 0x04 => r (s.monStat k)
  | 0x08 => r s.monGw
  | 0x0C => r s.cup.wwa
  | 0x10 => r s.cup.wwl
  | 0x18 => if s.cup.mrd = .idle then r 0 else s.cup.mrd
  | _ => r 0

/-- A word write of the monitor page; the window registers belong to the active core. -/
def State.monWrite (s : State) (k o : Nat) (v : Word) : State :=
  match o with
  | 0x00 => checkpoint k (v.toNat % 64) s
  | 0x0C => if s.isActive k then s.updCup fun x => { x with wwa := v } else s
  | 0x10 => if s.isActive k then s.updCup fun x => { x with wwl := word (v.toNat / 8 * 8) } else s
  | 0x14 => monMra k v s
  | 0x1C => monFail k v s
  | _ => s

/-- An access through the gateway (R515): MBX124, MBX125 consumed; MBX126, MBX127 and LVS63 posted; of the active core only. -/
def State.gateAccess (s : State) (op : Access) : Resp × State :=
  let old := s.resp
  let out (s : State) : Resp × State := (s.resp, s.answer old)
  match op with
  | .read a 4 =>
    if a = 0x20000 then out (mailboxConsume .gateway 2 124 s)
    else if a = 0x20004 then out (mailboxConsume .gateway 2 125 s)
    else (.busError, s)
  | .write a d =>
    let v := word (ofBytes d)
    if d.length != 4 then (.busError, s)
    else if a = 0x20008 then out (mailboxPost .gateway 2 126 v s)
    else if a = 0x2000C then out (mailboxPost .gateway 2 127 v s)
    else if a = 0x20010 then out (lvsPost .gateway 2 63 v s)
    else (.busError, s)
  | _ => (.busError, s)

/-- An access of Cupola core processor `e` (33, 34) in its address map (R515). Every other address completes with a bus error
(R150). -/
def cupAccess (e : Nat) (op : Access) (s : State) : Resp × State :=
  let k := e - 33
  let a := op.addr
  let n := op.len
  if a + n ≤ 0x10000 then
    match op with
    | .read a n =>
      match s.ramCheck k a n with
      | (true, s) => (.uncorrectable, s)
      | (false, s) => (.data (s.ramBytes k a n), s)
    | .write a d =>
      let s := (granules 4 a d.length).foldl (fun (s : State) g =>
        if a ≤ g && g + 4 ≤ a + d.length then s.setMark (islandKey k g) none else s) s
      (.ok, s.setRam k a d)
  else if 0x10000 ≤ a && a + n ≤ 0x10100 then
    match op with
    | .read a n => (.data ((List.range n).map fun j => s.cup.rx.getD (a - 0x10000 + j) 0), s)
    | .write _ _ => (.busError, s)
  else if 0x10100 ≤ a && a + n ≤ 0x10140 then
    match op with
    | .read a n => (.data ((List.range n).map fun j => s.cup.tx.getD (a - 0x10100 + j) 0), s)
    | .write a d =>
      if s.isActive k then
        (.ok, s.updCup fun x => { x with tx := (d.zipIdx).foldl (fun t (b, j) => t.set (a - 0x10100 + j) b) x.tx })
      else (.ok, s)
  else if 0x10200 ≤ a && a + n ≤ 0x10240 then
    if n != 4 then (.busError, s)
    else
      match op with
      | .read a _ => (s.monRead k (a - 0x10200), s)
      | .write a d => (.ok, s.monWrite k (a - 0x10200) (word (ofBytes d)))
  else if 0x20000 ≤ a && a + n ≤ 0x20014 then (if s.isActive k then s.gateAccess op else (.busError, s))
  else (.busError, s)

/-- A double fault of Cupola core processor `e` (R557): HOLD cause 4 on the active core; a standby core is no longer ready. -/
def coreFault (e : Nat) (s : State) : State :=
  if s.isActive (e - 33) then s.holdCause 4 else (s.updCup fun x => { x with stby := false }).degrSync

end Sys2Proof.Machine
end

