-- ==== Sys2Proof/Machine/FieldDie.lean ====
section
/-! DEFINITION. The field die and the field link: frames, training, time-outs, identity and counter lock, safe inputs, sensor
supplies, safe outputs, field-die proxy registers (R16-R18, R245, R520-R532, R540, R561).
Choices of the model: log entries 26, 87, 88, 91, 105. -/

set_option autoImplicit false

namespace Sys2Proof.Machine

open Sys2Proof

/-! ### Frames (R520-R522) -/

/-- `n` free words as bytes: content that the specification does not lay out. -/
def State.freeBytes (s : State) : Nat → List Byte × State
  | 0 => ([], s)
  | n + 1 =>
    let (w, s) := s.free
    let (l, s) := State.freeBytes s n
    (toBytes w.toNat 4 ++ l, s)

/-- A frame of 100 bytes: its first 96 bytes and their CRC. -/
def withCrc (l : List Byte) : List Byte := l ++ toBytes (crc32c l).toNat 4

/-- A bit of a field-die output record. -/
def outBits (d : Die) (f : SafeOut → Bool) : Nat := ((d.outs.toList.zipIdx).map fun (q, m) => bit (f q) * 2 ^ m).sum

/-- A bit of the input records, as a mask. -/
def inBits (d : Die) (f : SafeIn → Bool) : Nat := ((d.ins.toList.zipIdx).map fun (q, k) => bit (f q) * 2 ^ k).sum

/-- The 16 bytes of an encoder in an uplink frame (R521): count, stamp, status (bit 0: Z index), diagnostic result. -/
def encBytes (e : EncSample) : List Byte :=
  toBytes e.count.toNat 5 ++ toBytes e.stamp.toNat 4 ++ [BitVec.ofNat 8 (bit e.z), e.diag.zeroExtend 8] ++ List.replicate 5 0

/-- An uplink frame is sent (R520, R521): every fifth one is a safety exchange with inputs, test results, outputs and switches. -/
def State.sendUp (s : State) (w : FldWorld) : State :=
  let d := s.die
  let safe := d.upPos == 4
  let head := [BitVec.ofNat 8 (if safe then 2 else 1), BitVec.ofNat 8 (d.upSeq + 1)] ++
    toBytes (((d.sup.toList.zipIdx).map fun (q, j) => bit q.ovl * 2 ^ j).sum) 2 ++ toBytes w.time.toNat 4 ++ encBytes w.en0 ++
    encBytes w.en1
  let (mains, s) := s.freeBytes 2
  let (rot, s) := s.freeBytes 8
  let (other, s) := s.freeBytes 12
  let body :=
    if safe then
      toBytes (inBits d (·.raw)) 2 ++ toBytes (inBits d (·.logical)) 2 ++ toBytes (inBits d (·.stuck)) 2 ++
        toBytes (inBits d (·.cross)) 2 ++
        toBytes (outBits d (·.level) + 4 * outBits d (·.fault) + 16 * outBits d (·.stuck)) 2 ++
        toBytes (w.sw.toNat + 4096 * bit s.sealw.brk + 8192 * bit s.sealw.vbat) 2 ++ mains ++ toBytes w.mv.toNat 2 ++
        toBytes w.temp.toNat 2 ++ rot
    else other ++ rot.take 8
  (s.updCup fun x => { x with up := withCrc (head ++ body) }).updDie fun y =>
    { y with upSeq := (y.upSeq + 1) % 256, upPos := (y.upPos + 1) % 5 }

/-- Whether the output commands are forced off (R44, R518): a HOLD cause is latched, or the mode is not RUN or DEGRADED. -/
def State.outOff (s : State) : Bool := s.cup.hold != 0 || !(s.mode == 3 || s.mode == 4)

/-- A word of FLD_ENn as it reads: of a monitored axis the mirror of the set. -/
def State.fldEn (s : State) (n o : Nat) : Word :=
  if s.axEn n then
    let l := s.cup.set
    match o with
    | 0 => word (psF l (axO n 0) 1 3)
    | 4 => word (psF l (axO n 4) 0 28)
    | 8 => word (psF l (axO n 8) 0 16)
    | _ => 0
  else s.reg (FLD_EN_CFG n + o)

/-- A downlink frame is sent: every fifth one is a safety exchange with the transmit area; commands are off where R518 or R44 say
so. -/
def State.sendDown (s : State) : State :=
  let c := s.cup
  let safe := c.downPos == 4
  let (ctl, s) := s.freeBytes 1
  let cfg (n : Nat) : List Byte :=
    toBytes (s.fldEn n 0).toNat 4 ++ toBytes (s.fldEn n 4).toNat 4 ++ toBytes (s.fldEn n 8).toNat 4 ++
      List.replicate 4 0
  let head := [BitVec.ofNat 8 (if safe then 2 else 1), BitVec.ofNat 8 (c.downSeq + 1)] ++ ctl.take 2 ++
    toBytes (s.t32 0).toNat 4 ++ cfg 0 ++ cfg 1
  let tx := if s.outOff then (c.tx.set 2 0).set 3 3 else c.tx
  let n := if safe then (c.sseq + 1) % 65536 else c.sseq
  let body := if safe then toBytes n 2 ++ (tx.drop 2).take 54 else List.replicate 56 0
  s.updCup fun x => { x with
    down := withCrc (head ++ body), downSeq := (x.downSeq + 1) % 256, downPos := (x.downPos + 1) % 5, sseq := n }

/-- FIELD_LINK_FRAME_SEND: the field die sends an uplink frame with what it samples of the world, or the island a downlink frame. -/
def fieldLinkFrameSend (w : Option FldWorld) (s : State) : State :=
  match w with
  | some w => if s.die.run then s.sendUp w else s
  | none => s.sendDown

/-- FIELD_LINK_FRAME_SEND (R520). -/
def execFieldLinkFrameSend (w : Option FldWorld) (s : State) : Host.Outcome State Fault Refusal := .next (fieldLinkFrameSend w s)

/-- The checks of R522: intact, sequence number one above the last, valid type, a safety exchange in every fifth position. -/
def frameOk (f : List Byte) (intact : Bool) (seq pos : Nat) : Bool :=
  let t := (f.getD 0 0).toNat % 16
  intact && f.length == 100 && (f.getD 1 0).toNat == (seq + 1) % 256 && (t == 1 || t == 2) && ((t == 2) == (pos == 4)) &&
    word (ofBytes (f.drop 96)) == crc32c (f.take 96)

/-! ### Link state (R523, R524) -/

/-- FLD_LINK.STATE follows the link. -/
def State.linkSet (s : State) (st : Nat) : State :=
  (s.updCup fun x => { x with link := st }).setFld FLD_LINK ⟨0, 2⟩ st

/-- The angle, line and mains bases are invalid until the field counter is locked again (R245). -/
def State.fieldStart (s : State) : State :=
  let s := ((s.setFlag ALM_STAT ALM_STAT_FLDLOCK false).angInvalid 0).angInvalid 1
  (s.setFlag ALM_LIN_STAT ALM_LIN_STAT_VALID false).mnsUnlock (s.clockNs 0)

/-- The field die switches its outputs off and stops the test pulses (R523, R524, R606). -/
def State.dieOff (s : State) : State :=
  s.updDie fun d => { d with
    linked := false
    outs := d.outs.map fun q => { q with on := false, test := false, lows := 0 }
    sup := d.sup.map fun q => { q with pulse := false } }

/-- The link drops: a loss is counted and reported; the field die keeps its outputs off throughout it (R524, R563). -/
def State.linkDown (s : State) : State :=
  if s.cup.link = 2 then ((s.dieOff.linkSet 0).count FLD_LOSS 1).report 9 (resId 9 0) 0 0 else s.linkSet 0

/-- After 100 consecutive valid frames each way the link is up (R524). -/
def State.linkTrain (s : State) : State :=
  if s.cup.link = 1 && Nat.ble 100 s.cup.goodUp && Nat.ble 100 s.cup.goodDown then
    ((s.linkSet 2).updCup fun x => { x with ident := false }).fieldStart
  else s

/-! ### Identity and counter lock (R16-R18, R245) -/

/-- IDENTITY_COPY, IDENTITY_COPY_FAILED, IDENTITY_CHANGED (R16-R18). -/
def State.identityCopy (s : State) (i : FldIdent) : State :=
  let lot := i.lot &&& 0x1FFFFFFF
  let pos := i.pos &&& 0xFFFFFF
  let date := i.date &&& 0xFFFF
  if !i.good then s.setFlag FLD_FD_IDSTAT FLD_FD_IDSTAT_CRC_ERR true
  else
    let differs := s.flag FLD_FD_IDSTAT FLD_FD_IDSTAT_VALID &&
      (s.reg FLD_FD_LOT != lot || s.reg FLD_FD_POS != pos || s.reg FLD_FD_DATE != date)
    let s := ((s.setReg FLD_FD_LOT lot).setReg FLD_FD_POS pos).setReg FLD_FD_DATE date
    let s := (s.setFlag FLD_FD_IDSTAT FLD_FD_IDSTAT_VALID true).setFlag FLD_FD_IDSTAT FLD_FD_IDSTAT_CRC_ERR false
    let s := s.updCup fun x => { x with ident := true }
    if differs then (s.setFlag FLD_FD_IDSTAT FLD_FD_IDSTAT_CHG true).report 9 (resId 9 0) 0 0 else s

/-- FIELD_COUNTER_LOCK (R245): the measured offset in ns, saturating in FLDERR; locked within 30 ns. -/
def State.counterLock (s : State) (ns : Int) : State :=
  let v := max (-32768) (min 32767 ns)
  (s.setFld ALM_STAT ALM_STAT_FLDERR (v % 65536).toNat).setFlag ALM_STAT ALM_STAT_FLDLOCK (decide (-30 ≤ ns) && decide (ns ≤ 30))

/-! ### Reception -/

/-- The encoder checks of the field die in a frame (R539): a diagnostic result in two consecutive samples is an encoder fault, which
ends with a good sample; the position reference is lost. -/
def State.encDiag (s : State) (f : List Byte) : State :=
  [0, 1].foldl (fun (s : State) n =>
    let d := (f.getD (18 + 16 * n) 0).toNat % 8
    s.updAxis n fun x =>
      if d = 0 then { x with diagN := 0, fault := if x.fault = plausCode && Nat.ble 2 x.plN then x.fault else 0 }
      else if x.diagN = 0 then { x with diagN := 1 }
      else { x with diagN := 2, fault := d, ref := false }) s

/-- A valid uplink frame is used: a safety exchange fills the receive area and raises EV4. -/
def State.takeUp (s : State) (f : List Byte) : State :=
  let s := s.encDiag f
  if (f.getD 0 0).toNat % 16 = 2 then
    let s := s.updCup fun x => { x with rx := f }
    let s := s.setReg FLD_ENV (word (ofBytes ((f.drop 60).take 4)))
    (if s.cup.link = 2 then s.causeOver 5 else s).latchEv s.activeCore 4
  else s

/-- The island receives the frame on the uplink. -/
def State.recvUp (s : State) (intact : Bool) (ident : Option FldIdent) (offset : Option Int) : State :=
  let f := s.cup.up
  let c := s.cup
  let good := frameOk f intact c.upSeq c.upPos
  let s := s.updCup fun x => { x with
    up := [], upSeq := if intact && !f.isEmpty then (f.getD 1 0).toNat else (x.upSeq + 1) % 256
    upPos := if intact && (f.getD 0 0).toNat % 16 == 2 then 0 else (x.upPos + 1) % 5 }
  if !good || c.link = 0 then
    if c.link = 0 then s
    else (s.updCup fun x => { x with goodUp := 0, bad := x.bad.filter (fun t => Nat.blt s.ticks (t + 125000)) ++ [s.ticks] }).count
      FLD_BADFRM 1
  else
    let s := (s.updCup fun x => { x with goodUp := min 100 (x.goodUp + 1) }).linkTrain.takeUp f
    if s.cup.link != 2 then s
    else
      let s := match ident with
        | some i => s.identityCopy i
        | none => s
      match offset with
      | some ns => s.counterLock ns
      | none => s

/-- OUTPUT_COMMAND_ACCEPT (R522): the command and its complement agree and the safety sequence number has advanced by 1. -/
def State.acceptCmd (s : State) (f : List Byte) : State :=
  let n := ofBytes ((f.drop 40).take 2)
  let c := (f.getD 42 0).toNat % 4
  let ok := (f.getD 43 0).toNat % 4 == 3 - c && n == (s.die.sseq + 1) % 65536
  let s := s.updDie fun d => { d with sseq := n, linked := d.linked || ok }
  if ok then
    s.updDie fun d => { d with
      outs := Vector.ofFn fun m : Fin 2 =>
        let q := d.outs.get m
        let on := c.testBit m && !q.fault && !q.stuck && d.run
        { q with on := on, highs := if on then 0 else q.highs, lows := if on then q.lows else 0 } }
  else s

/-- The field die receives the frame on the downlink. -/
def State.recvDown (s : State) (intact : Bool) : State :=
  let f := s.cup.down
  let d := s.die
  let good := frameOk f intact d.seq d.pos
  let s := s.updCup fun x => { x with down := [] }
  let s := s.updDie fun y => { y with
    seq := if intact && !f.isEmpty then (f.getD 1 0).toNat else (y.seq + 1) % 256
    pos := if intact && (f.getD 0 0).toNat % 16 == 2 then 0 else (y.pos + 1) % 5 }
  if !d.run || s.cup.link = 0 then s
  else if !good then (s.updCup fun x => { x with goodDown := 0 }).count FLD_BADFRM 1
  else
    let s := (s.updCup fun x => { x with goodDown := min 100 (x.goodDown + 1) }).linkTrain
    if (f.getD 0 0).toNat % 16 = 2 && s.cup.link == 2 then s.acceptCmd f else s

/-- FIELD_LINK_FRAME: the frame last sent arrives, intact or not; of an uplink frame the identity its rotating slot completes and
the field-counter offset then measured. -/
def fieldLinkFrame (up intact : Bool) (ident : Option FldIdent) (offset : Option Int) (s : State) : State :=
  if up then s.recvUp intact ident offset else s.recvDown intact

/-- FIELD_LINK_FRAME (R522). -/
def execFieldLinkFrame (up intact : Bool) (ident : Option FldIdent) (offset : Option Int) (s : State) :
    Host.Outcome State Fault Refusal := .next (fieldLinkFrame up intact ident offset s)

/-- FIELD_LINK_TIMEOUT: no valid safety exchange for 150 us, at the field die or at the island (R523); in BOOT the island waits for
the handshake (R524). -/
def fieldLinkTimeout (die : Bool) (s : State) : State :=
  if die then s.dieOff else if s.cup.link = 2 then s.linkDown.holdCause 5 else if s.mode = 1 then s else s.holdCause 5

/-- FIELD_LINK_TIMEOUT (R523). -/
def execFieldLinkTimeout (die : Bool) (s : State) : Host.Outcome State Fault Refusal := .next (fieldLinkTimeout die s)

/-- LANE_STUCK: the link drops at once; the lane is a permanent fault (R523, R563). -/
def laneStuck (l : Fin 4) (s : State) : State :=
  let s := s.setReg FLD_LINK (s.reg FLD_LINK ||| word (2 ^ (2 + l.val)))
  s.linkDown.report 8 (resId 9 l) 0 0

/-- LANE_STUCK (R523). -/
def execLaneStuck (l : Fin 4) (s : State) : Host.Outcome State Fault Refusal := .next (laneStuck l s)

/-- Training starts (R524): both ends count afresh. -/
def State.startTraining' (s : State) : State :=
  let s := (s.linkSet 1).updCup fun x => { x with
    goodUp := 0, goodDown := 0, upSeq := s.die.upSeq, upPos := s.die.upPos, up := [], down := [] }
  s.updDie fun d => { d with seq := s.cup.downSeq, pos := s.cup.downPos, sseq := s.cup.sseq }

/-- LINK_RETRAIN: every 1 ms after a loss; a stuck or retired lane keeps the link down (R524, R568). -/
def linkRetrain (s : State) : State :=
  let dead := s.fld FLD_LINK ⟨2, 4⟩ != 0 || [0, 1, 2, 3].any fun l => (s.resource (resId 9 l)).state == 5
  if s.cup.link = 0 && !dead then s.startTraining' else s

/-- LINK_RETRAIN (R524). -/
def execLinkRetrain (s : State) : Host.Outcome State Fault Refusal := .next (linkRetrain s)

/-! ### Safe inputs and sensor supplies (R525-R530) -/

/-- The supply of input `k`, whether it is used, and its filter time in samples of 10 us. -/
def State.inSup (s : State) (k : Nat) : Nat := psF s.cup.set (0x10 + 4 * k) 0 3
def State.inUsed (s : State) (k : Nat) : Bool := (psUsed s.cup.set).testBit k
def State.inFilt (s : State) (k : Nat) : Nat := 50 * (psF s.cup.set (0x10 + 4 * k) 3 4 + 1)

/-- Supply `j` and input `k` of the field die. -/
def State.supply (s : State) (j : Nat) : Supply := s.die.sup.getD j ⟨false, false, 20, 0, 0, false, false⟩
def State.safeIn (s : State) (k : Nat) : SafeIn := s.die.ins.getD k ⟨false, false, 0, 0, false, false, false, 0, none⟩

/-- The state with supply `j` or input `k` changed. -/
def State.updSup (s : State) (j : Nat) (f : Supply → Supply) : State :=
  s.updDie fun d => { d with sup := d.sup.setIfInBounds j (f (s.supply j)) }
def State.updIn (s : State) (k : Nat) (f : SafeIn → SafeIn) : State :=
  s.updDie fun d => { d with ins := d.ins.setIfInBounds k (f (s.safeIn k)) }

/-- An input sample through the filter (R525): samples within the pulse of its own supply, up to 50 us after its end, are ignored. -/
def State.filterIn (s : State) (k : Nat) (r : Bool) : State :=
  let j := s.inSup k
  let skip := Nat.blt j 4 && ((s.supply j).pulse || Nat.blt (s.supply j).age 5)
  s.updIn k fun x =>
    if !s.inUsed k then { x with raw := r, logical := false, diff := 0, zeros := 0 }
    else if skip then { x with raw := r }
    else
      let zeros := if r then 0 else min 10000 (x.zeros + 1)
      let diff := if r == x.logical then 0 else x.diff + 1
      let flip := Nat.ble (s.inFilt k) diff
      let dem := (x.stuck || x.cross) && !x.demand && Nat.ble (s.inFilt k) zeros
      { x with
        raw := r, zeros := zeros, diff := if flip then 0 else diff, logical := if flip then r else x.logical
        demand := x.demand || dem, passes := if dem then 0 else x.passes }

/-- A cross-short of input `k` to supply `i` (R528): set against it and against every used input of `i` that is 1. -/
def State.crossShort (s : State) (k i : Nat) : State :=
  let set (s : State) (k : Nat) : State := s.updIn k fun x => { x with cross := true, demand := false, passes := 0, zeros := 0 }
  (List.range 16).foldl (fun (s : State) m => if s.inUsed m && s.inSup m == i && (s.safeIn m).logical then set s m else s) (set s k)

/-- INPUT_SAMPLE: the raw inputs every 10 us; 100 us after a pulse the suspects of a cross-short are judged. -/
def inputSample (raw : BitVec 16) (s : State) : State :=
  if !s.die.run then s
  else
    let s := s.updDie fun d => { d with sup := d.sup.map fun q => if q.pulse then q else { q with age := min 20 (q.age + 1) } }
    let s := (List.range 16).foldl (fun (s : State) k => s.filterIn k (raw.getLsbD k)) s
    let s := (List.range 16).foldl (fun (s : State) k =>
      match (s.safeIn k).suspect with
      | some i =>
        if (s.supply i).age = 10 then
          let s := s.updIn k fun x => { x with suspect := none }
          if raw.getLsbD k then s.crossShort k i else s
        else s
      | none => s) s
    s.updDie fun d => { d with hist := (raw :: d.hist).take 10 }

/-- INPUT_SAMPLE (R525). -/
def execInputSample (raw : BitVec 16) (s : State) : Host.Outcome State Fault Refusal := .next (inputSample raw s)

/-- DISCREPANCY_TIMEOUT: the inputs of pair `k` have differed for longer than DISC x 10 ms (R530). -/
def discrepancyTimeout (k : Fin 8) (s : State) : State :=
  if psF s.cup.set (0x10 + 8 * k) 7 1 = 1 && s.inOne (2 * k) != s.inOne (2 * k + 1) then
    s.updCup fun x => { x with disc := x.disc ||| BitVec.ofNat 16 (3 * 4 ^ k.val) }
  else s

/-- DISCREPANCY_TIMEOUT (R530). -/
def execDiscrepancyTimeout (k : Fin 8) (s : State) : Host.Outcome State Fault Refusal := .next (discrepancyTimeout k s)

/-- TEST_PULSE_START: supply `j` is switched off (R526); not without valid exchanges (R523) nor while overloaded. -/
def testPulseStart (j : Fin 4) (s : State) : State :=
  let w := psW s.cup.set (0x50 + 4 * j)
  let q := s.supply j
  if !s.cup.set.isEmpty && bitsOf w 0 2 == 3 && s.die.run && s.die.linked && (!q.ovl || q.retried) && !q.pulse then
    s.updSup j fun q => { q with pulse := true, pre := s.die.hist.getD 9 0, bad := false }
  else s

/-- TEST_PULSE_START (R526). -/
def execTestPulseStart (j : Fin 4) (s : State) : Host.Outcome State Fault Refusal := .next (testPulseStart j s)

/-- TEST_DROP_SAMPLE: at pulse start + DROP, an input of `j` that reads 1 while its logical state is 1 is stuck high (R527); an
input of another supply that reads 0 after reading 1 before the pulse is suspected of a cross-short to `j` (R528). -/
def testDropSample (j : Fin 4) (raw : BitVec 16) (s : State) : State :=
  if !(s.supply j).pulse then s
  else
    let pre := (s.supply j).pre
    (List.range 16).foldl (fun (s : State) k =>
      if !s.inUsed k || s.inSup k == 4 then s
      else if s.inSup k = j.val then
        if raw.getLsbD k && (s.safeIn k).logical then
          (s.updIn k fun x => { x with stuck := true, demand := false, passes := 0, zeros := 0 }).updSup j fun q => { q with bad := true }
        else s
      else if !raw.getLsbD k && pre.getLsbD k then s.updIn k fun x => { x with suspect := some j.val }
      else s) s

/-- TEST_DROP_SAMPLE (R527). -/
def execTestDropSample (j : Fin 4) (raw : BitVec 16) (s : State) : Host.Outcome State Fault Refusal := .next (testDropSample j raw s)

/-- TEST_PULSE_END: the supply is on again; a test without fault counts for it and for its inputs: a fault clears once a demand and
then 3 consecutive tests have passed (R526, R529). -/
def testPulseEnd (j : Fin 4) (s : State) : State :=
  let q := s.supply j
  if !q.pulse then s
  else
    let s := s.updSup j fun q => { q with pulse := false, age := 0, passes := if q.bad then 0 else min 3 (q.passes + 1) }
    (List.range 16).foldl (fun (s : State) k =>
      if s.inUsed k && s.inSup k == j.val && (s.safeIn k).demand then
        s.updIn k fun x =>
          if Nat.ble 2 x.passes then { x with stuck := false, cross := false, demand := false, passes := 0 }
          else { x with passes := x.passes + 1 }
      else s) s

/-- TEST_PULSE_END (R526). -/
def execTestPulseEnd (j : Fin 4) (s : State) : Host.Outcome State Fault Refusal := .next (testPulseEnd j s)

/-- SUPPLY_OVERLOAD: above 250 mA for 1 ms; switched off and flagged (R526). -/
def supplyOverload (j : Fin 4) (s : State) : State :=
  s.updSup j fun q => { q with ovl := true, pulse := false, passes := 0, retried := false }

/-- SUPPLY_OVERLOAD (R526). -/
def execSupplyOverload (j : Fin 4) (s : State) : Host.Outcome State Fault Refusal := .next (supplyOverload j s)

/-- SUPPLY_RETRY: an overloaded supply is tried again (R526). -/
def supplyRetry (j : Fin 4) (s : State) : State := s.updSup j fun q => if q.ovl then { q with retried := true, passes := 0 } else q

/-- SUPPLY_RETRY (R526). -/
def execSupplyRetry (j : Fin 4) (s : State) : Host.Outcome State Fault Refusal := .next (supplyRetry j s)

/-! ### Safe outputs (R532) -/

/-- The state with output `m` changed. -/
def State.updOut (s : State) (m : Nat) (f : SafeOut → SafeOut) : State :=
  s.updDie fun d => { d with outs := d.outs.setIfInBounds m (f (d.outs.getD m ⟨false, false, false, 0, 0, false, false⟩)) }

/-- Output `m` is stuck on: the other one is switched off, and HOLD cause 6 (R532). -/
def State.stuckOn (s : State) (m : Nat) : State :=
  ((s.updOut m fun q => { q with stuck := true }).updOut (1 - m) fun q => { q with on := false, test := false }).holdCause 6

/-- OUTPUT_READBACK of both levels every 10 us: high for 1 ms after an off command is stuck on; low for 1 ms while commanded on is a
short circuit or overload: off and flagged. -/
def outputReadback (levels : BitVec 2) (s : State) : State :=
  let s := [0, 1].foldl (fun (s : State) m =>
    let h := levels.getLsbD m
    let s := s.updOut m fun q =>
      if q.test then { q with level := h }
      else if q.on then
        if h then { q with level := h, highs := 0, lows := 0 }
        else if Nat.ble 99 q.lows then { q with level := h, on := false, fault := true, lows := 0 }
        else { q with level := h, lows := q.lows + 1 }
      else { q with level := h, highs := if h then min 100 (q.highs + 1) else 0, stuck := h && (q.stuck || Nat.ble 99 q.highs) }
    let q := s.die.outs.getD m ⟨false, false, false, 0, 0, false, false⟩
    if q.stuck && q.highs == 100 then s.stuckOn m else s) s
  if s.die.outs.toList.any fun q => q.stuck then s else s.causeOver 6

/-- OUTPUT_READBACK (R532). -/
def execOutputReadback (levels : BitVec 2) (s : State) : Host.Outcome State Fault Refusal := .next (outputReadback levels s)

/-- OUTPUT_TEST_PULSE: with OPT 1 an output that is on is off for 200 us; a read-back that stays high is stuck on. -/
def outputTestPulse (m : Fin 2) (high : Bool) (s : State) : State :=
  let q := s.die.outs.getD m ⟨false, false, false, 0, 0, false, false⟩
  if !s.cup.set.isEmpty && psF s.cup.set (0x60 + 4 * m) 2 1 = 1 && q.on && s.die.linked then
    if high then s.stuckOn m else s.updOut m fun q => { q with level := true, lows := 0 }
  else s

/-- OUTPUT_TEST_PULSE (R532). -/
def execOutputTestPulse (m : Fin 2) (high : Bool) (s : State) : Host.Outcome State Fault Refusal := .next (outputTestPulse m high s)

/-- FIELD_DIE_SELF_TEST: supply, reference, ADC, field counter, every 1 ms; a failure is HOLD cause 10 (R557). -/
def fieldDieSelfTest (pass : Bool) (s : State) : State := if pass then s.causeOver 10 else s.holdCause 10

/-- FIELD_DIE_SELF_TEST (R557). -/
def execFieldDieSelfTest (pass : Bool) (s : State) : Host.Outcome State Fault Refusal := .next (fieldDieSelfTest pass s)

/-! ### Proxy registers (R540, R561) -/

/-- A read of the field-die proxy: lost frames are those of the last 1 ms. -/
def fldRead (a : Nat) (s : State) : State :=
  if a = FLD_LINK then
    let n := min 255 (s.cup.bad.filter fun t => Nat.blt s.ticks (t + 125000)).length
    s.answerWord (s.reg a ||| word (n * 256))
  else if Nat.ble 0x601A0020 a && Nat.blt a 0x601A0040 then s.answerWord (s.fldEn ((a - 0x601A0020) / 16) (a % 16))
  else s.plainRead 0 a

/-- A write of the field-die proxy: FLD_ENn by the host and the Keep, quiescent while the axis is not monitored; CPR 0 keeps its
value. -/
def fldWrite (i : Init) (a : Nat) (v : Word) (s : State) : State :=
  if Nat.ble 0x601A0020 a && Nat.blt a 0x601A0040 then
    let n := (a - 0x601A0020) / 16
    if !(i == .keep || i == .pcie || i == .localBus) then s.answer .busError
    else if s.axEn n then
      s.answer (if a % 16 = 12 || (v &&& word (match a % 16 with
        | 0 => 7
        | 4 => 0xFFFFFFF
        | _ => 0xFFFF)) = s.fldEn n (a % 16) then .ok else .busError)
    else if a % 16 = 4 then s.plainWrite true a (s.keepFld a ⟨0, 28⟩ (fun k => k == 0) v)
    else s.plainWrite true a v
  else s.plainWrite true a v

end Sys2Proof.Machine
end

