-- ==== Sys2Proof/Machine/CupolaCmds.lean ====
section
/-! DEFINITION. The Cupola's commands: safety cycle, checkpoints, gateway requests, orders to the Keep, standby core and takeover,
seal (R517-R519, R547-R556).
Choices of the model: log entries 41, 86, 89, 90. -/

set_option autoImplicit false

namespace Sys2Proof.Machine

open Sys2Proof

/-! ### Gateway (R549, R550) -/

/-- `f` on the state, the completion of the last access kept as it was. -/
def State.quietly (s : State) (f : State → State) : State := (f s).answer s.resp

/-- One response word goes to MBX126 and one order word to MBX127 while they are not FULL. -/
def State.gwFlush (s : State) : State :=
  let s := match s.cup.resps with
    | w :: t =>
      if s.flag (XCH_MBX_STAT 126) XCH_MBX_STAT_FULL then s
      else (s.updCup fun x => { x with resps := t }).quietly (mailboxPost .gateway 2 126 w)
    | [] => s
  match s.cup.orders with
  | w :: t =>
    if s.flag (XCH_MBX_STAT 127) XCH_MBX_STAT_FULL then s
    else (s.updCup fun x => { x with orders := t }).quietly (mailboxPost .gateway 2 127 w)
  | [] => s

/-- The island reads a request word from MBX124. -/
def State.gwRead (s : State) : State :=
  if s.flag (XCH_MBX_STAT 124) XCH_MBX_STAT_FULL then
    let old := s.resp
    let s := mailboxConsume .gateway 2 124 s
    match s.resp with
    | .data l => (s.updCup fun x => { x with req := x.req ++ [word (ofBytes l)] }).answer old
    | _ => s.answer old
  else s

/-- A response (R550): RES, TAG, INFO, then data words. -/
def State.cupRespond (s : State) (res tag info : Nat) (data : List Word) : State :=
  (s.updCup fun x => { x with resps := x.resps ++ word (res + tag % 256 * 256 + info % 65536 * 65536) :: data }).gwFlush

/-- Words of a request by OP (R550). -/
def reqWords (op : Nat) : Nat := if op = 1 || op = 2 then 2 else if op = 7 then 3 else 1

/-- The OP of the request held, once all its words have come. -/
def State.reqOp (s : State) : Option Nat :=
  match s.cup.req with
  | [] => none
  | w :: t => if Nat.ble (reqWords (w.toNat % 256)) (t.length + 1) then some (w.toNat % 256) else none

/-- The request held is taken and executed by `f` with TAG, ARG and data words, if its OP is `op`; during another request it is
answered BUSY (R550). A request that needs an order waits while the Keep rewrites a copy for the island (R543). -/
def withReq (op : Nat) (f : Nat → Nat → List Word → State → State) (s : State) : State :=
  let s := s.gwRead
  if (op = 1 || op = 7) && (s.cup.job.map fun j => j.op == 0).getD false then s
  else if s.reqOp = some op then
    let w := (s.cup.req.headD 0).toNat
    let data := (s.cup.req.drop 1).take (reqWords op - 1)
    let s := s.updCup fun x => { x with req := x.req.drop (reqWords op) }
    let tag := bitsOf w 8 8
    if (s.cup.job.map fun j => j.op != 0).getD false then s.cupRespond 10 tag 0 []
    else f tag (bitsOf w 16 16) data s
  else s

/-- A request of another OP than R550 lists is answered BAD_REQ. -/
def State.badReq (s : State) : State :=
  match s.reqOp with
  | some op =>
    if op = 0 || 9 < op then
      let w := (s.cup.req.headD 0).toNat
      let s := s.updCup fun x => { x with req := x.req.drop 1 }
      s.cupRespond (if (s.cup.job.map fun j => j.op != 0).getD false then 10 else 4) (bitsOf w 8 8) 0 []
    else s
  | none => s

/-- The request under execution ends with a result. -/
def State.endJob (s : State) (res info : Nat) (data : List Word) : State :=
  match s.cup.job with
  | none => s
  | some j =>
    let s := s.updCup fun x => { x with job := none, order := none, wwl := 0 }
    if j.op = 0 then s else s.cupRespond res j.tag info data

/-! ### MRAM as the Keep writes it for an order -/

/-- What an order copies: bytes of the exchange region or of the safety area. -/
def State.orderSource (s : State) (a n : Nat) : Option (List Byte) :=
  if Nat.ble 0x4C000000 a && Nat.ble (a + n) 0x4C040000 then some (s.bytes a n)
  else if safetyArea a && safetyArea (a + n - 1) then some (s.mramBytes a n)
  else none

/-- ORDER_COPY (R552): the Keep takes the words of an order from MBX127, copies into the safety area through the open window, and
posts its reply, 0 OK or 1 ERROR with the TAG, to MBX125. -/
def orderCopy (s : State) : State :=
  let s := [0, 1, 2].foldl (fun (s : State) _ =>
    if Nat.blt s.cup.taken.length 3 && s.flag (XCH_MBX_STAT 127) XCH_MBX_STAT_FULL then
      let old := s.resp
      let s := mailboxConsume .keep 1 127 s
      match s.resp with
      | .data l => ((s.updCup fun x => { x with taken := x.taken ++ [word (ofBytes l)] }).answer old).gwFlush
      | _ => s.answer old
    else s) s.gwFlush
  match s.cup.taken with
  | w :: src :: dst :: _ =>
    let s := s.updCup fun x => { x with taken := [] }
    let n := bitsOf w.toNat 16 16 * 8
    let tag := bitsOf w.toNat 8 8
    let reply (s : State) (r : Nat) : State := s.quietly (mailboxPost .keep 1 125 (word (r + tag * 256)))
    match s.orderSource src.toNat n with
    | some d =>
      if w.toNat % 256 = 0x81 && safetyArea dst.toNat && s.mramAllowed .keep dst.toNat n && !s.mramStop then
        reply (s.mramStore dst.toNat d) 0
      else reply s 1
    | none => reply s 1
  | _ => s

/-- ORDER_COPY (R552). -/
def execOrderCopy (s : State) : Host.Outcome State Fault Refusal := .next (orderCopy s)

/-! ### Standby core (R554, R555) -/

/-- The standby core, and its processor number. -/
def State.standby (s : State) : Nat := 1 - s.cup.active
def State.standbyCore (s : State) : Nat := 33 + s.standby

/-- The built-in self-test of the standby core starts, and EV7 tells the active core (R516); a FAILED core is not loaded or tested again (R568). -/
def standbySelfTest (s : State) : State :=
  if (s.resource (resId 8 s.standby)).state = 6 then s
  else (s.updEng s.standbyCore fun g => { g with st := .test }).latchEv s.activeCore 7

/-- STANDBY_SELF_TEST (R554). -/
def execStandbySelfTest (s : State) : Host.Outcome State Fault Refusal := .next (standbySelfTest s)

/-- STANDBY_TEST_COMPLETE: STBYRDY follows; a failure is reported as lost redundancy; an open FW_LOAD is answered. -/
def standbyTestComplete (pass : Bool) (s : State) : State :=
  if (s.eng s.standbyCore).st != .test then s
  else
    let s := s.updEng s.standbyCore fun g => { g with st := .halted }
    let fw := (s.cup.job.map fun j => j.op == 7).getD false
    let s := s.updCup fun x => { x with stby := pass, stbyFw := if fw then pass else x.stbyFw }
    let s := if pass then s else s.report 5 (resId 8 s.standby) 0 46
    (if fw then s.endJob (if pass then 0 else 8) 0 [] else s).degrSync

/-- STANDBY_TEST_COMPLETE (R554). -/
def execStandbyTestComplete (pass : Bool) (s : State) : Host.Outcome State Fault Refusal := .next (standbyTestComplete pass s)

/-- A core's program store and signature table are loaded from a container (R517, R555, R586). -/
def State.loadCore (s : State) (k : Nat) (l : List Byte) : State :=
  let code := match cModule l 1 with
    | some m => codeWords l m.ofs (cCodewords l)
    | none => []
  let sig := match cModule l 2 with
    | some m => (List.range 64).map fun j => word (cw l (m.ofs + 4 * j))
    | none => []
  let s := { s with prog := Tbl.clear (fun q => q / 16384 == 33 + k) s.prog, storeSeed := Tbl.set (fun _ => 0) s.storeSeed (33 + k) 0 }
  let s := (code.zipIdx).foldl (fun (s : State) (w, j) => s.setProgWord (33 + k) j w) s
  s.updCup fun x => { x with
    sig := (sig.zipIdx).foldl (fun t (w, j) => Tbl.set (fun _ => 0) t (64 * k + j) w) x.sig
    ver := x.ver.setIfInBounds k (cVersion l) }

/-- The firmware slot that is not active. -/
def State.spareSlot (s : State) : Nat := 1 - s.sealw.slot

/-- The container in the inactive slot is verified and loaded into the standby core, whose self-test starts (R555). -/
def State.fwLoaded (s : State) (n : Nat) : State :=
  let l := s.mramBytes (fwSlot s.spareSlot) n
  if s.verify l n != 0 || cProfile l != 1 then s.endJob 4 0 []
  else
    let s := (s.loadCore s.standby l).updCup fun x => { x with compat := cPscompat l, stby := false, stbyFw := false, wwl := 0 }
    let s := s.updSeal fun x => { x with empty := x.empty &&& ~~~BitVec.ofNat 2 (2 ^ s.spareSlot) }
    let s := s.updCup fun x => { x with job := x.job.map fun j => { j with step := 1 } }
    standbySelfTest s

/-- The next step of the request whose order the Keep has carried out and the island has verified. -/
def State.jobNext (s : State) (o : CupOrder) : State :=
  match s.cup.job with
  | none => s
  | some j =>
    if j.op = 1 then
      let set := s.mramBytes stagingArea 2048
      let step (k : Nat) (s : State) : State := s.updCup fun x => { x with job := some { j with step := k } }
      if j.step = 0 then
        match psBad set j.arg with
        | some k => s.endJob 5 k []
        | none => (step 1 s).sendOrder j.tag 2048 stagingArea (copyA j.arg) |>.gwFlush
      else if j.step = 1 then ((step 2 s).sendOrder j.tag 2048 stagingArea (copyB j.arg)).gwFlush
      else
        let s := s.endJob 0 0 [word (psW set 0x7FC)]
        if s.cup.setNo = j.arg then s.judgeSets else s
    else if j.op = 7 then s.fwLoaded o.len
    else s.endJob 0 0 []

/-- ORDER_REPLY (R552): the reply in MBX125 closes the write window; the island verifies every written word and goes on. -/
def orderReply (s : State) : State :=
  if !s.flag (XCH_MBX_STAT 125) XCH_MBX_STAT_FULL then s
  else
    let old := s.resp
    let s := mailboxConsume .gateway 2 125 s
    let w := match s.resp with
      | .data l => ofBytes l
      | _ => 1
    let s := s.answer old
    match s.cup.order with
    | none => s
    | some o =>
      if bitsOf w 8 8 != o.tag % 256 then s
      else
        let s := s.updCup fun x => { x with wwl := 0, order := none }
        if w % 256 != 0 then s.endJob 7 0 []
        else
          let n := (o.len + 7) / 8 * 8
          match s.readMram o.dst n with
          | (some d, s) => if s.orderSource o.src n = some d then s.jobNext o else s.endJob 8 0 []
          | (none, s) => s.endJob 8 0 []

/-- ORDER_REPLY (R552). -/
def execOrderReply (s : State) : Host.Outcome State Fault Refusal := .next (orderReply s)

/-- ORDER_TIMEOUT (R552): 50 ms without a reply; the window closes and the request ends with KEEP. -/
def orderTimeout (s : State) : State :=
  if s.cup.order.isSome then (s.updCup fun x => { x with wwl := 0, order := none, orders := [] }).endJob 7 0 [] else s

/-- ORDER_TIMEOUT (R552). -/
def execOrderTimeout (s : State) : Host.Outcome State Fault Refusal := .next (orderTimeout s)

/-- A request whose permit switch has turned off ends with PERMIT (R551): a partial parameter copy is rewritten from the other
copy, a firmware slot not yet verified is marked empty. -/
def State.permitCheck (s : State) : State :=
  match s.cup.job with
  | none => s
  | some j =>
    if j.op = 1 && !s.sw9 then
      let s := if j.step = 1 then s.mramStore (copyA j.arg) (s.mramBytes (copyB j.arg) 2048)
        else if j.step = 2 then s.mramStore (copyB j.arg) (s.mramBytes (copyA j.arg) 2048)
        else s
      (s.updCup fun x => { x with orders := [] }).endJob 3 0 []
    else if j.op = 7 && !s.sw8 then
      let s := if j.step = 0 then s.updSeal fun x => { x with empty := x.empty ||| BitVec.ofNat 2 (2 ^ s.spareSlot) } else s
      (s.updCup fun x => { x with orders := [] }).endJob 3 0 []
    else s

/-! ### Requests (R550) -/

/-- The mode and permit conditions of a request that needs COMMISSION and SW9: the result where they fail. -/
def State.commissionBar (s : State) : Option Nat := if s.mode != 2 then some 2 else if !s.sw9 then some 3 else none

/-- PSET_LOAD: the set is copied from the exchange region to the staging area, checked, and written to both copies. -/
def psetLoad (s : State) : State :=
  withReq 1 (fun tag arg data s =>
    match s.commissionBar with
    | some r => s.cupRespond r tag 0 []
    | none =>
      let a := (data.headD 0).toNat
      if 15 < arg || !(Nat.ble 0x4C000000 a && Nat.ble (a + 2048) 0x4C040000) then s.cupRespond 4 tag 0 []
      else ((s.updCup fun x => { x with job := some ⟨1, tag, arg, data, 0⟩ }).sendOrder tag 2048 a stagingArea).gwFlush) s

/-- PSET_LOAD (R550). -/
def execPsetLoad (s : State) : Host.Outcome State Fault Refusal := .next (psetLoad s)

/-- PSET_CONFIRM: the stored set is marked confirmed if the CRC matches, otherwise MISMATCH. -/
def psetConfirm (s : State) : State :=
  withReq 2 (fun tag arg data s =>
    match s.commissionBar with
    | some r => s.cupRespond r tag 0 []
    | none =>
      if 15 < arg then s.cupRespond 4 tag 0 []
      else
        let (a, s) := s.readMram (copyA arg) 2048
        let (b, s) := s.readMram (copyB arg) 2048
        let l := if psValid (a.getD []) arg then a.getD [] else b.getD []
        let crc := data.headD 0
        if !psValid l arg then s.cupRespond 5 tag ((psBad l arg).getD 0) []
        else if word (psW l 0x7FC) != crc then s.cupRespond 6 tag 0 []
        else (s.updSeal fun x => { x with conf := Tbl.set (fun _ => none) x.conf arg (some crc) }).cupRespond 0 tag 0 []) s

/-- PSET_CONFIRM (R550). -/
def execPsetConfirm (s : State) : Host.Outcome State Fault Refusal := .next (psetConfirm s)

/-- RUN_PERMIT: ARG 1 grants in COMMISSION with SW9, a valid confirmed set and no latched break; ARG 0 withdraws in any mode. -/
def runPermit (s : State) : State :=
  withReq 3 (fun tag arg _ s =>
    if arg = 0 then ((s.updSeal fun x => { x with perm := none }).modeEval).cupRespond 0 tag 0 []
    else if arg != 1 then s.cupRespond 4 tag 0 []
    else
      match s.commissionBar with
      | some r => s.cupRespond r tag 0 []
      | none =>
        if !s.setConf then s.cupRespond 5 tag 0 []
        else if s.sealw.brk || s.sealw.recBrk then s.cupRespond 9 tag 0 []
        else
          (s.updSeal fun x => { x with
            perm := some (s.cup.setNo, word (psW s.cup.set 0x7FC), s.cup.ver.getD s.cup.active 0) }).cupRespond 0 tag 0 []) s

/-- RUN_PERMIT (R548, R550). -/
def execRunPermit (s : State) : Host.Outcome State Fault Refusal := .next (runPermit s)

/-- SEAL_ACK: the break latch clears in PD0 and in the seal record; VBAT-loss, which counts as a break, with it. -/
def sealAck (s : State) : State :=
  withReq 4 (fun tag _ _ s =>
    if !s.sw9 then s.cupRespond 3 tag 0 []
    else
      let s := s.updSeal fun x => { x with brk := false, vbat := false, recBrk := false }
      (s.setFld PWR_SUPPLY ⟨9, 1⟩ 0).cupRespond 0 tag 0 []) s

/-- SEAL_ACK (R547, R550). -/
def execSealAck (s : State) : Host.Outcome State Fault Refusal := .next (sealAck s)

/-- REACT_RESET: INFO shows the latches of ARG that stay. -/
def reactReset (s : State) : State :=
  withReq 5 (fun tag arg _ s =>
    let (left, s) := s.reactReset arg
    s.cupRespond 0 tag left []) s

/-- REACT_RESET (R533, R550). -/
def execReactReset (s : State) : Host.Outcome State Fault Refusal := .next (reactReset s)

/-- HOLD_ACK: the latch of R518 clears with SW9 once the cause is gone; the mode controller then leaves HOLD. -/
def holdAck (s : State) : State :=
  withReq 6 (fun tag _ _ s =>
    if !s.sw9 then s.cupRespond 3 tag 0 []
    else if s.cup.hold != 0 && s.cup.live.getLsbD s.cup.hold then s.cupRespond 9 tag 0 []
    else
      let s := s.updCup fun x => { x with hold := 0 }
      let s := (s.setFlag CUP_STAT CUP_STAT_HOLDL false).setFld CUP_STAT CUP_STAT_HCAUSE 0
      s.modeEval.cupRespond 0 tag 0 []) s

/-- HOLD_ACK (R518, R550). -/
def execHoldAck (s : State) : Host.Outcome State Fault Refusal := .next (holdAck s)

/-- FW_LOAD: ACCEPTED, then the order to copy the container into the inactive slot. -/
def fwLoad (s : State) : State :=
  withReq 7 (fun tag _ data s =>
    let a := (data.headD 0).toNat
    let n := (data.getD 1 0).toNat
    if !s.sw8 then s.cupRespond 3 tag 0 []
    else if n = 0 || 65536 < n || n % 8 != 0 || !(Nat.ble 0x4C000000 a && Nat.ble (a + n) 0x4C040000) then s.cupRespond 4 tag 0 []
    else
      let s := s.cupRespond 1 tag 0 []
      ((s.updCup fun x => { x with job := some ⟨7, tag, 0, data, 0⟩ }).sendOrder tag n a (fwSlot s.spareSlot)).gwFlush) s

/-- FW_LOAD (R555). -/
def execFwLoad (s : State) : Host.Outcome State Fault Refusal := .next (fwLoad s)

/-- FW_TAKEOVER: EV7 on the active core, and its state block of 4 KB at 0xF000 is copied to the standby core (the commit point); the
switch follows at the next cycle boundary. -/
def fwTakeover (s : State) : State :=
  withReq 8 (fun tag _ _ s =>
    if !s.sw8 then s.cupRespond 3 tag 0 []
    else if !s.cup.stby || !s.cup.stbyFw then s.cupRespond 2 tag 0 []
    else
      let s := s.latchEv s.activeCore 7
      let s := s.setRam s.standby 0xF000 (s.ramBytes s.cup.active 0xF000 4096)
      (s.updCup fun x => { x with takeover := true }).cupRespond 0 tag 0 []) s

/-- FW_TAKEOVER (R556). -/
def execFwTakeover (s : State) : Host.Outcome State Fault Refusal := .next (fwTakeover s)

/-- TAKEOVER_SWITCH: at the cycle boundary the standby core becomes active; the seal record names its slot; a compatible container
carries the run permission over, any other firmware change voids it. -/
def takeoverSwitch (s : State) : State :=
  if !s.cup.takeover then s
  else
    let old := s.cup.active
    let new := 1 - old
    let s := s.updEng (33 + old) fun g => { g with st := .halted }
    let s := s.updEng (33 + new) fun g => { g.zero (s.progWord (33 + new) 0) with st := .running }
    let s := s.updCup fun x => { x with active := new, takeover := false, stbyFw := false, newCore := 65, chk := none }
    let s := s.updSeal fun x => { x with
      slot := 1 - x.slot
      perm := if s.cup.compat then x.perm.map fun (n, c, _) => (n, c, s.cup.ver.getD new 0) else x.perm }
    s.modeEval

/-- TAKEOVER_SWITCH (R556). -/
def execTakeoverSwitch (s : State) : Host.Outcome State Fault Refusal := .next (takeoverSwitch s)

/-- QUERY: the current status word. -/
def cupolaQuery (s : State) : State := withReq 9 (fun tag _ _ s => s.cupRespond 0 tag 0 [s.cupStatus]) s

/-- CUPOLA_QUERY (R550). -/
def execCupolaQuery (s : State) : Host.Outcome State Fault Refusal := .next (cupolaQuery s)

/-! ### Safety cycle (R519, R546) -/

/-- Whether the island's active core runs. -/
def State.cupRuns (s : State) : Bool := (s.eng s.activeCore).st == .running || (s.eng s.activeCore).st == .waiting

/-- The switches of the receive area are read (R546): in RUN and DEGRADED any change or an invalid pattern is HOLD cause 8; in
COMMISSION another selection selects another set. -/
def State.readSwitches (s : State) : State :=
  if s.cup.rx.isEmpty then s
  else
    let sw : BitVec 12 := BitVec.ofNat 12 (s.rxW 50 2)
    let old := s.cup.sw
    let s := s.updCup fun x => { x with sw := sw }
    if s.mode = 3 || s.mode = 4 then (if sw != old || !swValid sw then s.holdCause 8 else s.causeOver 8)
    else
      let s := if swValid sw then s.causeOver 8 else s
      if sw.truncate 8 != old.truncate 8 || swValid sw != swValid old then s.judgeSets else s

/-- Discrepancy faults clear when both inputs of a pair have read 0 together (R530). -/
def State.clearDisc (s : State) : State :=
  s.updCup fun x => { x with
    disc := BitVec.ofNat 16 ((List.range 8).map fun k =>
      if s.rxW 42 2 / 4 ^ k % 4 = 0 then 0 else x.disc.toNat / 4 ^ k % 4 * 4 ^ k).sum }

/-- SAFETY_CYCLE_START: every 500 us: EV1, HALF 0, switches, inputs, computation 1, commands, registers, request and status. -/
def safetyCycleStart (s : State) : State :=
  if !s.cupRuns then s
  else
    let s := if s.cup.chk63 then (s.causeOver 1).causeOver 2 else s
    let s := ((s.causeOver 4).causeOver 9).causeOver 11
    let s := s.updCup fun x => { x with
      cycles := x.cycles + 1, half := false, chk := none, chk0 := false, chk63 := false, newCore := x.newCore - 1
      tests := if (x.cycles.toNat + 1) % 64 = 0 then x.tests + 1 else x.tests }
    let s := s.latchEv s.activeCore 1
    let s := s.readSwitches.clearDisc.rstPulse.motion.outLogic
    let s := s.modeEval.permitCheck.cupPublish
    let s := s.gwRead.badReq.gwFlush
    s.quietly (lvsPost .gateway 2 63 s.cupStatus)

/-- SAFETY_CYCLE_START (R519). -/
def execSafetyCycleStart (s : State) : Host.Outcome State Fault Refusal := .next (safetyCycleStart s)

/-- COMPUTATION_TICK: the 250 us tick: EV1, HALF 1, computation 2 with its STO reactions (R533). -/
def computationTick (s : State) : State :=
  if !s.cupRuns then s
  else ((s.updCup fun x => { x with half := true }).latchEv s.activeCore 1).motion.outLogic

/-- COMPUTATION_TICK (R519). -/
def execComputationTick (s : State) : Host.Outcome State Fault Refusal := .next (computationTick s)

/-- CHECKPOINT (R517): a write of MON_CHK. -/
def execCheckpoint (core : Fin 2) (k : BitVec 6) (s : State) : Host.Outcome State Fault Refusal := .next (checkpoint core k.toNat s)

/-- WATCHDOG_EXPIRY: checkpoint 0 not written by 10 us, or 63 (`k63`) by 450 us, of the cycle (R517): HOLD cause 2. -/
def watchdogExpiry (k63 : Bool) (s : State) : State :=
  if (if k63 then s.cup.chk63 else s.cup.chk0) then s else s.holdCause 2

/-- WATCHDOG_EXPIRY (R517). -/
def execWatchdogExpiry (k63 : Bool) (s : State) : Host.Outcome State Fault Refusal := .next (watchdogExpiry k63 s)

/-- MON_MRA_WRITE (R517): the word returns in MON_MRD. -/
def execMonMraWrite (core : Fin 2) (v : Word) (s : State) : Host.Outcome State Fault Refusal := .next (monMra core v s)

/-- MON_FAIL (R517). -/
def execMonFail (core : Fin 2) (v : Word) (s : State) : Host.Outcome State Fault Refusal := .next (monFail core v s)

/-- CLOCK_CHECK: the deviation of CK_SAFE from CK_FAB in 0.01 %; beyond 1 % it is HOLD cause 3 (R557). -/
def clockCheck (dev : BitVec 16) (s : State) : State :=
  let ok := decide (-100 ≤ dev.toInt) && decide (dev.toInt ≤ 100)
  let s := (s.setFld PWR_CLK_STAT ⟨16, 16⟩ dev.toNat).setFld PWR_CLK_STAT ⟨7, 1⟩ (bit ok)
  if ok then s.causeOver 3 else s.holdCause 3

/-- CLOCK_CHECK (R557). -/
def execClockCheck (dev : BitVec 16) (s : State) : Host.Outcome State Fault Refusal := .next (clockCheck dev s)

/-! ### Seal (R547) -/

/-- SEAL_LOOP_PULSE every 4 s: a loop that does not return the pulse is broken; found while powered the break is shown in SEALBRK and
reported, and acts at the next BOOT. -/
def sealLoopPulse (returned : Bool) (s : State) : State :=
  if returned then s
  else
    let new := !s.sealw.brk
    let s := (s.updSeal fun x => { x with brk := true }).setFlag CUP_STAT CUP_STAT_SEALBRK true
    if new then s.report 11 (resId 8 s.cup.active) 0 0 else s

/-- SEAL_LOOP_PULSE (R547). -/
def execSealLoopPulse (returned : Bool) (s : State) : Host.Outcome State Fault Refusal := .next (sealLoopPulse returned s)

/-- VBAT_LOSS: VBAT below 1.6 V; latched, and a seal break at the next power-up. -/
def vbatLoss (s : State) : State :=
  let s := s.updSeal fun x => { x with vbat := true }
  s.setReg PWR_SUPPLY ((s.reg PWR_SUPPLY &&& ~~~0x100#32) ||| 0x200#32)

/-- VBAT_LOSS (R547). -/
def execVbatLoss (s : State) : Host.Outcome State Fault Refusal := .next (vbatLoss s)

/-- A read of the CUP block. -/
def cupRead (a : Nat) (s : State) : State := s.plainRead 0 a

/-- A write of the CUP block completes with a bus error (R560). -/
def cupWrite (s : State) : State := s.answer .busError

end Sys2Proof.Machine
end

