-- ==== Sys2Proof/Machine/Vigil.lean ====
section
/-! DEFINITION. Vigil: classification, responses, the event log, the event queue's read, readmission, the VIG block (R562-R576).
Choices of the model: log entries 44, 45, 46, 47, 48, 49. -/

set_option autoImplicit false

namespace Sys2Proof.Machine

open Sys2Proof

/-- Whether an identifier names a resource (R562). -/
def namesResource (r : Nat) : Bool :=
  let n := resIndex r
  match resKind r with
  | 1 => Nat.blt n 32
  | 2 => Nat.blt n 64
  | 3 => Nat.blt n 32
  | 4 => Nat.blt n 2
  | 5 => Nat.blt n 1024
  | 6 => Nat.blt n 4
  | 7 => Nat.blt n 2
  | 8 => Nat.blt n 2
  | 9 => Nat.blt n 4
  | 10 => Nat.blt n 6
  | 11 => Nat.blt n 2
  | 12 => Nat.blt n 4
  | 13 => Nat.blt n 8
  | 14 => n == 0
  | 15 => n == 0
  | 16 => Nat.blt n 2
  | 17 => n == 0
  | _ => false

/-- VIGIL_EVENT (R571): a report from outside the modelled blocks; it names an event of R563 and a resource or none. -/
def vigilEvent (ecode : Fin 16) (res : BitVec 16) (addr detail : Word) (s : State) : State :=
  if ecode.val != 0 && (res = 0 || namesResource res.toNat) then s.report ecode res.toNat addr.toNat detail.toNat else s

/-- VIGIL_EVENT (R571). -/
def execVigilEvent (ecode : Fin 16) (res : BitVec 16) (addr detail : Word) (s : State) : Host.Outcome State Fault Refusal :=
  .next (vigilEvent ecode res addr detail s)

/-! ### Windows (R564, R566) -/

/-- NPERM and WIN as they act (0 and 1 act as 2; 0 acts as 1 s), WIN in ticks. -/
def State.nperm (s : State) : Nat := max 2 (s.fld VIG_CTL VIG_CTL_NPERM)
def State.winTicks (s : State) : Nat := max 1 (s.fld VIG_CTL VIG_CTL_WIN) * secTicks

/-- The CE window in ticks: CEWIN units of 10 min, 0 acting as 1. -/
def State.ceTicks (s : State) : Nat := max 1 (s.fld VIG_CTL VIG_CTL_CEWIN) * 600 * secTicks

/-- The times of `l` within `w` ticks before `now`. -/
def within (l : List Nat) (w now : Nat) : Nat := (l.filter fun t => Nat.ble now (t + w)).length

/-- Counted events in the window after event `e`. -/
def State.eventCount (s : State) (e : VigEvent) : Nat := within e.times s.winTicks e.tick

/-- Whether event `e` makes its resource permanent (R563-R565, R567): at once by its ECODE or as the second UE of a rewritten
granule, or as the last of NPERM counted events in the window; not on a resource that is EVACUATING, RETIRED or FAILED. -/
def State.makesPermanent (s : State) (e : VigEvent) : Bool :=
  e.res != 0 && Nat.blt (s.resource e.res).state 4 &&
    (fatalCode e.ecode || e.again || e.ecode == 13 ||
      ((windowCode e.ecode || e.ecode == 2) && !e.rep && !e.nocnt && Nat.ble s.nperm (s.eventCount e)))

/-- Word 0 of an event in the log and in VIG_EVQ0 (R573). -/
def State.eventWord (s : State) (e : VigEvent) : Word :=
  word (e.res + e.ecode * 2 ^ 16 + bit (s.makesPermanent e) * 2 ^ 21 + bit e.rep * 2 ^ 22 +
    bit (e.nocnt || (e.res != 0 && Nat.ble 4 (s.resource e.res).state)) * 2 ^ 23 + s.eventCount e * 2 ^ 24)

/-! ### Event log (R573) -/

/-- Addresses of the log ring and of its header. -/
abbrev logBase : Nat := 0x540E0000
abbrev logHead : Nat := 0x540DFFE0

/-- The bytes of a log entry: seven words and their CRC. -/
def eventEntry (ws : List Word) : List Byte :=
  let body := ws.flatMap fun w => toBytes w.toNat 4
  body ++ toBytes (crc32c body).toNat 4

/-- Event `e` is logged; after supply loss the log cannot be written. -/
def State.logEvent (s : State) (e : VigEvent) : State :=
  if s.mramStop then (s.setFlag VIG_STAT VIG_STAT_LOGERR true).countSat VIG_LOGLOST 1
  else
    let seq := s.reg VIG_LOGSEQ + 1
    let d := eventEntry [s.eventWord e, e.addr, e.detail, e.stamp, word e.sec, s.reg SYS_BOOTCNT, seq]
    let s := s.mramStore (logBase + 32 * (s.vigil.logPos % 2048)) d
    ({ s with vigil := { s.vigil with logPos := (s.vigil.logPos + 1) % 2048 } } : State).setReg VIG_LOGSEQ seq

/-! ### Responses (R566, R568) -/

/-- An audit or vote that engine `n` takes part in is abandoned and counted in PLM_CNT_SKIP. -/
def State.dropAudit (s : State) (n : Nat) : State :=
  match s.plm.audits.find? fun q => q.eng == n || q.vote == some n with
  | some q => (s.endAudit q.ch q).count PLM_CNT_SKIP 1
  | none => s

/-- An open migration onto engine `n` ends TARGET_FAULT (R222). -/
def State.dropMigration (s : State) (n : Nat) : State :=
  match s.plm.migs.find? fun m => m.dst == n && !m.committed with
  | some m => s.endMig m.ch 0x26 m
  | none => s

/-- Vigil's test of engine `n` is opened unless one is open. -/
def State.openTest (s : State) (n : Nat) : State :=
  if s.plm.tests.any fun q => q.2 == (0, n) then s else (s.testEngine 256 n).plmSync

/-- A counted transient error of engine `n` (R568): work goes, then the engine is tested. A primary is moved by EMERGENCY_MIGRATION
after a double fault only (R227); an audit mismatch leaves running work where it is (R226). -/
def State.engineTransient (s : State) (n ecode : Nat) : State :=
  let df := (s.eng n).st == .dfault
  let r := s.role n
  if r = 0 then s.openTest n
  else if r = 1 then (if df then s.openTest n else s)
  else if ecode = 7 then s
  else if r = 2 then (s.dropMigration n).openTest n
  else if r = 3 || r = 4 then (s.dropAudit n).openTest n
  else s

/-- The count of CE events reaches CETHR (R566): the engine or bank is DEGRADING, is cleared of its work and tested. Central bank 31
holds the Keep's tables, which have no destination: it stays DEGRADING. -/
def State.degrade (s : State) (r : Nat) : State :=
  let s := s.updResource r fun x => { x with state := 2 }
  let n := resIndex r
  if resKind r = 1 then
    let c := s.fld (PLM_ENG n) PLM_ENG_CH
    if s.role n = 0 then s.openTest n
    else if s.role n = 1 && (s.chan c).st = 2 && !s.chanBusy c then (s.openMig c 256 .clear true true (s.chan c) false 99).2.plmSync
    else s
  else
    let k := if resKind r = 2 then n else 64 + n
    if k = 95 || (bankTestOf s.plm.tests k).isSome then s
    else (s.updPlm fun p => { p with tests := p.tests ++ [(256, resKind r - 1, n)] }).evacuate (bankBase k) 0x20000

/-- The response to an event that leaves its resource in service (R566, R568). -/
def State.transient (s : State) (e : VigEvent) : State :=
  let n := resIndex e.res
  let x := s.resource e.res
  if e.res = 0 || e.rep || e.nocnt || 3 ≤ x.state then s
  else if e.ecode = 1 then
    let thr := s.fld VIG_CTL VIG_CTL_CETHR
    if (resKind e.res = 1 || resKind e.res = 2 || resKind e.res = 3) && thr != 0 && Nat.ble thr (within x.ce s.ceTicks e.tick) then
      s.degrade e.res
    else s
  else if !(windowCode e.ecode || e.ecode == 2) then s
  else
    match resKind e.res with
    | 1 => s.engineTransient n e.ecode
    | 8 => if n = s.standby then (s.updCup fun c => { c with stby := false }).degrSync else s
    | 9 => linkRetrain s
    | _ => s

/-- RESOURCE_RETIREMENT: the response to an event that makes resource `r` permanent (R568, R570); an open test is cancelled (R567). -/
def State.permanent (s : State) (r ecode : Nat) : State :=
  let n := resIndex r
  let cancel (k o : Nat) (s : State) : State := s.updPlm fun p => { p with tests := p.tests.filter fun q => q.2 != (k, o) }
  let s := match resKind r with
    | 1 =>
      let s := (cancel 0 n s).engineIso n
      let s := s.resDown r 5
      let s := if s.role n = 2 then s.dropMigration n else if s.role n = 3 || s.role n = 4 then s.dropAudit n else s
      let s := if s.role n = 1 then s else s.setRole n 7 0
      (s.recordRetirement r ecode).plmSync
    | 2 => (((cancel 1 n s).updResource r fun x => { x with state := 4 }).recordRetirement r ecode).evacuate (bankBase n) 0x20000
    | 3 =>
      let s := (cancel 2 n s).updResource r fun x => { x with state := 4 }
      if n = 31 then s.vigilHold 2 else (s.recordRetirement r ecode).evacuate (bankBase (64 + n)) 0x20000
    | 5 => ((s.updResource r fun x => { x with state := 4 }).recordRetirement r ecode).evacuate (n * 0x100000) 0x100000
    | 7 => if n = 0 then (s.resDown r 6).vigilHold 1 else s.resDown r 6
    | 9 => (s.resDown r 5).recordRetirement r ecode
    | _ => s.resDown r 6
  s.ringEvt VIG_EVT

/-! ### VIGIL_CLASSIFY (R564-R568, R571) -/

/-- Event `e` is logged, classified and answered (R563); KBANK raises its own DEGRADED condition. -/
def State.classify (s : State) (e : VigEvent) : State :=
  let perm := s.makesPermanent e
  let s := s.logEvent e
  let s := if perm then s.permanent e.res e.ecode else s.transient e
  s.degrSet ((s.reg VIG_DEGR).getLsbD 2 || e.ecode == 13) ((s.reg VIG_DEGR).getLsbD 6)

/-- The oldest event leaves the hardware queue (R574). -/
def State.popEvent (s : State) : State :=
  let s := { s with vigil := { s.vigil with queue := s.vigil.queue.drop 1 } }
  s.setFld VIG_STAT VIG_STAT_QLEV s.vigil.queue.length

/-- While the Keep is ready, the oldest event that it has read, else the oldest of the queue, is classified. -/
def vigilClassify (s : State) : State :=
  if !s.flag PLM_STAT PLM_STAT_READY then s
  else
    match s.vigil.taken, s.vigil.queue with
    | e :: t, _ => ({ s with vigil := { s.vigil with taken := t } } : State).classify e
    | [], e :: _ => s.popEvent.classify e
    | [], [] => s

/-- VIGIL_CLASSIFY (R564). -/
def execVigilClassify (s : State) : Host.Outcome State Fault Refusal := .next (vigilClassify s)

/-! ### EVQ_READ (R574) -/

/-- A read of VIG_EVQ0: only by the Keep; an empty queue reads 0. The event removed is the next one to classify. -/
def evqRead (i : Init) (s : State) : State :=
  if i != .keep then s.answer .busError
  else
    match s.vigil.queue with
    | [] => s.answerWord 0
    | e :: _ =>
      let w := s.eventWord e
      let s := { s with vigil := { s.vigil with
        taken := s.vigil.taken ++ [e], latch := Tbl.set (fun _ => (0, 0, 0)) s.vigil.latch i.rpn (e.addr, e.detail, e.stamp) } }
      s.popEvent.answerWord w

/-- EVQ_READ (R574). -/
def execEvqRead (i : Init) (s : State) : Host.Outcome State Fault Refusal :=
  .next (s.gate i VIG_EVQ0 (evqRead i))

/-! ### READMIT (R575) -/

/-- A write of VIG_READMIT: with GO, in COMMISSION, the named resource leaves both record copies. -/
def readmit (i : Init) (v : Word) (s : State) : State :=
  if !hostOrKeep i then s.answer .busError
  else if !v.getLsbD 31 then s.answer .ok
  else
    let r := bitsOf v.toNat 0 16
    if s.mode != 2 then (s.setReg VIG_READMIT_STAT 3).answer .ok
    else if !s.vigil.record.any fun q => q.1 == r then (s.setReg VIG_READMIT_STAT 2).answer .ok
    else
      let s := { s with vigil := { s.vigil with record := s.vigil.record.filter fun q => q.1 != r } }
      (s.writeRecord.setReg VIG_READMIT_STAT 1).answer .ok

/-- READMIT (R575). -/
def execReadmit (i : Init) (res : BitVec 16) (s : State) : Host.Outcome State Fault Refusal :=
  .next (s.gate i VIG_READMIT (readmit i (word (res.toNat + 2 ^ 31))))

/-! ### The VIG block (R576) -/

/-- VIG_RINFO of resource `r` (R576); SUSPECT is a resource in order with counted events in the window. -/
def State.resInfo (s : State) (r : Nat) : Word :=
  if !namesResource r then 0
  else
    let x := s.resource r
    let n := within x.stamps s.winTicks s.ticks
    let st := if x.state = 0 && n != 0 then 1 else x.state
    word (st + n * 16 + min 255 (within x.ce s.ceTicks s.ticks) * 256 + x.total * 65536)

/-- A read of the VIG block. -/
def vigRead (i : Init) (events : Word) (a : Nat) (s : State) : State :=
  let l := Tbl.get (fun _ => (0, 0, 0)) s.vigil.latch i.rpn
  if a = VIG_EVQ0 then evqRead i s
  else if VIG_EVQ0 < a && a ≤ VIG_EVQ0 + 12 then
    if i != .keep then s.answer .busError
    else s.answerWord (if a = VIG_EVQ0 + 4 then l.1 else if a = VIG_EVQ0 + 8 then l.2.1 else l.2.2)
  else if a = VIG_RSEL then s.answerWord (Tbl.get (fun _ => 0) s.vigil.rsel i.rpn)
  else if a = VIG_RINFO then s.answerWord (s.resInfo (Tbl.get (fun _ => 0) s.vigil.rsel i.rpn).toNat)
  else if a = VIG_STAT then
    s.answerWord (VIG_STAT_PAUSED.put (s.reg a)
      (bit (!s.flag PLM_STAT PLM_STAT_READY && !(s.vigil.queue.isEmpty && s.vigil.taken.isEmpty))))
  else s.plainRead events a

/-- A write of the VIG block: only the host and the Keep. -/
def vigWrite (i : Init) (a : Nat) (v : Word) (s : State) : State :=
  if !hostOrKeep i then s.answer .busError
  else if a = VIG_RSEL then
    ({ s with vigil := { s.vigil with rsel := Tbl.set (fun _ => 0) s.vigil.rsel i.rpn (v &&& 0xFFFF) } } : State).answer .ok
  else if a = VIG_READMIT then readmit i v s
  else if a = VIG_EVT then s.plainWrite true a (s.keepFld a VIG_EVT_DBAGENT (fun n => Nat.ble 36 n) v)
  else s.plainWrite true a v

end Sys2Proof.Machine
end

