-- ==== Sys2Proof/Machine/Boot.lean ====
section
/-! DEFINITION. Resets, boot, key fuses, clocks, power domains and the JTAG port (R579-R596, R606, R614, R620).
Choices of the model: log entries 23, 34, 50, 51, 52, 53, 54, 55, 56, 57, 58, 59, 104, 105. -/

set_option autoImplicit false

namespace Sys2Proof.Machine

open Sys2Proof

/-- The state with the boot structure changed. -/
def State.updBoot (s : State) (f : BootSt → BootSt) : State := { s with boot := f s.boot }

/-! ### Resets of the logic die (R482, R590, R595) -/

/-- Whether an address lies in MRAM. -/
def inMram (a : Nat) : Bool := Nat.ble 0x54000000 a && Nat.blt a 0x54200000

/-- The granule write under way completes; the controller drops the others (R482). -/
def State.cutMram (s : State) : State := { mramWriteComplete s with mramQ := [] }

/-- A fuse operation that a reset meets has taken place or not: the specification does not say which (free value). -/
def State.cutKeyOp (s : State) (f : State → State) : State :=
  match s.boot.keyOp with
  | none => s
  | some _ => let t := { s with fresh := s.fresh + 1 }; if Config.freeBool s.fresh then f t else t

/-- The fuse operation in progress takes effect; none undoes another (R588). -/
def State.blowFuses (s : State) : State :=
  match s.boot.keyOp with
  | none => s
  | some (.prog k h) =>
    let x := s.fuses.slots.getD k ⟨none, false, false⟩
    { s with fuses := { s.fuses with slots := s.fuses.slots.setIfInBounds k ⟨some h, true, x.revoked⟩ } }
  | some (.revoke k) =>
    let x := s.fuses.slots.getD k ⟨none, false, false⟩
    { s with fuses := { s.fuses with slots := s.fuses.slots.setIfInBounds k { x with revoked := true } } }
  | some .advance => { s with fuses := { s.fuses with rollback := max s.fuses.rollback s.boot.svn } }

/-- The logic die in reset (R590): every state of it as after power-on reset; PD0 latches, fuses, MRAM and the field die are kept,
and so are the world's pin levels, the JTAG port and the model's own counters. `cause` is SYS_RST_CAUSE. -/
def State.powerReset (s : State) (cause : Nat) : State :=
  let s := (s.cutKeyOp State.blowFuses).cutMram
  let t := { State.reset with
    pending := s.pending, fresh := s.fresh, ticks := s.ticks
    mem := Tbl.clear (fun a => !inMram a) s.mem, ecc := Tbl.clear (fun a => !inMram a) s.ecc
    fuses := s.fuses, die := s.die, sealw := s.sealw, gp := s.gp
    jtag := { s.jtag with drive := .device }
    boot := { BootSt.init with kwd := s.ticks } }
  let t := t.setReg SYS_RST_CAUSE (word cause)
  t.setReg PWR_SUPPLY (word (0xFF + 256 * bitsOf (s.reg PWR_SUPPLY).toNat 8 1 + 512 * bit s.sealw.vbat))

/-- POWER_ON_RESET: every supply has been in range for 2 ms with PORESET_N high; the mode is BOOT. -/
def powerOnReset (s : State) : State := s.powerReset 1

/-- POWER_ON_RESET (R590). -/
def execPowerOnReset (s : State) : Host.Outcome State Fault Refusal := .next (powerOnReset s)

/-- Whether a write of SYS_RST_CTL asks for a reset (R590). -/
def rstCtlOk (i : Init) (v : Word) : Bool := hostOrKeep i && bitsOf v.toNat 8 8 == 0xC3 && v.getLsbD 0

/-- SYSTEM_RESET: a pulse on RESET_N of 1 us or more; of 200 ns to 1 us perhaps (free value, R613); SYSRST by the host or the Keep,
any other write of SYS_RST_CTL being a bus error; a clock failure detected before. Without its supplies the die stays in reset. -/
def systemReset (src : ResetSrc) (s : State) : State :=
  if s.boot.held then s
  else
    match src with
    | .pin ns =>
      if ns < 200 then s
      else if 1000 ≤ ns then s.powerReset 2
      else
        let t := { s with fresh := s.fresh + 1 }
        if Config.freeBool s.fresh then t.powerReset 2 else t
    | .ctl i v => if rstCtlOk i v then s.powerReset (if i = .keep then 4 else 3) else s.answer .busError
    | .clock => if (s.boot.lost &&& 0x1F) != 0 then s.powerReset 5 else s

/-- SYSTEM_RESET (R590). -/
def execSystemReset (src : ResetSrc) (s : State) : Host.Outcome State Fault Refusal :=
  .next (match src with
    | .ctl i _ => s.gate i SYS_RST_CTL (systemReset src)
    | _ => systemReset src s)

/-- SUPPLY_LOSS: monitored supplies leave their range: the MRAM controller accepts no further write, the logic die is held in reset,
PD0 goes on (R482, R595). -/
def supplyLoss (rails : BitVec 8) (s : State) : State :=
  if rails = 0 then s
  else
    let on := (s.reg PWR_SUPPLY).truncate 8 &&& ~~~rails
    let t := (s.powerReset 1).updBoot fun b => { b with held := true }
    let t := { t with mramStop := true, jtag := Jtag.init }
    t.setReg PWR_SUPPLY ((t.reg PWR_SUPPLY &&& ~~~0xFF#32) ||| on.zeroExtend 32)

/-- SUPPLY_LOSS (R595). -/
def execSupplyLoss (rails : BitVec 8) (s : State) : Host.Outcome State Fault Refusal := .next (supplyLoss rails s)

/-- PCIE_RESET: the endpoint loses its link, configuration and MSI-X state; the host epoch advances (R451, R590). -/
def pcieReset (s : State) : State :=
  let h := s.host
  ({ s with host := { HostIf.init with
    sent := h.sent, held := h.held, lbErr := h.lbErr, lbData := h.lbData, lbReady := h.lbReady } } : State).advanceEpoch 0

/-- PCIE_RESET (R590). -/
def execPcieReset (s : State) : Host.Outcome State Fault Refusal := .next (pcieReset s)

/-- KEEP_RESET: after a double fault the mode controller restarts the Keep; a failed update swaps the banks back first. -/
def keepReset (c : KeepCause) (s : State) : State :=
  match c with
  | .doubleFault => s.keepRestart
  | .update => keepFallback s

/-- KEEP_RESET (R590). -/
def execKeepReset (c : KeepCause) (s : State) : Host.Outcome State Fault Refusal := .next (keepReset c s)

/-- KWD: a Keep write of SYS_KWD services the watchdog; any other initiator's is a bus error. -/
def kwd (i : Init) (s : State) : State :=
  if i != .keep then s.answer .busError else (s.updBoot fun b => { b with kwd := s.ticks }).answer .ok

/-- KWD (R591). -/
def execKwd (i : Init) (s : State) : Host.Outcome State Fault Refusal :=
  .next (s.gate i SYS_KWD (kwd i))

/-- KEEP_WATCHDOG_EXPIRY: no SYS_KWD write for 10 ms resets the Keep; nothing where one came within the last 10 ms. -/
def keepWatchdogExpiry (s : State) : State := if s.ticks < s.boot.kwd + 1250000 then s else s.keepRestart

/-- KEEP_WATCHDOG_EXPIRY (R591). -/
def execKeepWatchdogExpiry (s : State) : Host.Outcome State Fault Refusal := .next (keepWatchdogExpiry s)

/-- Whether a reset of tower `t` is refused (R591): an engine of it carries work, or its domain is not ON. -/
def State.towerBusy (s : State) (t : Nat) : Bool :=
  s.domain t != 0 || (List.range 8).any fun j => !(s.role (8 * t + j) == 0 || s.role (8 * t + j) == 5 || s.role (8 * t + j) == 7)

/-- TOWER_RESET: a Keep write of SYS_TW_RST: refused with a bus error if any named tower not in reset is busy; else every such tower
starts its reset. -/
def towerReset (i : Init) (v : Word) (s : State) : State :=
  if i != .keep then s.answer .busError
  else
    let ts := (List.range 4).filter fun t => v.getLsbD t && !(s.reg SYS_TW_RST).getLsbD t
    if ts.any s.towerBusy then s.answer .busError
    else
      let s := ts.foldl (fun (s : State) t => (List.range 8).foldl (fun (s : State) j => s.engineRst (8 * t + j)) s) s
      ((s.setReg SYS_TW_RST (s.reg SYS_TW_RST ||| (v &&& 15))).towerBits).answer .ok

/-- TOWER_RESET (R591). -/
def execTowerReset (i : Init) (v : Word) (s : State) : Host.Outcome State Fault Refusal :=
  .next (s.gate i SYS_TW_RST (towerReset i v))

/-- FIELD_DIE_RESET (R606): below 16.5 V the field die is held in reset; 5 ms after VF24 has risen above 18.0 V it is released. Both
outputs are off. -/
def fieldDieReset (inRange : Bool) (s : State) : State := { s with die := { Die.init with run := inRange } }

/-- FIELD_DIE_RESET (R606). -/
def execFieldDieReset (inRange : Bool) (s : State) : Host.Outcome State Fault Refusal := .next (fieldDieReset inRange s)

/-! ### Clocks (R593) -/

/-- The bit of a clock in PWR_CLK_STAT. -/
def clockBit (c : ClockSrc) : Nat :=
  match c with
  | .crystal => 0
  | .pll0 => 1
  | .pll1 => 2
  | .pll2 => 3
  | .ddrPll => 4
  | .pcieRef => 6
  | .safe => 7
  | .field => 8

/-- CLOCK_FAILURE: the crystal or a PLL: HOLD cause 3, and the system reset follows; PCIE_REFCLK: a PCIe reset; CK_SAFE and CK_FIELD:
HOLD cause 3 and 10. -/
def clockFailure (c : ClockSrc) (s : State) : State :=
  let b := word (2 ^ clockBit c)
  let s := if c = .field then s else s.setReg PWR_CLK_STAT (s.reg PWR_CLK_STAT &&& ~~~b)
  match c with
  | .pcieRef => pcieReset s
  | .safe => s.holdCause 3
  | .field => s.holdCause 10
  | _ => (s.updBoot fun x => { x with lost := x.lost ||| b.truncate 8 }).holdCause 3

/-- CLOCK_FAILURE (R593). -/
def execClockFailure (c : ClockSrc) (s : State) : Host.Outcome State Fault Refusal := .next (clockFailure c s)

/-! ### Power domains (R596) -/

/-- The condition for switching domain PD3 + `d` off. -/
def State.offAllowed (s : State) (d : Nat) : Bool :=
  if d < 4 then
    (List.range 8).all (fun j =>
      let x := s.eng (8 * d + j)
      (x.st == .reset || x.st == .halted || x.st == .isolated) && (s.role (8 * d + j) == 0 || s.role (8 * d + j) == 7)) &&
    (towerBanks d).all (fun k => (s.bankWord k).toNat % 4 == 0 || (s.bankWord k).toNat % 4 == 3) &&
    s.rc d true == 0 && s.rc d false == 0 && s.rb d == 0
  else if d = 4 then
    (List.range 6).all fun p => s.fld (ETH_CTL p) ETH_CTL_MODE == 0 && !s.flag (ETH_LANE_CTL p) ETH_LANE_CTL_PRIEN &&
      !s.flag (ETH_LANE_CTL p) ETH_LANE_CTL_SHDEN
  else
    s.fld CTB_STAT CTB_STAT_STATE == 0 && s.fld BFY_STAT BFY_STAT_STATE == 0 &&
      (List.range 4).all (fun n => s.flag (CAN_STAT n) CAN_STAT_HALTED) && (List.range 8).all s.carQuiet

/-- PWR_PD_STAT with domain `d` in state `v`. -/
def State.setDomain (s : State) (d v : Nat) : State := s.setFld PWR_PD_STAT ⟨2 * d, 2⟩ v

/-- The next request is taken up while no domain switches: an off request whose condition fails is refused. -/
def State.serveDomain (s : State) : State :=
  match s.boot.serving, s.boot.asks with
  | none, (d, on) :: t =>
    let s := s.updBoot fun b => { b with asks := t }
    let go (s : State) : State :=
      ((s.setDomain d 2).setFld PWR_PD_STAT ⟨16, 1⟩ 0).updBoot fun b => { b with serving := some (d, on) }
    if on then (if s.domain d = 1 then go s else s)
    else if s.domain d != 0 then s
    else if s.offAllowed d then go s
    else s.setFld PWR_PD_STAT ⟨16, 1⟩ 1
  | _, _ => s

/-- Requests are served one at a time in ascending domain number. -/
def State.serveDomains (s : State) : State := (List.range s.boot.asks.length).foldl (fun (s : State) _ => s.serveDomain) s

/-- A write of PWR_PD_CTL: only the host and the Keep. -/
def pdCtlWrite (i : Init) (v : Word) (s : State) : State :=
  if !hostOrKeep i then s.answer .busError
  else
    let new := (List.range 6).flatMap fun d =>
      match bitsOf v.toNat (2 * d) 2 with
      | 1 => [(d, true)]
      | 2 => [(d, false)]
      | _ => []
    ((s.updBoot fun b => { b with asks := (List.range 6).flatMap fun d => (b.asks ++ new).filter fun q => q.1 == d }).serveDomains).answer
      .ok

/-- DOMAIN_OFF_REQUEST (R596). -/
def execDomainOffRequest (i : Init) (d : Fin 6) (s : State) : Host.Outcome State Fault Refusal :=
  .next (s.gate i PWR_PD_CTL (pdCtlWrite i (word (2 * 4 ^ d.val))))

/-- DOMAIN_ON_REQUEST (R596). -/
def execDomainOnRequest (i : Init) (d : Fin 6) (s : State) : Host.Outcome State Fault Refusal :=
  .next (s.gate i PWR_PD_CTL (pdCtlWrite i (word (4 ^ d.val))))

/-- The state of domain `d` is lost; its registers are at their power-on values. -/
def State.loseDomain (s : State) (d : Nat) : State :=
  let s := s.resetRegs (domainReg d)
  if d < 4 then
    let s := (List.range 8).foldl (fun (s : State) j =>
      let e := 8 * d + j
      (s.updEng e fun x => if x.st = .isolated then x else Engine.init).destroyStore e) s
    (towerBanks d).foldl (fun (s : State) k => if s.bankState k = 6 then s else (s.setBankState k 3).eraseBank k) s
  else if d = 4 then { s with ports := [], lanes := [], handed := [] }
  else { s with
    camp := Camp.init, star := Star.init, cans := Vector.replicate 4 CanCtl.init, seqs := Vector.replicate 32 Seq.init, carFlag := 0 }

/-- Domain `d` comes up: banks pass through INIT, engines through RESET to HALTED with their epochs advanced. -/
def State.raiseDomain (s : State) (d : Nat) : State :=
  if d < 4 then
    let s := (List.range 8).foldl (fun (s : State) j =>
      if (s.eng (8 * d + j)).st = .isolated then s else s.engineFresh (8 * d + j)) s
    (towerBanks d).foldl (fun (s : State) k => if s.bankState k = 6 then s else s.setBankState k 4) s
  else s

/-- DOMAIN_SWITCH_COMPLETE: the domain being served is OFF or ON. -/
def domainSwitchComplete (d : Nat) (s : State) : State :=
  match s.boot.serving with
  | some (k, on) =>
    if k != d then s
    else
      let s := s.updBoot fun b => { b with serving := none }
      let s := if on then (s.raiseDomain d).setDomain d 0 else (s.loseDomain d).setDomain d 1
      s.serveDomains.plmSync
  | none => s

/-- DOMAIN_SWITCH_COMPLETE (R596). -/
def execDomainSwitchComplete (d : Fin 6) (s : State) : Host.Outcome State Fault Refusal := .next (domainSwitchComplete d s)

/-! ### Boot image (R584-R589) -/

/-- Whether a boot image holds exactly one KEEPCODE and one DDRP module of four words (R586). -/
def bootModules (l : List Byte) : Bool :=
  ((cModules l).filter fun m => m.type == 3).length == 1 &&
    ((cModules l).filter fun m => m.type == 4).length == 1 && ((cModules l).filter fun m => m.type == 4).all fun m => m.len == 16

/-- The DDRP module is applied and the DRAM trained (R484, R585). -/
def State.applyDdrp (s : State) (l : List Byte) (trained : Bool) : State :=
  let o := (cModule l 4).elim 0 fun m => m.ofs
  let s := s.setFlag MEM_DDR_CTL MEM_DDR_CTL_EN true
  let s := if dramCode (word (cw l o)) = 0 then s.setFlag MEM_DDR_STAT MEM_DDR_STAT_CFGERR true
    else s.setReg MEM_DDR_CFG (word (cw l o))
  let s := (List.range 3).foldl (fun (s : State) k => s.setReg (MEM_DDR_TIM0 + 4 * k) (word (cw l (o + 4 + 4 * k)))) s
  ddrTrainingComplete (trained && dramCode (word (cw l o)) != 0) s.startTraining

/-- The container is copied to DRAM at 0, then its DATA modules to their places; zeroing has passed both (R485, R584, R586). -/
def State.copyImage (s : State) (l : List Byte) : State :=
  let s := s.startDdrInit.setBytes 0 (l.take (cLength l))
  let data := (cModules l).filter fun m => m.type == 5 && Nat.ble (m.arg + m.len) s.dramSize
  let s := data.foldl (fun (s : State) m => s.setBytes m.arg ((l.drop m.ofs).take m.len)) s
  s.setReg MEM_DDR_INITPTR (word (data.foldl (fun n m => max n (m.arg + m.len)) (cLength l)))

/-- The Keep firmware of a verified image starts in bank 0 (R585); `l` is the running boot image. -/
def State.startKeep (s : State) (l : List Byte) : State :=
  let m := (cModule l 3).getD ⟨0, 0, 0, 0⟩
  let s := ((codeWords l m.ofs (min 16384 (m.len / 2))).zipIdx).foldl (fun (s : State) (w, j) => s.setProgWord 32 j w) s
  let s := s.updEng 32 fun g => { g.zero (s.progWord 32 0) with st := .running, run := true, clken := true }
  let s := (s.setReg PLM_KVER (cVersion l)).updBoot fun b => { b with svn := cSvn l, key := cKeyslot l, kwd := s.ticks }
  s.setFld SYS_BOOT_STAT SYS_BOOT_STAT_STAGE 5

/-- One image (R584, R585): its error code, 0 where it is running (R587 and SYS_BOOT_STAT), and the state. -/
def State.tryImage (s : State) (l : List Byte) (src : Nat) (trained : Bool) : Nat × State :=
  let stage (n : Nat) (s : State) : State := s.setFld SYS_BOOT_STAT SYS_BOOT_STAT_STAGE n
  if !formatOk l src then (2, stage 1 s)
  else if !bootModules l then (7, stage 1 s)
  else
    let s := s.applyDdrp l trained
    if !s.flag MEM_DDR_STAT MEM_DDR_STAT_READY then (6, stage 2 s)
    else
      let s := s.copyImage l
      match s.verify l src with
      | 1 => (2, stage 4 s)
      | 2 => (3, stage 4 s)
      | 3 => (4, stage 4 s)
      | 4 => (5, stage 4 s)
      | _ => if cProfile l != 3 then (8, stage 4 s) else (0, s.startKeep l)

/-- Slot `k` of the flash: its result goes into SYS_BOOT_STAT. -/
def State.trySlot (s : State) (k : Nat) (img : Option (List Byte)) (trained : Bool) : Nat × State :=
  let f := if k = 0 then SYS_BOOT_STAT_ERR0 else SYS_BOOT_STAT_ERR1
  match img with
  | none => (1, s.setFld SYS_BOOT_STAT f 1)
  | some l =>
    let (c, s) := (s.setFld SYS_BOOT_STAT SYS_BOOT_STAT_SRC k).tryImage l 0x1000000 trained
    (c, s.setFld SYS_BOOT_STAT f c)

/-- The sources in order (R584): slot 0, slot 1, recovery; a DRAM training failure sets FAIL at once (R589). -/
def State.bootImage (s : State) (w : BootWorld) : State :=
  let fail (s : State) : State := s.setFlag SYS_BOOT_STAT SYS_BOOT_STAT_FAIL true
  match s.trySlot 0 w.slot0 w.trained with
  | (0, s) => s
  | (6, s) => fail s
  | (_, s) =>
    match s.trySlot 1 w.slot1 w.trained with
    | (0, s) => s
    | (_, s) => fail s

/-! ### BOOT_START (R585) -/

/-- BOOT_COUNT_ADVANCE (R620): the pair in MRAM is read, 0 where it does not agree, advanced, and shown in SYS_BOOTCNT. -/
def State.bootCount (s : State) : State :=
  let a : Nat := 0x540DFFC0
  let w (o : Nat) : Word := word (ofBytes (s.mramBytes (a + o) 4))
  let n : Word := (if w 4 = ~~~(w 0) then w 0 else 0) + 1
  (s.mramStore a (toBytes n.toNat 4 ++ toBytes (~~~n).toNat 4)).setReg SYS_BOOTCNT n

/-- A recorded resource is kept out of service (R572): an engine ISOLATED, a bank RETIRED, a DRAM segment in MEM_DDR_RSEG. -/
def State.applyRetired (s : State) (r : Nat) : State :=
  let n := resIndex r
  match resKind r with
  | 1 => (s.updEng n fun x => { x with st := .isolated }).setRole n 7 0 |>.resDown r 5
  | 2 => (s.retireBank n).resDown r 5
  | 3 => (s.retireBank (64 + n)).resDown r 5
  | 5 => s.segmentDown n
  | _ => s.resDown r 5

/-- RETIREMENT_RECORD_APPLY (R572): the union of the valid copies is applied and rewritten; two copies that differ, or none, set
RRERR; a single valid copy sets RREC until the rewrite is verified. -/
def State.applyRecord (s : State) : State :=
  let read (a : Nat) : Option (List (Nat × Nat × Nat)) := readRecord (s.mramBytes a 2052)
  let use (s : State) (l : List (Nat × Nat × Nat)) : State :=
    let l := l.take 256
    let s := { s with vigil := { s.vigil with record := l } }
    (l.foldl (fun (s : State) q => s.applyRetired q.1) s).writeRecord
  match read recordA, read recordB with
  | some a, some b =>
    let s := if a = b then s else s.setFlag VIG_STAT VIG_STAT_RRERR true
    use s (a ++ b.filter fun q => !a.any fun p => p.1 == q.1)
  | some a, none => use (s.degrSet ((s.reg VIG_DEGR).getLsbD 2) true) a
  | none, some b => use (s.degrSet ((s.reg VIG_DEGR).getLsbD 2) true) b
  | none, none => s.setFlag VIG_STAT VIG_STAT_RRERR true

/-- The newest log entry is found and the header written (R573). -/
def State.findLog (s : State) : State :=
  let entry (k : Nat) : List Byte := s.mramBytes (logBase + 32 * k) 32
  let best := (List.range 2048).foldl (fun (b : Option (Nat × Word)) k =>
    let d := entry k
    let q := word (ofBytes ((d.drop 24).take 4))
    if crc32c (d.take 28) = word (ofBytes (d.drop 28)) && q != 0 then
      match b with
      | some (_, m) => if m.toNat < q.toNat then some (k, q) else b
      | none => some (k, q)
    else b) none
  let (pos, seq) : Nat × Word := match best with
    | some (k, q) => ((k + 1) % 2048, q)
    | none => (0, 0)
  let s := { s with vigil := { s.vigil with logPos := pos } }
  (s.setReg VIG_LOGSEQ seq).mramStore logHead (toBytes (seq + 1).toNat 4)

/-- The reserved mailboxes are configured by the Keep (R459, R549): sender, receiver, post ring, empty ring. -/
def State.setMailbox (s : State) (cfg snd rcv : Nat) (post empty : Option Nat) : State :=
  let w := XCH_MBX_CFG_SND.put 0 snd
  let w := XCH_MBX_CFG_RCV.put w rcv
  let w := XCH_MBX_CFG_PRBIT.put (XCH_MBX_CFG_PRING.put w (bit post.isSome)) (post.getD 0)
  s.setReg cfg (XCH_MBX_CFG_ERBIT.put (XCH_MBX_CFG_ERING.put w (bit empty.isSome)) (empty.getD 0))

/-- The mailboxes of the placement manager and of the Cupola gateway, and the slot of its status. -/
def State.setMailboxes (s : State) : State :=
  let s := s.setMailbox (XCH_MBX_CFG 0) 0 1 none (some (s.fld PLM_CFG PLM_CFG_ACKDB))
  let s := s.setMailbox (XCH_MBX_CFG 1) 1 0 (some (s.fld PLM_CFG PLM_CFG_RSPDB)) none
  let s := s.setMailbox (XCH_MBX_CFG 124) 0 2 none (some 28)
  let s := s.setMailbox (XCH_MBX_CFG 125) 1 2 none none
  let s := s.setMailbox (XCH_MBX_CFG 126) 2 0 (some 29) none
  let s := s.setMailbox (XCH_MBX_CFG 127) 2 1 (some 2) none
  s.setMailbox (XCH_LVS_CFG 63) 2 0 none none

/-- The self-tests of BOOT (R168, R475, R479, R585): unretired engines and banks; failures are reported; banks and the exchange
region are zero. -/
def State.bootTests (s : State) (w : BootWorld) : State :=
  let s := (List.range 32).foldl (fun (s : State) e =>
    if (s.eng e).st = .isolated then s
    else engineTestComplete e (!w.badEngines.any fun b => b.val == e) ((s.updEng e fun x => { x with st := .test }).destroyStore e)) s
  let s := (List.range 96).foldl (fun (s : State) k =>
    if s.bankState k = 6 then s else bankTestComplete k (!w.badBanks.any fun b => b.val == k) (s.setBankState k 5)) s
  s.eraseMem fun a => Nat.ble 0x4C000000 a && Nat.blt a 0x4C040000

/-- The island in BOOT (R543, R547, R554, R585): a latched break or VBAT-loss goes into the seal record; both cores are tested; the
active one is loaded from the slot of the seal record and starts; the sets are checked; link training starts (R524). -/
def State.bootIsland (s : State) (w : BootWorld) : State :=
  let s := s.updSeal fun x => { x with recBrk := x.recBrk || x.brk || x.vbat }
  let s := [0, 1].foldl (fun (s : State) k =>
    if w.badCores.getLsbD k then s.report 5 (resId 8 k) 0 46 else s.updEng (33 + k) fun g => { g with st := .halted }) s
  let s := s.updCup fun x => { x with stby := !w.badCores.getLsbD (1 - x.active) }
  let l := s.mramBytes (fwSlot s.sealw.slot) 65536
  let s := if w.badCores.getLsbD s.cup.active then s.holdCause 4
    else if s.verify l 65536 = 0 && cProfile l = 1 && !s.sealw.empty.getLsbD s.sealw.slot then
      let s := s.loadCore s.cup.active l
      s.updEng s.activeCore fun g => { g.zero (s.progWord s.activeCore 0) with st := .running, run := true, clken := true }
    else s
  let dead := [0, 1, 2, 3].any fun k => (s.resource (resId 9 k)).state == 5
  (if dead then s.judgeSets else s.judgeSets.startTraining').cupPublish

/-- BOOT_START: clocks lock, the boot count advances, records are applied, tests run, the island starts, and the image is read. Once
in each BOOT, and only with the supplies present. -/
def bootStart (w : BootWorld) (s : State) : State :=
  if s.boot.held || s.mode != 1 || s.reg SYS_BOOT_STAT != 0 then s
  else
    let s := s.setReg PWR_CLK_STAT (s.reg PWR_CLK_STAT ||| 0x3F)
    let s := s.bootCount.findLog
    let s := if w.idGood then s else (s.setFlag SYS_ID_STAT SYS_ID_STAT_LD_CRC_ERR true).report 10 0 0 32
    let s := s.applyRecord.setMailboxes
    ((s.bootTests w).bootIsland w).bootImage w

/-- BOOT_START (R585). -/
def execBootStart (w : BootWorld) (s : State) : Host.Outcome State Fault Refusal := .next (bootStart w s)

/-- BOOT_COMPLETE `us` microseconds after reset release (R581, R585): the image runs and the handshake has ended; the Keep firmware
sets READY, and the mode is chosen: HOLD, RUN, DEGRADED or COMMISSION (R579). -/
def bootComplete (us : Word) (s : State) : State :=
  if s.mode != 1 || s.fld SYS_BOOT_STAT SYS_BOOT_STAT_STAGE != 5 || !(s.cup.link = 2 || s.boot.hsOver) then s
  else
    let s := (s.setFlag PLM_STAT PLM_STAT_READY true).setFld SYS_BOOT_STAT SYS_BOOT_STAT_STAGE 6
    let s := (s.setReg SYS_BOOT_TIME us).syncMode
    let s := if s.holdStands then (s.setMode 5 1).holdStop
      else if s.runBars = 0 then s.setMode (if s.flag VIG_STAT VIG_STAT_DEGREQ then 4 else 3) 1
      else s.setMode 2 1
    s.plmSync.keepRead

/-- BOOT_COMPLETE (R581). -/
def execBootComplete (us : Word) (s : State) : Host.Outcome State Fault Refusal := .next (bootComplete us s)

/-- HANDSHAKE_TIMEOUT: 150 ms without success end the handshake of BOOT; HOLD cause 5 (R581). -/
def handshakeTimeout (s : State) : State :=
  if s.mode != 1 || s.cup.link = 2 then s else (s.updBoot fun b => { b with hsOver := true }).holdCause 5

/-- HANDSHAKE_TIMEOUT (R581). -/
def execHandshakeTimeout (s : State) : Host.Outcome State Fault Refusal := .next (handshakeTimeout s)

/-- A write of SYS_RECOV (R589): accepted only while FAIL is 1, from the PCIe host or the boot ROM; GO verifies the container of LEN bytes in central SRAM
and continues boot from the DRAM step; DRAM that failed its training fails again. -/
def recovWrite (i : Init) (v : Word) (trained : Bool) (s : State) : State :=
  if !(i == .pcie || i == .keep) then s.answer .busError
  else if !s.flag SYS_BOOT_STAT SYS_BOOT_STAT_FAIL then s.answer .ok
  else
    let n := SYS_RECOV_LEN.get v
    let s := s.setReg SYS_RECOV (word n)
    if !v.getLsbD 31 then s.answer .ok
    else
      let failed := s.fld SYS_BOOT_STAT SYS_BOOT_STAT_ERR0 = 6 || s.fld SYS_BOOT_STAT SYS_BOOT_STAT_ERR1 = 6
      let s := s.setFld SYS_BOOT_STAT SYS_BOOT_STAT_SRC 2
      let (c, s) := s.tryImage (s.bytes 0x40000000 (min n 0x3E0000)) (min n 0x3E0000) (trained && !failed)
      let s := s.setFld SYS_BOOT_STAT SYS_BOOT_STAT_ERRR c
      (if c = 0 then s.setFlag SYS_BOOT_STAT SYS_BOOT_STAT_FAIL false else s).answer .ok

/-- RECOVERY_GO (R589). -/
def execRecoveryGo (i : Init) (len : BitVec 23) (trained : Bool) (s : State) : Host.Outcome State Fault Refusal :=
  .next (s.gate i SYS_RECOV (recovWrite i (word (len.toNat + 2 ^ 31)) trained))

/-! ### Key fuses (R588) -/

/-- The operation that a write of SYS_KEY_CTL names, if it is accepted: exactly one, in COMMISSION, by the host or the Keep, and one
that changes a fuse. -/
def State.keyOpOf (s : State) (i : Init) (v : Word) : Option KeyOp :=
  let k := bitsOf v.toNat 0 2
  let x := s.fuses.slots.getD k ⟨none, false, false⟩
  let others := (List.range 4).any fun j =>
    let y := s.fuses.slots.getD j ⟨none, false, false⟩
    j != k && y.programmed && !y.revoked
  if !hostOrKeep i || bitsOf v.toNat 8 8 != 0xC3 || s.mode != 2 || s.boot.keyOp.isSome then none
  else
    match bitsOf v.toNat 2 3 with
    | 1 => if 2 ≤ k && !x.programmed then some (.prog k ((List.range 8).map fun j => s.reg (SYS_KEY_HASH j))) else none
    | 2 => if !x.revoked && others then some (.revoke k) else none
    | 4 => if s.fuses.rollback < s.boot.svn then some .advance else none
    | _ => none

/-- A write of SYS_KEY_CTL: an accepted operation is BUSY until it ends; every other write completes with a bus error. -/
def keyCtlWrite (i : Init) (v : Word) (s : State) : State :=
  match s.keyOpOf i v with
  | some o => (s.updBoot fun b => { b with keyOp := some o }).answer .ok
  | none => s.answer .busError

/-- PROG (R588). -/
def execKeyProg (i : Init) (slot : Fin 4) (key : BitVec 8) (s : State) : Host.Outcome State Fault Refusal :=
  .next (s.gate i SYS_KEY_CTL (keyCtlWrite i (word (slot.val + 4 + key.toNat * 256))))

/-- REVOKE (R588). -/
def execKeyRevoke (i : Init) (slot : Fin 4) (key : BitVec 8) (s : State) : Host.Outcome State Fault Refusal :=
  .next (s.gate i SYS_KEY_CTL (keyCtlWrite i (word (slot.val + 8 + key.toNat * 256))))

/-- RBADV (R588). -/
def execKeyAdvance (i : Init) (key : BitVec 8) (s : State) : Host.Outcome State Fault Refusal :=
  .next (s.gate i SYS_KEY_CTL (keyCtlWrite i (word (16 + key.toNat * 256))))

/-- KEY_OP_COMPLETE: the fuses show the operation, BUSY ends. -/
def keyOpComplete (s : State) : State := s.blowFuses.updBoot fun b => { b with keyOp := none }

/-- KEY_OP_COMPLETE (R588). -/
def execKeyOpComplete (s : State) : Host.Outcome State Fault Refusal := .next (keyOpComplete s)

/-- SYS_KEY_STAT as it reads. -/
def State.keyStat (s : State) : Word :=
  let b (f : KeySlot → Bool) : Nat := ((s.fuses.slots.toList.zipIdx).map fun (x, k) => bit (f x) * 2 ^ k).sum
  word (b (fun x => x.programmed) + 16 * b (fun x => x.revoked) + 2 ^ 8 * s.boot.key + 2 ^ 10 * s.fuses.rollback +
    2 ^ 16 * bit s.boot.keyOp.isSome)

/-! ### JTAG (R614) -/

/-- The port with instruction `ir`, data register `dr`, and the pins driven by `p`. -/
def State.jtagSet (s : State) (ir : JtagIr) (dr : List Bool) (p : PinDrive) : State :=
  { s with jtag := { s.jtag with ir := ir, dr := dr, drive := p } }

/-- BYPASS: the one-bit register, which captures 0; the pins stay with the device. -/
def jtagBypass (s : State) : State := s.jtagSet .bypass [false] .device

/-- BYPASS (R614). -/
def execJtagBypass (s : State) : Host.Outcome State Fault Refusal := .next (jtagBypass s)

/-- IDCODE: the identification register. -/
def execJtagIdcode (s : State) : Host.Outcome State Fault Refusal := .next (s.jtagSet .idcode (wordBits jtagId) .device)

/-- SAMPLE/PRELOAD: the boundary register captures the pins (`capture`) and its output latches take `update`; the pins stay with the
device. -/
def jtagSample (capture update : List Bool) (s : State) : State :=
  let s := s.jtagSet .sample capture .device
  { s with jtag := { s.jtag with latch := update } }

/-- SAMPLE_PRELOAD (R614). -/
def execJtagSamplePreload (capture update : List Bool) (s : State) : Host.Outcome State Fault Refusal :=
  .next (jtagSample capture update s)

/-- EXTEST: while PORESET_N or RESET_N is low (`held`) the boundary register captures the pins and drives the outputs from its
latches; else as BYPASS. -/
def jtagExtest (held : Bool) (capture update : List Bool) (s : State) : State :=
  if held then
    let s := s.jtagSet .extest capture .boundary
    { s with jtag := { s.jtag with latch := update } }
  else jtagBypass s

/-- EXTEST (R614). -/
def execJtagExtest (held : Bool) (capture update : List Bool) (s : State) : Host.Outcome State Fault Refusal :=
  .next (jtagExtest held capture update s)

/-- HIGHZ: while reset is held the outputs float; else as BYPASS. -/
def execJtagHighz (held : Bool) (s : State) : Host.Outcome State Fault Refusal :=
  .next (if held then s.jtagSet .highz [false] .floating else jtagBypass s)

/-- CLAMP: while reset is held the outputs are those of the boundary register's latches; else as BYPASS. -/
def execJtagClamp (held : Bool) (s : State) : Host.Outcome State Fault Refusal :=
  .next (if held then s.jtagSet .clamp [false] .boundary else jtagBypass s)

end Sys2Proof.Machine
end

