-- ==== Sys2Proof/Machine/Access.lean ====
section
/-! DEFINITION. Routing of accesses (R29-R33): register reads and writes by block with the limits of power domains (R596), modes
(R44) and access size (R12), the SYS, XCH and PWR blocks, and a fabric access to any target.
Choices of the model: log entries 6, 38, 96. -/

set_option autoImplicit false

namespace Sys2Proof.Machine

open Sys2Proof

/-! ### MSI-X table (R38, R39) -/

/-- Word `k` of the MSI-X table and the PBA. -/
def State.msixWord (s : State) (a : Nat) : Word :=
  if a = 0x60009000 then s.host.pba
  else if Nat.ble 0x60008000 a && Nat.blt a 0x60008200 then Tbl.get msixReset s.host.msix ((a - 0x60008000) / 4)
  else 0

/-- The held message of vector `v` is sent once nothing masks the vector (R39). -/
def State.msixRelease (s : State) (v : Nat) : State :=
  let h := s.host
  if h.msixEn && !h.msixFm && h.pba.getLsbD v && !(Tbl.get msixReset h.msix (4 * v + 3)).getLsbD 0 then
    ({ s with host := { h with pba := h.pba &&& ~~~BitVec.ofNat 32 (2 ^ v) } } : State).msixEvent v
  else s

/-- A write of a table word: the mask bit of a vector control word, an address with its low two bits 0, any data word. -/
def State.msixWrite (s : State) (a : Nat) (v : Word) : State :=
  if Nat.ble 0x60008000 a && Nat.blt a 0x60008200 then
    let k := (a - 0x60008000) / 4
    let v := if k % 4 = 3 then v &&& 1 else if k % 4 = 0 then v &&& 0xFFFFFFFC else v
    ({ s with host := { s.host with msix := Tbl.set msixReset s.host.msix k v } } : State).msixRelease (k / 4)
  else s

/-- Whether an address lies in the MSI-X table or the PBA. -/
def inMsix (a : Nat) : Bool := (Nat.ble 0x60008000 a && Nat.blt a 0x60008200) || (Nat.ble 0x60009000 a && Nat.blt a 0x60009008)

/-- MSIX_VECTOR_UNMASK: a write of the vector control word of `v`; one that unmasks it sends its held message. -/
def execMsixVectorUnmask (v : Fin 32) (ctrl : Word) (s : State) : Host.Outcome State Fault Refusal :=
  .next ((s.msixWrite (0x6000800C + 16 * v.val) ctrl).answer .ok)

/-! ### SYS block -/

/-- SYS_PART_ID: PART 0x3240, SREV 2, the fused GRADE, FAMILY 0x53 (R13, R14). -/
def partId : Word := word (0x3240 + 2 * 2 ^ 16 + Config.grade.toNat * 2 ^ 20 + 0x53 * 2 ^ 24)

/-- A write of SYS_HOST_BPAP: a reserved BASE leaves BASE, EN is written (R40). -/
def hostApertureWrite (v : Word) (s : State) : State :=
  s.plainWrite true SYS_HOST_BPAP (s.keepFld SYS_HOST_BPAP SYS_HOST_BPAP_BASE (fun n => Nat.blt n 0x80) v)

/-- HOST_APERTURE_WRITE (R40). -/
def execHostApertureWrite (i : Init) (v : Word) (s : State) : Host.Outcome State Fault Refusal :=
  .next (s.gate i SYS_HOST_BPAP (hostApertureWrite v))

/-- Whether an address lies in the per-engine windows (R161). -/
def inEngines (a : Nat) : Bool := Nat.ble 0x60001080 a && Nat.blt a 0x60003080

/-- Whether an address is a register of the program loader (R171). -/
def inLoader (a : Nat) : Bool := Nat.ble 0x60000F00 a && Nat.blt a 0x60000F20

/-- A read in the SYS block. -/
def sysRead (events : Word) (a : Nat) (s : State) : State :=
  if inEngines a then engineRead events ((a - 0x60001080) / 0x100) ((a - 0x60001080) % 0x100) s
  else if inLoader a then loaderRead a s
  else if a = SYS_PART_ID then s.answerWord partId
  else if a = SYS_LD_LOT then s.answerWord (Config.ldLot &&& 0x1FFFFFFF)
  else if a = SYS_LD_POS then s.answerWord (Config.ldPos &&& 0x00FFFFFF)
  else if a = SYS_LD_DATE then s.answerWord (Config.ldDate &&& 0xFFFF)
  else if a = SYS_KEY_STAT then s.answerWord s.keyStat
  else if inMsix a then s.answerWord (s.msixWord a)
  else s.plainRead events a

/-- A write in the SYS block; `stepFn` executes a STEP. -/
def sysWrite (stepFn : Nat → State → State) (i : Init) (a : Nat) (v : Word) (s : State) : State :=
  if inEngines a then engineWrite stepFn i ((a - 0x60001080) / 0x100) ((a - 0x60001080) % 0x100) v s
  else if inLoader a then loaderWrite i a v s
  else if a = SYS_HOST_BPAP then hostApertureWrite v s
  else if a = SYS_MODE_REQ then modeReqWrite i v s
  else if a = SYS_MODE_EVT then s.plainWrite true a (s.keepFld a SYS_MODE_EVT_DBAGENT (fun n => Nat.ble 36 n) v)
  else if a = SYS_RECOV then recovWrite i v (Config.freeBool s.fresh) { s with fresh := s.fresh + 1 }
  else if a = SYS_KEY_CTL then keyCtlWrite i v s
  else if a = SYS_RST_CTL then systemReset (.ctl i v) s
  else if a = SYS_TW_RST then towerReset i v s
  else if a = SYS_KWD then kwd i s
  else if inMsix a then (s.msixWrite a v).answer .ok
  else s.plainWrite true a v

/-! ### XCH block (R453) -/

/-- A word of the FULL bits of objects `32 j` to `32 j + 31` whose side is agent `p`. -/
def State.fullWord (s : State) (obj : Nat → XObj) (side : State → XObj → Nat) (p j : Nat) : Word :=
  word ((List.range 32).map fun n => bit (s.full (obj (32 * j + n)) && side s (obj (32 * j + n)) == p) * 2 ^ n).sum

/-- A read in the page of agent `p` at offset `o`. -/
def pageRead (i : Init) (p o : Nat) (s : State) : State :=
  if o < 0x200 then mailboxConsume i p (o / 4) s
  else if o < 0x300 then lvsConsume i p ((o - 0x200) / 4) s
  else if o < 0x400 then semTestAndSet i p ((o - 0x300) / 4) s
  else if o < 0x40C then
    if !doorOk i p then s.answer .busError
    else s.answerWord (if o = 0x400 then s.reg (XCH_A_DB_PEND p) else if o = 0x404 then s.reg (XCH_A_DB_MASK p) else 0)
  else if !pageOk i p then s.answer .busError
  else if o < 0x410 then s.answerWord (s.reg (XCH_A_LASTST p))
  else if o < 0x420 then s.answerWord (s.fullWord mbx State.receiver p ((o - 0x410) / 4))
  else if o < 0x430 then s.answerWord (s.fullWord mbx State.sender p ((o - 0x420) / 4))
  else if o < 0x438 then s.answerWord (s.fullWord lvs State.receiver p ((o - 0x430) / 4))
  else s.answerWord (if o = 0x438 then s.reg (XCH_EPOCH p) else 0)

/-- A write in the page of agent `p` at offset `o`. -/
def pageWrite (i : Init) (p o : Nat) (v : Word) (s : State) : State :=
  if o < 0x200 then mailboxPost i p (o / 4) v s
  else if o < 0x300 then lvsPost i p ((o - 0x200) / 4) v s
  else if o < 0x400 then semRelease i p ((o - 0x300) / 4) s
  else if o = 0x400 then doorbellClear i p v 0 s
  else if o = 0x404 then doorbellMaskWrite i p v s
  else if o = 0x408 then doorbellRing i p v s
  else s.answer (if pageOk i p then .ok else .busError)

/-- The object whose CFG lies at `a`, with its fixed field if it has one (R459, R461). -/
def cfgObj? (a : Nat) : Option (XObj × Option Fld) :=
  if Nat.ble 0x60118000 a && Nat.blt a 0x60118200 then
    let n := (a - 0x60118000) / 4
    some (mbx n, if n = 124 || n = 125 then some XCH_MBX_CFG_RCV else if n = 126 || n = 127 then some XCH_MBX_CFG_SND else none)
  else if Nat.ble 0x60118600 a && Nat.blt a 0x60118700 then
    let n := (a - 0x60118600) / 4
    some (lvs n, if n = 63 then some XCH_MBX_CFG_SND else none)
  else none

/-- A read in the common area. -/
def commonRead (i : Init) (events : Word) (a : Nat) (s : State) : State :=
  if !commonOk i then s.answer .busError
  else
    match cfgObj? a with
    | some (_, some f) => s.answerWord (f.put (s.reg a) 2)
    | _ => s.plainRead events a

/-- A write in the common area: CFG while the object is empty (R10); a fixed field ignores it. -/
def commonWrite (i : Init) (a : Nat) (v : Word) (s : State) : State :=
  if !commonOk i then s.answer .busError
  else
    match cfgObj? a with
    | some (o, f) =>
      let v := match f with
        | some f => f.put v (s.fld a f)
        | none => v
      s.plainWrite (!s.full o) a v
    | none =>
      if a = XCH_SEM_FREL then semForceRelease i (bitsOf v.toNat 0 6) s
      else if a = XCH_HOSTRST && v.getLsbD 0 then hostEpochBump i s
      else s.plainWrite true a v

/-- A read in the XCH block. -/
def xchRead (i : Init) (events : Word) (a : Nat) (s : State) : State :=
  if a < 0x60112000 then pageRead i ((a - 0x60100000) / 0x800) ((a - 0x60100000) % 0x800) s
  else if a < 0x60118000 then s.answerWord 0
  else commonRead i events a s

/-- A write in the XCH block. -/
def xchWrite (i : Init) (a : Nat) (v : Word) (s : State) : State :=
  if a < 0x60112000 then pageWrite i ((a - 0x60100000) / 0x800) ((a - 0x60100000) % 0x800) v s
  else if a < 0x60118000 then s.answer .ok
  else commonWrite i a v s

/-! ### Other blocks -/

/-- A changed ACKDB or RSPDB: the Keep rewrites the ring bits of MBX0 and MBX1 while they are empty (R459). -/
def State.plmRings (s : State) : State :=
  let s := if s.full (mbx 0) then s else s.setFld (XCH_MBX_CFG 0) XCH_MBX_CFG_ERBIT (s.fld PLM_CFG PLM_CFG_ACKDB)
  if s.full (mbx 1) then s else s.setFld (XCH_MBX_CFG 1) XCH_MBX_CFG_PRBIT (s.fld PLM_CFG PLM_CFG_RSPDB)

/-- A write in the PLM block. -/
def plmBlockWrite (i : Init) (a : Nat) (v : Word) (s : State) : State :=
  let t := plmWrite i a v s
  if a = PLM_CFG && ((t.reg a ^^^ s.reg a) &&& 0x3FF) != 0 then t.plmRings else t

/-! ### Registers by block (R30) -/

/-- A register read, 32 bits at an aligned address: the block of R30 answers it; `events` are RC events of the same cycle. -/
def regRead (i : Init) (events : Word) (a : Nat) (s : State) : State :=
  if s.regShut i a then s.answer .busError
  else
    match a / 0x10000 with
    | 0x6000 => sysRead events a s
    | 0x6001 => vigRead i events a s
    | 0x6002 | 0x6003 => plmRead a s
    | 0x6004 | 0x6005 => almRead i.rpn events a s
    | 0x6006 | 0x6007 => carRead i.rpn events a s
    | 0x6008 | 0x6009 | 0x600A | 0x600B => ethRead i i.rpn events a s
    | 0x600C => ctbRead events a s
    | 0x600D => bfyRead events a s
    | 0x600E | 0x600F => canRead events a s
    | 0x6010 | 0x6011 => xchRead i events a s
    | 0x6012 | 0x6013 => bpbRead events a s
    | 0x6014 | 0x6015 => sgmRead events a s
    | 0x6016 | 0x6017 => memRead i events a s
    | 0x6018 | 0x6019 => cupRead a s
    | 0x601A | 0x601B => fldRead a s
    | _ => s.plainRead events a

/-- A register write, 32 bits at an aligned address; `stepFn` executes a STEP. -/
def regWrite (stepFn : Nat → State → State) (i : Init) (a : Nat) (v : Word) (s : State) : State :=
  if s.regShut i a then s.answer .busError
  else
    match a / 0x10000 with
    | 0x6000 => sysWrite stepFn i a v s
    | 0x6001 => vigWrite i a v s
    | 0x6002 | 0x6003 => plmBlockWrite i a v s
    | 0x6004 | 0x6005 => almWrite i a v s
    | 0x6006 | 0x6007 => carWrite a v s
    | 0x6008 | 0x6009 | 0x600A | 0x600B => ethWrite i a v s
    | 0x600C => ctbWrite a v s
    | 0x600D => bfyWrite a v s
    | 0x600E | 0x600F => canWrite a v s
    | 0x6010 | 0x6011 => xchWrite i a v s
    | 0x6012 | 0x6013 => bpbWrite i a v s
    | 0x6014 | 0x6015 => sgmWrite a v s
    | 0x6016 | 0x6017 => memWrite i a v s
    | 0x6018 | 0x6019 => cupWrite s
    | 0x601A | 0x601B => fldWrite i a v s
    | _ => if a = PWR_PD_CTL then pdCtlWrite i v s else s.plainWrite true a v

/-! ### A fabric access to any target (R465, R466) -/

/-- A register access in the form of a fabric access: 32 bits at an aligned address; the PCIe host also reads and writes 64 bits
of the MSI-X table and PBA (R12, R38). -/
def regAccess (stepFn : Nat → State → State) (i : Init) (op : Access) (s : State) : State :=
  let wide := i == .pcie && inMsix op.addr && op.addr % 8 == 0 && op.len == 8
  match op with
  | .read a n =>
    if sized a n then regRead i 0 a s
    else if wide then
      if s.regShut i a then s.answer .busError
      else s.answer (.data (toBytes (s.msixWord a).toNat 4 ++ toBytes (s.msixWord (a + 4)).toNat 4))
    else s.answer .busError
  | .write a d =>
    if sized a d.length then regWrite stepFn i a (word (ofBytes d)) s
    else if wide then
      if s.regShut i a then s.answer .busError
      else ((s.msixWrite a (word (ofBytes (d.take 4)))).msixWrite (a + 4) (word (ofBytes (d.drop 4)))).answer .ok
    else s.answer .busError

/-- A STEP met inside another access is applied as a delayed action (CLKEN_DELAYED_ACTION carries it out). -/
def lateStep (e : Nat) (s : State) : State := s.updEng e fun x => { x with starting := true, delayed := some 0x10 }

/-- The completion of a command on the state, and the state with the completion field as it was. -/
def State.detach (s t : State) : Resp × State := (t.resp, { t with resp := s.resp })

/-- A fabric access at its target (R29, R33, R466). `waiting`: the target holds it back; `idle`: the bridge holds it and delivers its
completion. With `wait` a target that holds it back is waited for. -/
def accessWith (stepFn : Nat → State → State) (wait : Bool) (i : Init) (op : Access) (s : State) : Resp × State :=
  if s.boot.held || s.hostClosed i op.addr then (.busError, s)
  else
    match s.region op.addr with
    | .regs => s.detach (regAccess stepFn i op s)
    | .prog =>
      match op with
      | .read a n => progRead i a n s
      | .write a d => progWrite i a d s
    | .outbound =>
      let (r, t) := outboundReqWith wait i op (s.answer .idle)
      (if r = .idle then t.resp else r, { t with resp := s.resp })
    | _ => if wait then s.memAccessWait i op else s.memAccess i op

/-- A fabric access presented once. -/
def busAccess (i : Init) (op : Access) (s : State) : Resp × State := accessWith lateStep false i op s

/-- A fabric access carried to its end. -/
def busAccessWait (i : Init) (op : Access) (s : State) : Resp × State := accessWith lateStep true i op s

end Sys2Proof.Machine
end

