-- ==== Sys2Proof/Machine/Flags.lean ====
section
/-! DEFINITION. Flags and arithmetic of the Yofiaz instruction set (R53-R60, R114-R119, R129, R140, R141). -/

set_option autoImplicit false

namespace Sys2Proof.Machine

open Sys2Proof

/-! ### PSW (R56) -/

/-- The word with bit `k` set to `b`. -/
def putBit (w : Word) (k : Nat) (b : Bool) : Word := if b then w ||| word (2 ^ k) else w &&& ~~~(word (2 ^ k))

/-- The flags and modes of a PSW. -/
def fC (p : Word) : Bool := p.getLsbD 0
def fV (p : Word) : Bool := p.getLsbD 1
def fN (p : Word) : Bool := p.getLsbD 2
def fZ (p : Word) : Bool := p.getLsbD 3
def fSat (p : Word) : Bool := p.getLsbD 8
def fTrapDz (p : Word) : Bool := p.getLsbD 9

/-- Sets C, V, N, Z, DZ. -/
def setC (p : Word) (b : Bool) : Word := putBit p 0 b
def setV (p : Word) (b : Bool) : Word := putBit p 1 b
def setN (p : Word) (b : Bool) : Word := putBit p 2 b
def setZ (p : Word) (b : Bool) : Word := putBit p 3 b
def setDz (p : Word) (b : Bool) : Word := putBit p 4 b

/-- Sets the sticky saturation bit S where a clamp occurred (R56). -/
def stickS (p : Word) (clamped : Bool) : Word := if clamped then p ||| 0x20 else p

/-- setzn of R108. -/
def setZN (p r : Word) : Word := setN (setZ p (r == 0)) (r.getLsbD 31)

/-- Flags of logic operations (R58): Z, N from the result, C and V cleared. -/
def logicFlags (p r : Word) : Word := setV (setC (setZN p r) false) false

/-- Whether `x` lies in the range of a 32-bit signed integer (R108). -/
def in32 (x : Int) : Bool := decide (-2147483648 ≤ x) && decide (x ≤ 2147483647)

/-- The clamp of a signed overflow. -/
def clamp32 (x : Int) : Word := if 0 < x then 0x7FFFFFFF else 0x80000000

/-- ADD, SUB and NEG (R115) under PSW `p`: the result and the new PSW. -/
def addSub (sub : Bool) (p a b : Word) : Word × Word :=
  let c := if sub then decide (a.toNat < b.toNat) else decide (2 ^ 32 ≤ a.toNat + b.toNat)
  let x := if sub then a.toInt - b.toInt else a.toInt + b.toInt
  let v := !in32 x
  let r := if v && fSat p then clamp32 x else BitVec.ofInt 32 x
  (r, setZN (stickS (setV (setC p c) v) (v && fSat p)) r)

/-- The flags of a comparison (R115): those of SUB with SAT taken as 0; S does not change. -/
def cmpFlags (p a b : Word) : Word :=
  setZN (setV (setC p (decide (a.toNat < b.toNat))) (!in32 (a.toInt - b.toInt))) (a - b)

/-- MUL (R116). -/
def mulOp (p a b : Word) : Word × Word :=
  let x := a.toInt * b.toInt
  let v := !in32 x
  let r := if v && fSat p then clamp32 x else BitVec.ofInt 32 x
  (r, setZN (stickS (setV (setC p false) v) (v && fSat p)) r)

/-- DIV (R59, R117): quotient, remainder, PSW. -/
def divOp (p a b : Word) : Word × Word × Word :=
  if b = 0 then
    let q : Word := if a.getLsbD 31 then 0x80000000 else 0x7FFFFFFF
    (q, a, setZN (setDz (setV (setC p false) false) true) q)
  else if a = 0x80000000 && b = 0xFFFFFFFF then
    let q : Word := if fSat p then 0x7FFFFFFF else 0x80000000
    (q, 0, setZN (stickS (setDz (setV (setC p false) true) false) (fSat p)) q)
  else
    let q := BitVec.ofInt 32 (a.toInt.tdiv b.toInt)
    (q, BitVec.ofInt 32 (a.toInt.tmod b.toInt), setZN (setDz (setV (setC p false) false) false) q)

/-- DIVU (R59, R117): quotient, remainder, PSW. -/
def divuOp (p a b : Word) : Word × Word × Word :=
  let q := if b = 0 then 0xFFFFFFFF else word (a.toNat / b.toNat)
  let r := if b = 0 then a else word (a.toNat % b.toNat)
  (q, r, setZN (setDz (setV (setC p false) false) (b == 0)) q)

/-- Flags of a shift or rotate: Z and N from the result, the carry `c`, V cleared (R60). -/
def shiftFlags (p r : Word) (c : Bool) : Word := setV (setC (setZN p r) c) false

/-- Shift left by `k` (R59, R118). -/
def shlOp (p a : Word) (k : Nat) : Word × Word :=
  let r := a <<< k
  let c := if k = 0 then false else if k ≤ 32 then a.getLsbD (32 - k) else false
  (r, shiftFlags p r c)

/-- Logical shift right by `k` (R59, R118). -/
def shrOp (p a : Word) (k : Nat) : Word × Word :=
  let r := a >>> k
  let c := if k = 0 then false else a.getLsbD (k - 1)
  (r, shiftFlags p r c)

/-- Arithmetic shift right by `k` (R59, R118). -/
def sarOp (p a : Word) (k : Nat) : Word × Word :=
  let r := a.sshiftRight k
  let c := if k = 0 then false else if 32 ≤ k then a.getLsbD 31 else a.getLsbD (k - 1)
  (r, shiftFlags p r c)

/-- Rotate left by `k` mod 32 (R59): with count 0, C is cleared; with another multiple of 32, C follows the result. -/
def rolOp (p a : Word) (k : Nat) : Word × Word :=
  let r := a.rotateLeft (k % 32)
  (r, shiftFlags p r (if k = 0 then false else r.getLsbD 0))

/-- Rotate right by `k` mod 32 (R59). -/
def rorOp (p a : Word) (k : Nat) : Word × Word :=
  let r := a.rotateRight (k % 32)
  (r, shiftFlags p r (if k = 0 then false else r.getLsbD 31))

/-! ### Accumulators (R51-R55) -/

/-- MAC (R53): the new accumulator and PSW. -/
def macOp (p : Word) (ac : Acc) (a b : Word) : Acc × Word :=
  let x := ac.toInt + (a.truncate 16 : BitVec 16).toInt * (b.truncate 16 : BitVec 16).toInt
  let v := !(decide (-140737488355328 ≤ x) && decide (x ≤ 140737488355327))
  let r : Acc := if v && fSat p then (if 0 < x then 0x7FFFFFFFFFFF else 0x800000000000) else BitVec.ofInt 48 x
  (r, stickS (setV p v) (v && fSat p))

/-- CSUM (R127). -/
def csumOp (ac : Acc) (a : Word) : Acc := BitVec.ofNat 48 (ac.toNat + a.toNat % 65536 + a.toNat / 65536)

/-- One end-around addition of the fold (R54). -/
def foldOnce (n : Nat) : Nat := n % 65536 + n / 65536

/-- The checksum fold (R54): three additions end every carry of a 48-bit value. -/
def foldAcc (ac : Acc) : Word := word (foldOnce (foldOnce (foldOnce ac.toNat)))

/-- The saturating read (R51): result and whether it was clamped. -/
def satRead (ac : Acc) : Word × Bool :=
  if in32 ac.toInt then (ac.truncate 32, false) else (if 0 < ac.toInt then 0x7FFFFFFF else 0x80000000, true)

/-- One byte of CRCS (R141) with polynomial `p`. -/
def crcsByte (p : Word) (rin inv : Bool) (ac : Word) (b : Byte) : Word :=
  let b := if rin then b else revByte b
  if inv then ~~~(crcByte p (~~~ac) b) else crcByte p ac b

/-- The conditions of R131. -/
def condHolds (c : Cond) (p : Word) : Bool :=
  match c with
  | .bra => true
  | .beq => fZ p
  | .bne => !fZ p
  | .bcs => fC p
  | .bcc => !fC p
  | .bmi => fN p
  | .bpl => !fN p
  | .bvs => fV p
  | .bvc => !fV p
  | .bhi => !fC p && !fZ p
  | .bls => fC p || fZ p
  | .bge => fN p == fV p
  | .blt => fN p != fV p
  | .bgt => !fZ p && fN p == fV p
  | .ble => fZ p || fN p != fV p

end Sys2Proof.Machine
end

