-- ==== Sys2Proof/Machine/Operands.lean ====
section
/-! DEFINITION. Operand forms of the Yofiaz instruction set: EXT values (R73), sizes and modes (R68), the encodings of R113-R147
and the decoder that STEP uses. -/

set_option autoImplicit false

namespace Sys2Proof.Machine

open Sys2Proof

/-! ### Operand values -/

/-- The value formed of EXT words, oldest first, above an own field of `width` bits (R73): sign-extended from its top bit, or
its low 32 bits where it is longer. -/
def extVal (x : List (BitVec 11)) (width own : Nat) : Word :=
  let n := x.foldl (fun acc v => acc * 2048 + v.toNat) 0 * 2 ^ width + own % 2 ^ width
  let w := 11 * x.length + width
  if w ≤ 32 then BitVec.ofInt 32 (signedOf (n % 2 ^ w) w) else word n

/-- Bytes of an element or access (R68). -/
def sizeBytes (z : Size) : Nat :=
  match z with
  | .b => 1
  | .h => 2
  | .w => 4

/-- The size code (R68). -/
def sizeCode (z : Size) : Nat :=
  match z with
  | .b => 0
  | .h => 1
  | .w => 2

/-- The mode code (R68). -/
def modeCode (m : Mode) : Nat :=
  match m with
  | .ind => 0
  | .postInc => 1
  | .preDec => 2
  | .disp _ _ => 3

/-- Class and register bits of a source (R114). -/
def srcCode (x : Src) : Nat :=
  match x with
  | .d n => n
  | .a n => 8 + n

/-! ### Encodings -/

/-- An instruction as it stands in the program store: its EXT words, its word, its extension word (R66). -/
structure Code where
  x : List (BitVec 11)
  w : PWord
  own : Option PWord
deriving DecidableEq, Repr

/-- The number of words of an instruction. -/
def Code.len (c : Code) : Nat := c.x.length + 1 + bit c.own.isSome

/-- An EXT word (R148). -/
def extWord (v : BitVec 11) : PWord := BitVec.ofNat 14 (0x3800 + v.toNat)

/-- The words of an instruction, first to last. -/
def Code.words (c : Code) : List PWord := c.x.map extWord ++ [c.w] ++ c.own.toList

/-- A one-word instruction. -/
def Code.one (n : Nat) : Code := ⟨[], BitVec.ofNat 14 n, none⟩

/-- Register ALU format (R114). -/
def cAlu (op : Nat) (d : Fin 8) (src : Src) : Code := .one (op * 128 + d * 16 + srcCode src)

/-- Shift and bit format (R119). -/
def cShift (op : Nat) (d : Fin 8) (k : Fin 32) : Code := .one (0x0800 + op * 256 + d * 32 + k)

/-- Short immediate format (R120). -/
def cImm (op : Nat) (d : Fin 8) (x : List (BitVec 11)) (imm : BitVec 6) : Code :=
  ⟨x, BitVec.ofNat 14 (0x1000 + op * 512 + d * 64 + imm.toNat), none⟩

/-- Memory format (R121). -/
def cMem (st : Nat) (z : Size) (d a : Fin 8) (m : Mode) : Code :=
  let w : PWord := BitVec.ofNat 14 (0x1800 + sizeCode z * 512 + st * 256 + d * 32 + a * 4 + modeCode m)
  match m with
  | .disp x own => ⟨x, w, some own⟩
  | _ => ⟨[], w, none⟩

/-- Address format with a register (R124). -/
def cAdr (op : Nat) (a : Fin 8) (y : Nat) : Code := .one (0x2000 + op * 128 + a * 16 + y)

/-- Address format with a register or immediate source: `op` for the register form, `opi` for the immediate form. -/
def cAsrc (op opi : Nat) (a : Fin 8) (src : ASrc) : Code :=
  match src with
  | .d n => cAdr op a n
  | .a n => cAdr op a (8 + n)
  | .imm x own => ⟨x, BitVec.ofNat 14 (0x2000 + opi * 128 + a * 16), some own⟩

/-- Branch condition code (R131). -/
def condCode (c : Cond) : Nat :=
  match c with
  | .bra => 0
  | .beq => 1
  | .bne => 2
  | .bcs => 3
  | .bcc => 4
  | .bmi => 5
  | .bpl => 6
  | .bvs => 7
  | .bvc => 8
  | .bhi => 9
  | .bls => 10
  | .bge => 11
  | .blt => 12
  | .bgt => 13
  | .ble => 14

/-- ACR mode code (R129). -/
def acrCode (m : AcrMode) : Nat :=
  match m with
  | .t => 0
  | .s => 1
  | .g => 2
  | .f => 3

/-- Branch format (R131). -/
def cBranch (cond : Nat) (x : List (BitVec 11)) (disp : BitVec 7) : Code :=
  ⟨x, BitVec.ofNat 14 (0x2800 + cond * 128 + disp.toNat), none⟩

/-- Control group 000 (R134). -/
def cCtl (sub r : Nat) : Code := .one (0x3000 + sub * 8 + r)

/-- String instructions (R139). -/
def strCode (o : StrOp) : PWord :=
  match o with
  | .movs z v => BitVec.ofNat 14 (0x3200 + sizeCode z * 16 + bit v * 8)
  | .cmps z v => BitVec.ofNat 14 (0x3240 + sizeCode z * 16 + bit v * 8)
  | .scas z v => BitVec.ofNat 14 (0x3280 + sizeCode z * 16 + bit v * 8)
  | .stos z v => BitVec.ofNat 14 (0x32C0 + sizeCode z * 16 + bit v * 8)
  | .lods d z v => BitVec.ofNat 14 (0x3300 + d * 16 + sizeCode z * 4 + bit v * 2)
  | .crcs n z v r i => BitVec.ofNat 14 (0x3380 + n * 32 + sizeCode z * 8 + bit v * 4 + bit r * 2 + bit i)

/-- Group 100 and 101 (R143, R144). -/
def cRot (r : Nat) (d s : Fin 8) : Code := .one (0x3400 + r * 128 + d * 16 + s * 2)
def cStream (x : Nat) (d a : Fin 8) : Code := .one (0x3500 + x * 128 + d * 16 + a * 2)

/-- DO (R146): the register form takes a body of 1-32 words, the immediate form of 1-16. -/
def cDo (c : DoCount) (len : Fin 32) : Code :=
  match c with
  | .reg d => .one (0x3600 + d * 32 + len)
  | .imm n => .one (0x3700 + n * 16 + len % 16)

/-! ### Decoding (R113) -/

/-- A register number of three bits. -/
def reg3 (n : Nat) : Fin 8 := Fin.ofNat 8 n

/-- The size of a size field; 11 is reserved. -/
def size? (n : Nat) : Option Size :=
  match n with
  | 0 => some .b
  | 1 => some .h
  | 2 => some .w
  | _ => none

/-- The source of the register ALU format. -/
def srcOf (n : Nat) : Src := if n < 8 then .d (reg3 n) else .a (reg3 n)

/-- The 15 conditions. -/
def cond? (n : Nat) : Option Cond :=
  [Cond.bra, .beq, .bne, .bcs, .bcc, .bmi, .bpl, .bvs, .bvc, .bhi, .bls, .bge, .blt, .bgt, .ble][n]?

/-- A string instruction of groups 010 and 011; LODS naming D7 and a size of 11 are reserved (R77, R139). -/
def strOp? (w : PWord) : Option StrOp :=
  let n := w.toNat
  let g := n / 256
  let low := n % 256
  if g = 0x32 then
    match size? (low / 16 % 4) with
    | none => none
    | some z =>
      if low % 8 != 0 then none
      else
        let v := bitsOf low 3 1 == 1
        match low / 64 with
        | 0 => some (.movs z v)
        | 1 => some (.cmps z v)
        | 2 => some (.scas z v)
        | _ => some (.stos z v)
  else if g = 0x33 then
    if low < 0x80 then
      match size? (low / 4 % 4) with
      | none => none
      | some z => if low % 2 != 0 || low / 16 = 7 then none else some (.lods (reg3 (low / 16)) z (bitsOf low 1 1 == 1))
    else
      match size? (low / 8 % 4) with
      | none => none
      | some z => some (.crcs (Fin.ofNat 4 (low / 32)) z (bitsOf low 2 1 == 1) (bitsOf low 1 1 == 1) (bitsOf low 0 1 == 1))
  else none

/-- The command of a string instruction without prefix. -/
def strInstr (e : Eng) (o : StrOp) : Instr :=
  match o with
  | .movs z v => .movs e z v
  | .cmps z v => .cmps e z v
  | .scas z v => .scas e z v
  | .stos z v => .stos e z v
  | .lods d z v => .lods e d z v
  | .crcs n z v r i => .crcs e n z v r i

/-- What follows a repeat prefix (R79). -/
def repNext (w : PWord) : RepNext :=
  match strOp? w with
  | some o => .str o
  | none => if w.toNat / 256 = 0x32 || w.toNat / 256 = 0x33 then .reservedString w else .other

/-- Register ALU operations in code order (R114). -/
def aluInstr (e : Eng) (op : Nat) (d : Fin 8) (src : Src) : Instr :=
  match op with
  | 0 => .mov e d src
  | 1 => .add e d src
  | 2 => .sub e d src
  | 3 => .cmp e d src
  | 4 => .and e d src
  | 5 => .or e d src
  | 6 => .xor e d src
  | 7 => .neg e d src
  | 8 => .extb e d src
  | 9 => .exth e d src
  | 10 => .mul e d src
  | 11 => .div e d src
  | 12 => .divu e d src
  | 13 => .shlv e d src
  | 14 => .shrv e d src
  | _ => .sarv e d src

/-- Shift and bit operations in code order (R119). -/
def shiftInstr (e : Eng) (op : Nat) (d : Fin 8) (k : Fin 32) : Instr :=
  match op with
  | 0 => .shl e d k
  | 1 => .shr e d k
  | 2 => .sar e d k
  | 3 => .rol e d k
  | 4 => .ror e d k
  | 5 => .bset e d k
  | 6 => .bclr e d k
  | _ => .btst e d k

/-- The address/accumulator format (R124-R130); none where the word is reserved. -/
def adrInstr (e : Eng) (x : List (BitVec 11)) (n : Nat) (own : PWord) : Option Instr :=
  let op := n / 128 % 16
  let f := reg3 (n / 16 % 8)
  let y := n % 16
  let s := reg3 y
  if op = 4 ∨ op = 5 ∨ op = 6 ∨ op = 7 then
    if y != 0 then none
    else some (match op with
      | 4 => .mova e f (.imm x own)
      | 5 => .adda e f (.imm x own)
      | 6 => .cmpa e f (.imm x own)
      | _ => .ldi e f x own)
  else if !x.isEmpty then none
  else
    let asrc : ASrc := if y < 8 then .d s else .a s
    match op with
    | 0 => some (.mova e f asrc)
    | 1 => some (.adda e f asrc)
    | 2 => some (.suba e f (srcOf y))
    | 3 => some (.cmpa e f asrc)
    | 8 => some (.mac e (Fin.ofNat 4 (y % 2)) f (reg3 (y / 2)))
    | 9 => some (.mac e (Fin.ofNat 4 (2 + y % 2)) f (reg3 (y / 2)))
    | 10 => if f.val < 4 && y < 8 then some (.csum e (Fin.ofNat 4 f) s) else none
    | 11 => if y < 8 then some (.acw e (4 ≤ f.val) (Fin.ofNat 4 f) s) else none
    | 12 => some (.acr e f ([AcrMode.t, .s, .g, .f].getD (y / 4) .t) (Fin.ofNat 4 y))
    | 13 => some (.mtc e (Fin.ofNat 16 y) f)
    | 14 => some (.mfc e f (Fin.ofNat 16 y))
    | _ => none

/-- The control format without prefixes and EXT words (R134-R147); none where the word is reserved. -/
def ctlInstr (e : Eng) (n : Nat) : Option Instr :=
  let r := reg3 n
  match n / 256 % 8 with
  | 0 =>
    match n / 8 % 32 with
    | 0 => if n % 8 = 0 then some (.nop e) else none
    | 1 => if n % 8 = 0 then some (.rts e) else none
    | 2 => if n % 8 = 0 then some (.rete e) else none
    | 3 => if n % 8 = 0 then some (.fence e) else none
    | 4 => if n % 8 = 0 then some (.brk e) else none
    | 5 => if n % 8 = 0 then some (.leave e) else none
    | 6 => some (.jmp e r)
    | 7 => some (.jsr e r)
    | 8 => some (.trap e r)
    | 12 => some (.pfs e r)
    | _ => none
  | 1 => some (.wait e (BitVec.ofNat 8 n))
  | 4 =>
    if n % 2 = 0 then
      some (if n / 128 % 2 = 0 then .rolv e (reg3 (n / 16)) (reg3 (n / 2)) else .rorv e (reg3 (n / 16)) (reg3 (n / 2)))
    else none
  | 5 =>
    if n % 2 = 0 then
      some (if n / 128 % 2 = 0 then .srx e (reg3 (n / 16)) (reg3 (n / 2)) else .stx e (reg3 (n / 16)) (reg3 (n / 2)))
    else none
  | 6 => some (.doLoop e (.reg (reg3 (n / 32))) (Fin.ofNat 32 n))
  | 7 => some (.doLoop e (.imm (Fin.ofNat 16 (n / 16))) (Fin.ofNat 32 (n % 16)))
  | _ => (strOp? (BitVec.ofNat 14 n)).map (strInstr e)

/-- One instruction word after `x` EXT words, `own` the word after it; none where it is reserved, or no consumer (R74). -/
def decodeMain (e : Eng) (x : List (BitVec 11)) (w own : PWord) : Option Instr :=
  let n := w.toNat
  match n / 2048 with
  | 0 => if x.isEmpty then some (aluInstr e (n / 128 % 16) (reg3 (n / 16)) (srcOf (n % 16))) else none
  | 1 => if x.isEmpty then some (shiftInstr e (n / 256 % 8) (reg3 (n / 32)) (Fin.ofNat 32 n)) else none
  | 2 =>
    let d := reg3 (n / 64)
    let i : BitVec 6 := BitVec.ofNat 6 n
    some (match n / 512 % 4 with
      | 0 => .addi e d x i
      | 1 => .cmpi e d x i
      | 2 => .andi e d x i
      | _ => .movi e d x i)
  | 3 =>
    match size? (n / 512 % 4) with
    | none => none
    | some z =>
      if !x.isEmpty && n % 4 != 3 then none
      else
        let m : Mode := match n % 4 with
          | 0 => .ind
          | 1 => .postInc
          | 2 => .preDec
          | _ => .disp x own
        some (if n / 256 % 2 = 0 then .ld e z (reg3 (n / 32)) (reg3 (n / 4)) m else .st e z (reg3 (n / 32)) (reg3 (n / 4)) m)
  | 4 => adrInstr e x n own
  | 5 =>
    match cond? (n / 128 % 16) with
    | some c => some (.branch e c x (BitVec.ofNat 7 n))
    | none => some (.bsr e x (BitVec.ofNat 7 n))
  | 6 => if x.isEmpty then ctlInstr e n else none
  | _ => none

/-- The EXT value of a word, if it is an EXT word. -/
def ext? (w : PWord) : Option (BitVec 11) := if w.toNat / 2048 = 7 then some (w.truncate 11) else none

/-- The instruction that processor `e` finds in the words `f 0`, `f 1`, … from its PC on: total, a reserved word or a broken EXT
chain as RESERVED_ENCODING (R67, R74). -/
def decodeAt (e : Eng) (f : Nat → PWord) : Instr :=
  match ext? (f 0) with
  | none =>
    if f 0 = 0x3048 then .rep e (repNext (f 1))
    else if f 0 = 0x3050 then .repe e (repNext (f 1))
    else if f 0 = 0x3058 then .repne e (repNext (f 1))
    else (decodeMain e [] (f 0) (f 1)).getD (.reservedEncoding e 0 (f 0))
  | some x0 =>
    match ext? (f 1) with
    | none => (decodeMain e [x0] (f 1) (f 2)).getD (.reservedEncoding e 1 (f 1))
    | some x1 =>
      match ext? (f 2) with
      | some _ => .reservedEncoding e 2 (f 2)
      | none => (decodeMain e [x0, x1] (f 2) (f 3)).getD (.reservedEncoding e 2 (f 2))

/-- The words of an instruction command; none for the other commands. -/
def instrCode? (i : Instr) : Option (Eng × Code) :=
  match i with
  | .mov e d r => some (e, cAlu 0 d r)
  | .add e d r => some (e, cAlu 1 d r)
  | .sub e d r => some (e, cAlu 2 d r)
  | .cmp e d r => some (e, cAlu 3 d r)
  | .and e d r => some (e, cAlu 4 d r)
  | .or e d r => some (e, cAlu 5 d r)
  | .xor e d r => some (e, cAlu 6 d r)
  | .neg e d r => some (e, cAlu 7 d r)
  | .extb e d r => some (e, cAlu 8 d r)
  | .exth e d r => some (e, cAlu 9 d r)
  | .mul e d r => some (e, cAlu 10 d r)
  | .div e d r => some (e, cAlu 11 d r)
  | .divu e d r => some (e, cAlu 12 d r)
  | .shlv e d r => some (e, cAlu 13 d r)
  | .shrv e d r => some (e, cAlu 14 d r)
  | .sarv e d r => some (e, cAlu 15 d r)
  | .shl e d k => some (e, cShift 0 d k)
  | .shr e d k => some (e, cShift 1 d k)
  | .sar e d k => some (e, cShift 2 d k)
  | .rol e d k => some (e, cShift 3 d k)
  | .ror e d k => some (e, cShift 4 d k)
  | .bset e d k => some (e, cShift 5 d k)
  | .bclr e d k => some (e, cShift 6 d k)
  | .btst e d k => some (e, cShift 7 d k)
  | .addi e d x v => some (e, cImm 0 d x v)
  | .cmpi e d x v => some (e, cImm 1 d x v)
  | .andi e d x v => some (e, cImm 2 d x v)
  | .movi e d x v => some (e, cImm 3 d x v)
  | .ld e z d a m => some (e, cMem 0 z d a m)
  | .st e z d a m => some (e, cMem 1 z d a m)
  | .mova e a r => some (e, cAsrc 0 4 a r)
  | .adda e a r => some (e, cAsrc 1 5 a r)
  | .suba e a r => some (e, cAdr 2 a (srcCode r))
  | .cmpa e a r => some (e, cAsrc 3 6 a r)
  | .ldi e d x own => some (e, cAsrc 0 7 d (.imm x own))
  | .mac e n p q => some (e, cAdr (8 + n / 2) p (q * 2 + n % 2))
  | .csum e n p => some (e, cAdr 10 (reg3 n) p)
  | .acw e g n p => some (e, cAdr 11 (reg3 (4 * bit g + n)) p)
  | .acr e d m n => some (e, cAdr 12 d (acrCode m * 4 + n))
  | .mtc e y x => some (e, cAdr 13 x y)
  | .mfc e x y => some (e, cAdr 14 x y)
  | .branch e c x v => some (e, cBranch (condCode c) x v)
  | .bsr e x v => some (e, cBranch 15 x v)
  | .nop e => some (e, cCtl 0 0)
  | .rts e => some (e, cCtl 1 0)
  | .rete e => some (e, cCtl 2 0)
  | .fence e => some (e, cCtl 3 0)
  | .brk e => some (e, cCtl 4 0)
  | .leave e => some (e, cCtl 5 0)
  | .jmp e a => some (e, cCtl 6 a)
  | .jsr e a => some (e, cCtl 7 a)
  | .trap e n => some (e, cCtl 8 n)
  | .pfs e n => some (e, cCtl 12 n)
  | .wait e m => some (e, .one (0x3100 + m.toNat))
  | .movs e z v => some (e, ⟨[], strCode (StrOp.movs z v), none⟩)
  | .cmps e z v => some (e, ⟨[], strCode (StrOp.cmps z v), none⟩)
  | .scas e z v => some (e, ⟨[], strCode (StrOp.scas z v), none⟩)
  | .stos e z v => some (e, ⟨[], strCode (StrOp.stos z v), none⟩)
  | .lods e d z v => some (e, ⟨[], strCode (StrOp.lods d z v), none⟩)
  | .crcs e n z v r i => some (e, ⟨[], strCode (StrOp.crcs n z v r i), none⟩)
  | .rolv e d x => some (e, cRot 0 d x)
  | .rorv e d x => some (e, cRot 1 d x)
  | .srx e d a => some (e, cStream 0 d a)
  | .stx e d a => some (e, cStream 1 d a)
  | .doLoop e c n => some (e, cDo c n)
  | _ => none

end Sys2Proof.Machine
end

