-- ==== Sys2Proof/Machine/Processor.lean ====
section
/-! DEFINITION. What the Yofiaz instructions share: issue, data accesses with the memory protection unit, completion with the
loop-end test, exception entry, and posted stores (R70-R106).
Choices of the model: log entries 3, 7, 9, 10, 14, 85, 92, 108. -/

set_option autoImplicit false

namespace Sys2Proof.Machine

open Sys2Proof

/-! ### Initiator, tags, protection -/

/-- The initiator behind processor `e`. -/
def eInit (e : Nat) : Init := if h : e < 32 then .engine ⟨e, h⟩ else .keep

/-- The requester port number of processor `e`. -/
def eRpn (e : Nat) : Nat := min e 32

/-- Transactions that processor `e` may have outstanding (R21). -/
def tags (e : Nat) : Nat := if e < 32 then 4 else 10

/-- Whether processor `e` has a tag free. -/
def State.tagFree (s : State) (e : Nat) : Bool := isSafe e || Nat.blt (s.outCount (eRpn e)) (tags e)

/-- Whether region `n` of engine `e`'s MPU is enabled and contains address `a` (R103, R106). -/
def State.mpuIn (s : State) (e a n : Nat) : Bool :=
  let at' := s.reg (SYS_E_MPU_ATTR e n)
  let k := 2 ^ SYS_E_MPU_ATTR_SIZE.get at'
  at'.getLsbD 0 && Nat.ble 5 (SYS_E_MPU_ATTR_SIZE.get at') && a / k == (s.reg (SYS_E_MPU_BASE e n)).toNat / k

/-- Whether address `a` lies in engine `e`'s own agent page of the XCH block (R107, R453). -/
def ownPage (e a : Nat) : Bool := Nat.ble 0x60100000 a && (a - 0x60100000) / 0x800 == 4 + e

/-- MPU_CHECK (R106): the highest-numbered enabled region that contains the address decides. -/
def State.mpuOk (s : State) (e a : Nat) (write : Bool) : Bool :=
  if Nat.ble 32 e || !s.flag (SYS_E_MPU_CTL e) SYS_E_MPU_CTL_EN || ownPage e a then true
  else
    match [7, 6, 5, 4, 3, 2, 1, 0].find? (s.mpuIn e a) with
    | none => false
    | some n => (s.reg (SYS_E_MPU_ATTR e n)).getLsbD (if write then 2 else 1)

/-- A report of a bus error caused by software (R92, R563): engines and the Keep. -/
def State.swErr (s : State) (e a : Nat) : State := if isSafe e then s else s.reportSw (eRpn e) a

/-- The alignment (4) or protection (5) exception that a data access raises, if any (R70, R106). -/
def State.dataFault (s : State) (e : Nat) (z : Size) (a : Nat) (write : Bool) : Option Nat :=
  if a % sizeBytes z != 0 then some 4 else if !s.mpuOk e a write then some 5 else none

/-! ### Accesses -/

/-- Whether a bus error of this access is one that software causes: no target, no right, a refused register or program-store
access, an outbound address without a window, or a target that is off (R31, R33, R92, R563). -/
def State.swCaused (s : State) (i : Init) (op : Access) : Bool :=
  let r := s.region op.addr
  !rights i r || r == .regs || r == .prog || r == .outbound || s.blocked op.addr op.isWrite == some .busError

/-- An access of an engine or the Keep at its target; a bus error caused by software is reported (R92, R563). With `wait` it is
carried to its end. -/
def State.reportedAccess (s : State) (stepFn : Nat → State → State) (wait : Bool) (i : Init) (op : Access) : Resp × State :=
  let sw := s.swCaused i op
  let (r, s) := accessWith stepFn wait i op s
  (r, if r == .busError && sw then s.reportSw i.rpn op.addr else s)

/-- Whether a transaction has completed: an access that the bridge holds has not. -/
def Txn.over (t : Txn) : Bool := t.done.isSome && t.done != some .idle

/-- Applies one outstanding transaction at its target, unless its target has applied it or the bridge holds it (R466). -/
def State.applyTxn (s : State) (stepFn : Nat → State → State) (wait : Bool) (k : Nat) : State :=
  match s.outst[k]? with
  | none => s
  | some t =>
    if t.done.isSome then s
    else
      match s.reportedAccess stepFn wait t.init t.op with
      | (.waiting, s) => s
      | (r, s) => { s with outst := s.outst.set k { t with done := some r } }

/-- Indices of the transactions of requester `r` to the 32-byte block of `a` that are issued and not applied. -/
def State.sameBlock (s : State) (r a : Nat) : List Nat :=
  (List.range s.outst.length).filter fun k =>
    match s.outst[k]? with
    | some t => t.rpn == r && t.op.addr / 32 == a / 32 && t.done.isNone
    | none => false

/-- A data access of processor `e` carried to its end, after its earlier accesses to the same block (R22). A read that the bridge
holds returns a free value: its data come with the far access. -/
def State.engAccess (s : State) (e : Nat) (op : Access) : Resp × State :=
  if isSafe e then cupAccess e op s
  else
    let s := (s.sameBlock (eRpn e) op.addr).foldl (fun (s : State) k => s.applyTxn lateStep true k) s
    match s.reportedAccess lateStep true (eInit e) op with
    | (.idle, s) =>
      if op.isWrite then (.ok, s)
      else
        let (w, s) := s.free
        (.data (toBytes w.toNat op.len), s)
    | x => x

/-- A bus error of a store is held; further ones merge into the first (R92). -/
def State.holdImprecise (s : State) (e a : Nat) : State :=
  s.updEng e fun x => { x with imprecise := some (x.imprecise.getD (word a)) }

/-- A store is posted (R72): it joins the outstanding transactions; on a Cupola core it is applied at once. -/
def State.post (s : State) (e a : Nat) (d : List Byte) : State :=
  if isSafe e then
    let (r, s) := cupAccess e (.write a d) s
    if r.good then s else s.holdImprecise e a
  else { s with outst := s.outst ++ [⟨eRpn e, eInit e, .write a d, none⟩] }

/-! ### Exceptions (R90-R98) -/

/-- A double fault (R98): the processor stops in DFAULT and holds its state; reported to Vigil. -/
def State.doubleFault (s : State) (e : Nat) : State :=
  let s := s.updEng e fun x => { x with st := .dfault, dflt := true, stall := .none, haltReq := false }
  if e < 32 then (s.report 4 (resId 1 e) 0 e).laneEngineGone e
  else if e = 32 then s.report 12 (resId 7 0) 0 32
  else coreFault e (s.report 4 (resId 8 (e - 33)) 0 0)

/-- The frame writes from address `a` (R95): false where one faults. -/
def State.pushFrame (s : State) (e a : Nat) : List Word → Bool × State
  | [] => (true, s)
  | w :: t =>
    if (s.dataFault e .w a true).isSome then (false, s.swErr e a)
    else
      let (r, s) := s.engAccess e (.write a (toBytes w.toNat 4))
      if r.good then State.pushFrame s e ((a + 4) % 2 ^ 32) t else (false, s)

/-- The four words of the exception frame (R95). -/
def State.frame (s : State) (e vec : Nat) (rpc : PWord) (faddr : Word) (iword : PWord) (nx : Nat) (rep imp : Bool) : List Word :=
  let x := s.eng e
  [word (rpc.toNat + vec * 2 ^ 16 + bit (x.evie.getLsbD 8) * 2 ^ 21 + bit rep * 2 ^ 22 + bit imp * 2 ^ 23 + x.depth * 2 ^ 24 +
      x.base * 2 ^ 26),
    pswRead e x, faddr, word (iword.toNat + nx * 2 ^ 14 + (s.evPending e).toNat * 2 ^ 16)]

/-- EXCEPTION_ENTRY (R95): A7 := A7 - 16, the frame is written, GIE := 0, LCTL.BASE := DEPTH, PC := vector word. A fault on the
way is a double fault. -/
def State.enter (s : State) (e vec : Nat) (rpc : PWord) (faddr : Word) (iword : PWord) (nx : Nat) (rep imp : Bool) : State :=
  let a := (s.eng e).a.getD 7 0 - 16
  let f := s.frame e vec rpc faddr iword nx rep imp
  let s := s.updEng e fun x => { x with a := x.a.setIfInBounds 7 a }
  match s.pushFrame e a.toNat f with
  | (false, s) => s.doubleFault e
  | (true, s) =>
    let s := s.updEng e fun x => { x with evie := x.evie &&& 0xFF, base := x.depth }
    match s.fetchWord e vec with
    | (true, s) => s.doubleFault e
    | (false, s) =>
      s.updEng e fun x => { x with
        pc := s.progWord e vec, lastVec := vec, excCnt := satAdd 16 x.excCnt 1, stall := .none, st := .running }

/-- A precise exception of the instruction `c` at the PC (R91): vector `vec`, data address `a`. -/
def State.raise (s : State) (e vec : Nat) (a : Word) (c : Code) : State :=
  s.enter e vec (s.eng e).pc a c.w c.x.length false false

/-- An alignment or protection fault at `a`: reported and raised (R563, R92). -/
def State.raiseData (s : State) (e vec a : Nat) (c : Code) : State := (s.swErr e a).raise e vec (word a) c

/-! ### Completion (R85) -/

/-- The loop-end test (R85) for an instruction whose last word lies at `last`; `fuel` bounds the levels. -/
def Engine.loopEnd (last : PWord) : Nat → Engine → Engine
  | 0, x => x
  | fuel + 1, x =>
    let n := x.depth - 1
    if x.base < x.depth && x.le.getD n 0 == last then
      if 1 < (x.lc.getD n 0).toNat then
        { x with lc := x.lc.setIfInBounds n (x.lc.getD n 0 - 1), pc := x.ls.getD n 0 }
      else Engine.loopEnd last fuel { x with lc := x.lc.setIfInBounds n 0, depth := n, pc := last + 1 }
    else x

/-- An instruction of `n` words at the PC completes (R46, R85). -/
def Engine.finish (x : Engine) (n : Nat) : Engine :=
  let last := x.pc + BitVec.ofNat 14 (n - 1)
  Engine.loopEnd last 3 { x with pc := last + 1 }

/-- Processor `e` completes an instruction of `n` words. -/
def State.finish (s : State) (e n : Nat) : State := s.updEng e fun x => x.finish n

/-- A trap (R91, R136): the instruction `c` completes, the loop-end test applies, and the entry follows. -/
def State.trapTo (s : State) (e vec : Nat) (c : Code) : State :=
  let s := s.finish e c.len
  s.enter e vec (s.eng e).pc 0 c.w c.x.length false false

/-! ### Issue -/

/-- The event interrupt due at a boundary (R94), EV7 highest. -/
def State.eventDue (s : State) (e : Nat) : Option Nat :=
  let x := s.eng e
  if x.evie.getLsbD 8 then [7, 6, 5, 4, 3, 2, 1, 0].find? fun n => x.evie.getLsbD n && (s.evPending e).getLsbD n else none

/-- Whether processor `e` issues its next instruction now: it runs, is not stalled, no halt is asked, and neither an imprecise
bus error nor an event interrupt comes first (R93, R163). -/
def State.ready (s : State) (e : Nat) : Bool :=
  let x := s.eng e
  x.st == .running && x.stall == .none && !x.haltReq && x.imprecise.isNone && (s.eventDue e).isNone

/-- The fetch of `n` words from the PC (R170): the index of the first uncorrectable one. -/
def State.fetch (s : State) (e pc : Nat) (k : Nat) : Nat → Option Nat × State
  | 0 => (none, s)
  | n + 1 =>
    match s.fetchWord e (pc + k) with
    | (true, s) => (some k, s)
    | (false, s) => State.fetch s e pc (k + 1) n

/-- The instruction `c` is fetched and executed by `body`. A third EXT word breaks the chain (R74); an uncorrectable fetch raises
vector 7 with the program word address (R170); the raw word is a free value. -/
def State.execute (s : State) (e : Nat) (c : Code) (body : State → State) : State :=
  let pc := (s.eng e).pc
  let s := s.updEng e fun x => { x with lastPc := x.pc }
  match s.fetch e pc.toNat 0 (if 2 < c.x.length then 3 else c.len) with
  | (some k, s) =>
    let (w, s) := s.free
    s.enter e 7 pc ((pc + BitVec.ofNat 14 k).zeroExtend 32) (w.truncate 14) (min k c.x.length) false false
  | (none, s) =>
    if 2 < c.x.length then s.enter e 1 pc 0 (extWord (c.x.getD 2 0)) 2 false false
    else body s

/-- The instruction `c` of processor `e` is issued if the processor is ready. -/
def State.issue (s : State) (e : Nat) (c : Code) (body : State → State) : State :=
  if s.ready e then s.execute e c body else s

/-! ### Register access -/

/-- D and A registers and accumulators of processor `e`. -/
def State.dreg (s : State) (e : Nat) (d : Fin 8) : Word := (s.eng e).d.get d
def State.areg (s : State) (e : Nat) (a : Fin 8) : Word := (s.eng e).a.get a
def State.accu (s : State) (e : Nat) (n : Fin 4) : Acc := (s.eng e).ac.get n

/-- The state with a register of processor `e` set. -/
def State.setD (s : State) (e : Nat) (d : Fin 8) (w : Word) : State := s.updEng e fun x => { x with d := x.d.set d w }
def State.setA (s : State) (e : Nat) (a : Fin 8) (w : Word) : State := s.updEng e fun x => { x with a := x.a.set a w }
def State.setAcc (s : State) (e : Nat) (n : Fin 4) (w : Acc) : State := s.updEng e fun x => { x with ac := x.ac.set n w }

/-- The PSW of processor `e`, and the state with it set. -/
def State.psw (s : State) (e : Nat) : Word := (s.eng e).psw
def State.setPsw (s : State) (e : Nat) (p : Word) : State := s.updEng e fun x => { x with psw := p }

/-- The value of a source. -/
def State.src (s : State) (e : Nat) (r : Src) : Word :=
  match r with
  | .d n => s.dreg e n
  | .a n => s.areg e n

/-- The value of an address-format source (R124). -/
def State.asrc (s : State) (e : Nat) (r : ASrc) : Word :=
  match r with
  | .d n => s.dreg e n
  | .a n => s.areg e n
  | .imm x own => extVal x 14 own.toNat

/-- The effective address of a memory-format access (R68). -/
def State.ea (s : State) (e : Nat) (z : Size) (a : Fin 8) (m : Mode) : Word :=
  match m with
  | .ind => s.areg e a
  | .postInc => s.areg e a
  | .preDec => s.areg e a - word (sizeBytes z)
  | .disp x own => s.areg e a + extVal x 14 own.toNat

/-- The register update of an addressing mode, at completion (R68, R71). -/
def State.modeUpdate (s : State) (e : Nat) (z : Size) (a : Fin 8) (m : Mode) : State :=
  match m with
  | .postInc => s.setA e a (s.areg e a + word (sizeBytes z))
  | .preDec => s.setA e a (s.areg e a - word (sizeBytes z))
  | _ => s

/-- A result for D[d] with a new PSW, and the completion. -/
def State.result (s : State) (e : Nat) (c : Code) (d : Fin 8) (r p : Word) : State :=
  ((s.setD e d r).setPsw e p).finish e c.len

/-- Vector 1 for source class A where R50 does not permit it; else the body. -/
def State.dOnly (s : State) (e : Nat) (c : Code) (r : Src) (body : Word → State) : State :=
  match r with
  | .d n => body (s.dreg e n)
  | .a _ => s.raise e 1 0 c

end Sys2Proof.Machine
end

