-- ==== Sys2Proof/Machine/Yofiaz.lean ====
section
/-! DEFINITION. The Yofiaz instructions (chapter 3): one body per instruction, the commands that issue them, and the events of a
processor: wake-ups, interrupts, imprecise errors, halts, STEP.
Choices of the model: log entries 3, 8, 11, 13. -/

set_option autoImplicit false

namespace Sys2Proof.Machine

open Sys2Proof

/-! ### Register ALU (R114-R118) -/

/-- MOV (R114). -/
def iMov (e : Eng) (d : Fin 8) (r : Src) (s : State) : State :=
  s.result e (cAlu 0 d r) d (s.src e r) (setZN (s.psw e) (s.src e r))

/-- ADD (R115). -/
def iAdd (e : Eng) (d : Fin 8) (r : Src) (s : State) : State :=
  let x := addSub false (s.psw e) (s.dreg e d) (s.src e r)
  s.result e (cAlu 1 d r) d x.1 x.2

/-- SUB (R115). -/
def iSub (e : Eng) (d : Fin 8) (r : Src) (s : State) : State :=
  let x := addSub true (s.psw e) (s.dreg e d) (s.src e r)
  s.result e (cAlu 2 d r) d x.1 x.2

/-- CMP (R115). -/
def iCmp (e : Eng) (d : Fin 8) (r : Src) (s : State) : State :=
  (s.setPsw e (cmpFlags (s.psw e) (s.dreg e d) (s.src e r))).finish e 1

/-- AND (R114). -/
def iAnd (e : Eng) (d : Fin 8) (r : Src) (s : State) : State :=
  s.dOnly e (cAlu 4 d r) r fun v =>
    s.result e (cAlu 4 d r) d (s.dreg e d &&& v) (logicFlags (s.psw e) (s.dreg e d &&& v))

/-- OR (R114). -/
def iOr (e : Eng) (d : Fin 8) (r : Src) (s : State) : State :=
  s.dOnly e (cAlu 5 d r) r fun v =>
    s.result e (cAlu 5 d r) d (s.dreg e d ||| v) (logicFlags (s.psw e) (s.dreg e d ||| v))

/-- XOR (R114). -/
def iXor (e : Eng) (d : Fin 8) (r : Src) (s : State) : State :=
  s.dOnly e (cAlu 6 d r) r fun v =>
    s.result e (cAlu 6 d r) d (s.dreg e d ^^^ v) (logicFlags (s.psw e) (s.dreg e d ^^^ v))

/-- NEG (R115). -/
def iNeg (e : Eng) (d : Fin 8) (r : Src) (s : State) : State :=
  s.dOnly e (cAlu 7 d r) r fun v =>
    let x := addSub true (s.psw e) 0 v
    s.result e (cAlu 7 d r) d x.1 x.2

/-- EXTB (R114). -/
def iExtb (e : Eng) (d : Fin 8) (r : Src) (s : State) : State :=
  s.dOnly e (cAlu 8 d r) r fun v =>
    let x := (v.truncate 8 : BitVec 8).signExtend 32
    s.result e (cAlu 8 d r) d x (setZN (s.psw e) x)

/-- EXTH (R114). -/
def iExth (e : Eng) (d : Fin 8) (r : Src) (s : State) : State :=
  s.dOnly e (cAlu 9 d r) r fun v =>
    let x := (v.truncate 16 : BitVec 16).signExtend 32
    s.result e (cAlu 9 d r) d x (setZN (s.psw e) x)

/-- MUL (R116). -/
def iMul (e : Eng) (d : Fin 8) (r : Src) (s : State) : State :=
  s.dOnly e (cAlu 10 d r) r fun v =>
    let x := mulOp (s.psw e) (s.dreg e d) v
    s.result e (cAlu 10 d r) d x.1 x.2

/-- The other register of a pair (R117). -/
def pairOf (d : Fin 8) : Fin 8 := reg3 (if d.val % 2 = 0 then d.val + 1 else d.val - 1)

/-- A divide (R117, R61): quotient to D[d], remainder to D[d xor 1]; the divide-by-zero trap follows. -/
def divide (e : Eng) (c : Code) (d : Fin 8) (b : Word) (q r p : Word) (s : State) : State :=
  let s := ((s.setD e d q).setD e (pairOf d) r).setPsw e p
  if b == 0 && fTrapDz (pswRead e (s.eng e)) then s.trapTo e 8 c else s.finish e 1

/-- DIV (R117). -/
def iDiv (e : Eng) (d : Fin 8) (r : Src) (s : State) : State :=
  s.dOnly e (cAlu 11 d r) r fun v =>
    let x := divOp (s.psw e) (s.dreg e d) v
    divide e (cAlu 11 d r) d v x.1 x.2.1 x.2.2 s

/-- DIVU (R117). -/
def iDivu (e : Eng) (d : Fin 8) (r : Src) (s : State) : State :=
  s.dOnly e (cAlu 12 d r) r fun v =>
    let x := divuOp (s.psw e) (s.dreg e d) v
    divide e (cAlu 12 d r) d v x.1 x.2.1 x.2.2 s

/-- SHLV (R118). -/
def iShlv (e : Eng) (d : Fin 8) (r : Src) (s : State) : State :=
  s.dOnly e (cAlu 13 d r) r fun v =>
    let x := shlOp (s.psw e) (s.dreg e d) (v.toNat % 256)
    s.result e (cAlu 13 d r) d x.1 x.2

/-- SHRV (R118). -/
def iShrv (e : Eng) (d : Fin 8) (r : Src) (s : State) : State :=
  s.dOnly e (cAlu 14 d r) r fun v =>
    let x := shrOp (s.psw e) (s.dreg e d) (v.toNat % 256)
    s.result e (cAlu 14 d r) d x.1 x.2

/-- SARV (R118). -/
def iSarv (e : Eng) (d : Fin 8) (r : Src) (s : State) : State :=
  s.dOnly e (cAlu 15 d r) r fun v =>
    let x := sarOp (s.psw e) (s.dreg e d) (v.toNat % 256)
    s.result e (cAlu 15 d r) d x.1 x.2

/-! ### Shift and bit format (R119) -/

/-- SHL (R119). -/
def iShl (e : Eng) (d : Fin 8) (k : Fin 32) (s : State) : State :=
  let x := shlOp (s.psw e) (s.dreg e d) k
  s.result e (cShift 0 d k) d x.1 x.2

/-- SHR (R119). -/
def iShr (e : Eng) (d : Fin 8) (k : Fin 32) (s : State) : State :=
  let x := shrOp (s.psw e) (s.dreg e d) k
  s.result e (cShift 1 d k) d x.1 x.2

/-- SAR (R119). -/
def iSar (e : Eng) (d : Fin 8) (k : Fin 32) (s : State) : State :=
  let x := sarOp (s.psw e) (s.dreg e d) k
  s.result e (cShift 2 d k) d x.1 x.2

/-- ROL (R119). -/
def iRol (e : Eng) (d : Fin 8) (k : Fin 32) (s : State) : State :=
  let x := rolOp (s.psw e) (s.dreg e d) k
  s.result e (cShift 3 d k) d x.1 x.2

/-- ROR (R119). -/
def iRor (e : Eng) (d : Fin 8) (k : Fin 32) (s : State) : State :=
  let x := rorOp (s.psw e) (s.dreg e d) k
  s.result e (cShift 4 d k) d x.1 x.2

/-- Z of the bit instructions: the complement of bit `k` (R119). -/
def bitZ (p v : Word) (k : Nat) : Word := setZ p (!v.getLsbD k)

/-- BSET (R119). -/
def iBset (e : Eng) (d : Fin 8) (k : Fin 32) (s : State) : State :=
  s.result e (cShift 5 d k) d (putBit (s.dreg e d) k true) (bitZ (s.psw e) (s.dreg e d) k)

/-- BCLR (R119). -/
def iBclr (e : Eng) (d : Fin 8) (k : Fin 32) (s : State) : State :=
  s.result e (cShift 6 d k) d (putBit (s.dreg e d) k false) (bitZ (s.psw e) (s.dreg e d) k)

/-- BTST (R119). -/
def iBtst (e : Eng) (d : Fin 8) (k : Fin 32) (s : State) : State :=
  (s.setPsw e (bitZ (s.psw e) (s.dreg e d) k)).finish e 1

/-! ### Short immediate format (R120) -/

/-- ADDI (R120). -/
def iAddi (e : Eng) (d : Fin 8) (x : List (BitVec 11)) (imm : BitVec 6) (s : State) : State :=
  let y := addSub false (s.psw e) (s.dreg e d) (extVal x 6 imm.toNat)
  s.result e (cImm 0 d x imm) d y.1 y.2

/-- CMPI (R120). -/
def iCmpi (e : Eng) (d : Fin 8) (x : List (BitVec 11)) (imm : BitVec 6) (s : State) : State :=
  (s.setPsw e (cmpFlags (s.psw e) (s.dreg e d) (extVal x 6 imm.toNat))).finish e (cImm 1 d x imm).len

/-- ANDI (R120). -/
def iAndi (e : Eng) (d : Fin 8) (x : List (BitVec 11)) (imm : BitVec 6) (s : State) : State :=
  let r := s.dreg e d &&& extVal x 6 imm.toNat
  s.result e (cImm 2 d x imm) d r (logicFlags (s.psw e) r)

/-- MOVI (R120). -/
def iMovi (e : Eng) (d : Fin 8) (x : List (BitVec 11)) (imm : BitVec 6) (s : State) : State :=
  s.result e (cImm 3 d x imm) d (extVal x 6 imm.toNat) (setZN (s.psw e) (extVal x 6 imm.toNat))

/-! ### Loads and stores (R68-R72, R121) -/

/-- LD (R121): the checks, then the access is issued and the engine stalls until the data returns; without a free tag the load
waits (R21). -/
def iLd (e : Eng) (z : Size) (d a : Fin 8) (m : Mode) (s : State) : State :=
  let c := cMem 0 z d a m
  let ad := s.ea e z a m
  match s.dataFault e z ad.toNat false with
  | some v => s.raiseData e v ad.toNat c
  | none =>
    if !s.tagFree e then s
    else
      let s := s.updEng e fun x => { x with stall := .load z d a m ad }
      if isSafe e then s
      else { s with outst := s.outst ++ [⟨eRpn e, eInit e, .read ad.toNat (sizeBytes z), none⟩] }

/-- ST (R121): the checks, then the store is posted, the mode updates its register, and the instruction completes; without a
free tag the store waits (R72). -/
def iSt (e : Eng) (z : Size) (d a : Fin 8) (m : Mode) (s : State) : State :=
  let c := cMem 1 z d a m
  let ad := s.ea e z a m
  match s.dataFault e z ad.toNat true with
  | some v => s.raiseData e v ad.toNat c
  | none =>
    if !s.tagFree e then s
    else ((s.post e ad.toNat (toBytes (s.dreg e d).toNat (sizeBytes z))).modeUpdate e z a m).finish e c.len

/-- Load data for the stalled load of processor `e` (R71, R72): written zero-extended, or vector 6 or 7. -/
def State.loadEnd (s : State) (e : Nat) (r : Resp) (z : Size) (d a : Fin 8) (m : Mode) (ad : Word) : State :=
  let s := s.updEng e fun x => { x with stall := .none }
  match r with
  | .data l => ((s.setD e d (word (ofBytes l))).modeUpdate e z a m).finish e (cMem 0 z d a m).len
  | .uncorrectable => s.raise e 7 ad (cMem 0 z d a m)
  | _ => s.raise e 6 ad (cMem 0 z d a m)

/-- The first outstanding read of requester `r` that its target has served. -/
def State.servedRead (s : State) (r : Nat) : Option Nat :=
  (List.range s.outst.length).find? fun k =>
    match s.outst[k]? with
    | some t => t.rpn == r && !t.op.isWrite && t.over
    | none => false

/-- LOAD_DATA_RETURN: the data of the stalled load returns; an engine that was reset meanwhile discards it (R165). On a Cupola
core the access takes place now. -/
def loadDataReturn (e : Nat) (s : State) : State :=
  if isSafe e then
    match (s.eng e).stall with
    | .load z d a m ad =>
      let (r, s) := cupAccess e (.read ad.toNat (sizeBytes z)) s
      s.loadEnd e r z d a m ad
    | _ => s
  else
    match s.servedRead (eRpn e) with
    | none => s
    | some k =>
      let r := ((s.outst[k]?).bind fun t => t.done).getD .idle
      let s := { s with outst := s.outst.eraseIdx k }
      match (s.eng e).stall with
      | .load z d a m ad => s.loadEnd e r z d a m ad
      | _ => s

/-- LOAD_DATA_RETURN (R121). -/
def execLoadDataReturn (e : Eng) (s : State) : Host.Outcome State Fault Refusal := .next (loadDataReturn e s)

/-! ### Address and accumulator format (R124-R130) -/

/-- MOVA (R124). -/
def iMova (e : Eng) (a : Fin 8) (r : ASrc) (s : State) : State :=
  (s.setA e a (s.asrc e r)).finish e (cAsrc 0 4 a r).len

/-- ADDA (R124). -/
def iAdda (e : Eng) (a : Fin 8) (r : ASrc) (s : State) : State :=
  (s.setA e a (s.areg e a + s.asrc e r)).finish e (cAsrc 1 5 a r).len

/-- SUBA (R124). -/
def iSuba (e : Eng) (a : Fin 8) (r : Src) (s : State) : State :=
  (s.setA e a (s.areg e a - s.src e r)).finish e 1

/-- CMPA (R125). -/
def iCmpa (e : Eng) (a : Fin 8) (r : ASrc) (s : State) : State :=
  (s.setPsw e (cmpFlags (s.psw e) (s.areg e a) (s.asrc e r))).finish e (cAsrc 3 6 a r).len

/-- LDI (R125). -/
def iLdi (e : Eng) (d : Fin 8) (x : List (BitVec 11)) (own : PWord) (s : State) : State :=
  let v := extVal x 14 own.toNat
  s.result e (cAsrc 0 7 d (.imm x own)) d v (setZN (s.psw e) v)

/-- MAC (R126). -/
def iMac (e : Eng) (n : Fin 4) (a b : Fin 8) (s : State) : State :=
  let x := macOp (s.psw e) (s.accu e n) (s.dreg e a) (s.dreg e b)
  ((s.setAcc e n x.1).setPsw e x.2).finish e 1

/-- CSUM (R127). -/
def iCsum (e : Eng) (n : Fin 4) (a : Fin 8) (s : State) : State :=
  (s.setAcc e n (csumOp (s.accu e n) (s.dreg e a))).finish e 1

/-- ACW (R128). -/
def iAcw (e : Eng) (g : Bool) (n : Fin 4) (a : Fin 8) (s : State) : State :=
  let v := s.dreg e a
  let c : Acc := if g then (v.truncate 16 : BitVec 16) ++ ((s.accu e n).truncate 32 : Word) else v.signExtend 48
  (s.setAcc e n c).finish e 1

/-- ACR (R129). -/
def iAcr (e : Eng) (d : Fin 8) (m : AcrMode) (n : Fin 4) (s : State) : State :=
  let c := s.accu e n
  let p := s.psw e
  match m with
  | .t => let r : Word := c.truncate 32; s.result e (.one 0) d r (setZN p r)
  | .s => let x := satRead c; s.result e (.one 0) d x.1 (setZN (stickS (setV p x.2) x.2) x.1)
  | .g => let r : Word := (c >>> 32).truncate 32; s.result e (.one 0) d r (setZN p r)
  | .f => let r := foldAcc c; s.result e (.one 0) d r (setZN p r)

/-- Whether control register `y` does not exist on processor `e` (R63). -/
def crIllegal (e y : Nat) : Bool := !hasLoops e && Nat.ble 3 y && Nat.ble y 12

/-- A control-register write (R130). -/
def Engine.crWrite (x : Engine) (e y : Nat) (v : Word) : Engine :=
  let w14 : PWord := v.truncate 14
  match y with
  | 0 => { x with psw := pswWrite e v }
  | 1 => { x with evpend := x.evpend &&& ~~~((v.truncate 8 : BitVec 8) &&& 0xF2) }
  | 2 => { x with evie := v.truncate 9 }
  | 3 => x.setLctl (bitsOf v.toNat 0 2) (bitsOf v.toNat 2 2)
  | 4 => { x with ls := x.ls.set 0 w14 }
  | 5 => { x with le := x.le.set 0 w14 }
  | 6 => { x with lc := x.lc.set 0 v }
  | 7 => { x with ls := x.ls.set 1 w14 }
  | 8 => { x with le := x.le.set 1 w14 }
  | 9 => { x with lc := x.lc.set 1 v }
  | 10 => { x with ls := x.ls.set 2 w14 }
  | 11 => { x with le := x.le.set 2 w14 }
  | 12 => { x with lc := x.lc.set 2 v }
  | 13 => { x with tmr := v, tmrNs := 0 }
  | _ => x

/-- MTC (R130). -/
def iMtc (e : Eng) (y : Fin 16) (x : Fin 8) (s : State) : State :=
  if crIllegal e y then s.raise e 1 0 (cAdr 13 x y)
  else (s.updEng e fun g => g.crWrite e y (s.dreg e x)).finish e 1

/-- MFC (R124). -/
def iMfc (e : Eng) (x : Fin 8) (y : Fin 16) (s : State) : State :=
  if crIllegal e y then s.raise e 1 0 (cAdr 14 x y)
  else s.result e (cAdr 14 x y) x (s.crRead e y) (setZN (s.psw e) (s.crRead e y))

/-! ### Branches, calls, returns (R131-R134) -/

/-- The address of a branch word after its EXT words, plus its displacement (R131). -/
def State.branchTarget (s : State) (e : Nat) (x : List (BitVec 11)) (disp : BitVec 7) : PWord :=
  (s.eng e).pc + BitVec.ofNat 14 x.length + (extVal x 7 disp.toNat).truncate 14

/-- The PC set to a target; the loop-end test does not apply (R86). -/
def State.jump (s : State) (e : Nat) (t : PWord) : State := s.updEng e fun x => { x with pc := t }

/-- BRANCH (R131). -/
def iBranch (e : Eng) (c : Cond) (x : List (BitVec 11)) (disp : BitVec 7) (s : State) : State :=
  if condHolds c (s.psw e) then s.jump e (s.branchTarget e x disp) else s.finish e (x.length + 1)

/-- A push of return address `r` and a jump to `t` (R132). -/
def State.call (s : State) (e : Nat) (c : Code) (r t : PWord) : State :=
  let a := (s.eng e).a.getD 7 0 - 4
  match s.dataFault e .w a.toNat true with
  | some v => s.raiseData e v a.toNat c
  | none =>
    if !s.tagFree e then s
    else
      ((s.post e a.toNat (toBytes r.toNat 4)).updEng e fun x => { x with a := x.a.setIfInBounds 7 a }).jump e t

/-- BSR (R132). -/
def iBsr (e : Eng) (x : List (BitVec 11)) (disp : BitVec 7) (s : State) : State :=
  s.call e (cBranch 15 x disp) ((s.eng e).pc + BitVec.ofNat 14 (x.length + 1)) (s.branchTarget e x disp)

/-- NOP (R134). -/
def iNop (e : Eng) (s : State) : State := s.finish e 1

/-- RTS (R134). -/
def iRts (e : Eng) (s : State) : State :=
  let a := (s.eng e).a.getD 7 0
  match s.dataFault e .w a.toNat false with
  | some v => s.raiseData e v a.toNat (cCtl 1 0)
  | none =>
    match s.engAccess e (.read a.toNat 4) with
    | (.data l, s) => (s.updEng e fun x => { x with a := x.a.setIfInBounds 7 (a + 4) }).jump e (BitVec.ofNat 14 (ofBytes l))
    | (.uncorrectable, s) => s.raise e 7 a (cCtl 1 0)
    | (_, s) => s.raise e 6 a (cCtl 1 0)

/-- A frame word read by RETE: none where it faults (R98). -/
def State.frameRead (s : State) (e : Nat) (a : Word) : Option Word × State :=
  if (s.dataFault e .w a.toNat false).isSome then (none, s.swErr e a.toNat)
  else
    match s.engAccess e (.read a.toNat 4) with
    | (.data l, s) => (some (word (ofBytes l)), s)
    | (_, s) => (none, s)

/-- RETE (R96): frame words 0 and 1 restore PC, PSW, GIE and LCTL; A7 := A7 + 16. -/
def iRete (e : Eng) (s : State) : State :=
  let a := (s.eng e).a.getD 7 0
  match s.frameRead e a with
  | (none, s) => s.doubleFault e
  | (some w0, s) =>
    match s.frameRead e (a + 4) with
    | (none, s) => s.doubleFault e
    | (some w1, s) =>
      s.updEng e fun x =>
        let x := { x with
          pc := w0.truncate 14, psw := pswWrite e w1
          evie := (x.evie &&& 0xFF) ||| (if w0.getLsbD 21 then 0x100 else 0)
          a := x.a.setIfInBounds 7 (a + 16) }
        if hasLoops e then x.setLctl (bitsOf w0.toNat 24 2) (bitsOf w0.toNat 26 2) else x

/-- FENCE (R135). -/
def iFence (e : Eng) (s : State) : State :=
  if isSafe e || s.outCount (eRpn e) = 0 then s.finish e 1
  else s.updEng e fun x => { x with st := .waiting, stall := .fence }

/-- BRK (R136). -/
def iBrk (e : Eng) (s : State) : State := s.trapTo e 9 (cCtl 4 0)

/-- LEAVE (R87, R137). -/
def iLeave (e : Eng) (s : State) : State :=
  let x := s.eng e
  if !hasLoops e || x.depth ≤ x.base then s.raise e 3 0 (cCtl 5 0)
  else (s.updEng e fun x => { x with depth := x.depth - 1 }).finish e 1

/-- JMP (R134). -/
def iJmp (e : Eng) (a : Fin 8) (s : State) : State := s.jump e ((s.areg e a).truncate 14)

/-- JSR (R134). -/
def iJsr (e : Eng) (a : Fin 8) (s : State) : State :=
  s.call e (cCtl 7 a) ((s.eng e).pc + 1) ((s.areg e a).truncate 14)

/-- TRAP (R136). -/
def iTrap (e : Eng) (n : Fin 8) (s : State) : State := s.trapTo e (16 + n) (cCtl 8 n)

/-- PFS (R151): Yofiaz-S only. -/
def iPfs (e : Eng) (r : Fin 8) (s : State) : State :=
  if isSafe e then (s.updEng e fun x => { x with pfsig := x.pfsig.rotateLeft 1 ^^^ s.dreg e r }).finish e 1
  else s.raise e 1 0 (cCtl 12 r)

/-- WAIT (R100). -/
def iWait (e : Eng) (m : BitVec 8) (s : State) : State :=
  if m = 0 then s.raise e 1 0 (.one 0x3100)
  else if s.evPending e &&& m != 0 then s.finish e 1
  else s.updEng e fun x => { x with st := .waiting, stall := .wait m }

/-! ### String instructions (R76-R82, R139-R142) -/

/-- The address of the element at a pointer, and the pointer after it (R140). -/
def elemAt (p : Word) (z : Size) (v : Bool) : Word := if v then p - word (sizeBytes z) else p
def elemNext (p : Word) (z : Size) (v : Bool) : Word := if v then p - word (sizeBytes z) else p + word (sizeBytes z)

/-- The exception of a failed access: 7 on an uncorrectable error, else 6. -/
def accVec (r : Resp) : Nat := if r = .uncorrectable then 7 else 6

/-- A string element's read at `a`. -/
def State.elemRead (s : State) (e : Nat) (z : Size) (a : Word) : (Word ⊕ (Nat × Word)) × State :=
  match s.engAccess e (.read a.toNat (sizeBytes z)) with
  | (.data l, s) => (.inl (word (ofBytes l)), s)
  | (r, s) => (.inr (accVec r, a), s)

/-- The first alignment fault of an element's accesses (address, write), then the first protection violation (R93). -/
def State.elemFault (s : State) (e : Nat) (z : Size) (l : List (Word × Bool)) : Option (Nat × Word) :=
  match l.find? fun q => q.1.toNat % sizeBytes z != 0 with
  | some q => some (4, q.1)
  | none => (l.find? fun q => !s.mpuOk e q.1.toNat q.2).map fun q => (5, q.1)

/-- The size, direction and accesses of a string operation with pointers A5 = `p`, A6 = `q`. -/
def strAcc (o : StrOp) (p q : Word) : Size × List (Word × Bool) :=
  match o with
  | .movs z v => (z, [(elemAt p z v, false), (elemAt q z v, true)])
  | .cmps z v => (z, [(elemAt p z v, false), (elemAt q z v, false)])
  | .scas z v => (z, [(elemAt p z v, false)])
  | .stos z v => (z, [(elemAt q z v, true)])
  | .lods _ z v => (z, [(elemAt p z v, false)])
  | .crcs _ z v _ _ => (z, [(elemAt p z v, false)])

/-- The low bits of D6 of an element's size (R140). -/
def lowOf (w : Word) (z : Size) : Word := word (w.toNat % 2 ^ (8 * sizeBytes z))

/-- A string store: carried out at once in the order of R22; its bus error is imprecise (R142). -/
def State.elemWrite (s : State) (e : Nat) (z : Size) (a v : Word) : State :=
  let (r, s) := s.engAccess e (.write a.toNat (toBytes v.toNat (sizeBytes z)))
  if r.good then s else s.holdImprecise e a.toNat

/-- One element of a string operation (R76, R140, R141): the exception it raises, with no effect, or its effects. -/
def State.element (s : State) (e : Nat) (o : StrOp) : Option (Nat × Word) × State :=
  let p := s.areg e 5
  let q := s.areg e 6
  let za := strAcc o p q
  match s.elemFault e za.1 za.2 with
  | some f => (some f, s.swErr e f.2.toNat)
  | none =>
    match o with
    | .movs z v =>
      match s.elemRead e z (elemAt p z v) with
      | (.inr f, s) => (some f, s)
      | (.inl w, s) => (none, ((s.elemWrite e z (elemAt q z v) w).setA e 5 (elemNext p z v)).setA e 6 (elemNext q z v))
    | .cmps z v =>
      match s.elemRead e z (elemAt p z v) with
      | (.inr f, s) => (some f, s)
      | (.inl w, s) =>
        match s.elemRead e z (elemAt q z v) with
        | (.inr f, s) => (some f, s)
        | (.inl u, s) =>
          (none, ((s.setPsw e (cmpFlags (s.psw e) w u)).setA e 5 (elemNext p z v)).setA e 6 (elemNext q z v))
    | .scas z v =>
      match s.elemRead e z (elemAt p z v) with
      | (.inr f, s) => (some f, s)
      | (.inl w, s) => (none, (s.setPsw e (cmpFlags (s.psw e) (lowOf (s.dreg e 6) z) w)).setA e 5 (elemNext p z v))
    | .stos z v => (none, (s.elemWrite e z (elemAt q z v) (s.dreg e 6)).setA e 6 (elemNext q z v))
    | .lods d z v =>
      match s.elemRead e z (elemAt p z v) with
      | (.inr f, s) => (some f, s)
      | (.inl w, s) => (none, ((s.setD e d w).setPsw e (setZN (s.psw e) w)).setA e 5 (elemNext p z v))
    | .crcs n z v rin inv =>
      match s.elemRead e z (elemAt p z v) with
      | (.inr f, s) => (some f, s)
      | (.inl w, s) =>
        let c := (toBytes w.toNat (sizeBytes z)).foldl (crcsByte (s.dreg e 6) rin inv) ((s.accu e n).truncate 32)
        (none, (s.setAcc e n (c.zeroExtend 48)).setA e 5 (elemNext p z v))

/-- LODS naming D7 is reserved (R77). -/
def strReserved (o : StrOp) : Bool :=
  match o with
  | .lods d _ _ => d == 7
  | _ => false

/-- A string instruction without prefix: one element (R78). -/
def iStr (e : Eng) (o : StrOp) (s : State) : State :=
  let c : Code := ⟨[], strCode o, none⟩
  if strReserved o then s.raise e 1 0 c
  else
    match s.element e o with
    | (some f, s) => s.raise e f.1 f.2 c
    | (none, s) => s.finish e 1

/-- Repeat prefixes. -/
inductive Prefix where
  | rep | repe | repne
deriving DecidableEq, Repr

/-- The word of a prefix (R134). -/
def prefixCode (p : Prefix) : PWord :=
  match p with
  | .rep => 0x3048
  | .repe => 0x3050
  | .repne => 0x3058

/-- Whether a prefix ends the repetition after an element (R80). -/
def prefixEnds (p : Prefix) (psw : Word) : Bool :=
  match p with
  | .rep => false
  | .repe => !fZ psw
  | .repne => fZ psw

/-- The aligned word that every access of the next element lies in, where all lie in the engine's own tower SRAM (R82). -/
def State.group (s : State) (e : Nat) (o : StrOp) : Option (List Nat) :=
  let l := (strAcc o (s.areg e 5) (s.areg e 6)).2.map fun q => q.1.toNat
  if e < 32 && l.all (fun a => Nat.ble 0x48000000 a && (a - 0x48000000) / 0x200000 == e / 8) then some (l.map (· / 4)) else none

/-- Element groups (R80, R82): one group of a prefixed string instruction; `g` is the group of its first element. -/
def State.repGroup (s : State) (e : Eng) (p : Prefix) (o : StrOp) (g : Option (List Nat)) : Nat → State
  | 0 => s.updEng e fun x => { x with stall := .rep }
  | fuel + 1 =>
    let pc := (s.eng e).pc
    match s.element e o with
    | (some f, s) => s.enter e f.1 pc f.2 (strCode o) 0 true false
    | (none, s) =>
      let s := s.setD e 7 (s.dreg e 7 - 1)
      if prefixEnds p (s.psw e) then (s.updEng e fun x => { x with stall := .none }).finish e 2
      else if s.dreg e 7 = 0 then
        if (s.eng e).imprecise.isSome || (s.eventDue e).isSome then s.updEng e fun x => { x with stall := .rep }
        else (s.updEng e fun x => { x with stall := .none }).finish e 2
      else if g.isSome && s.group e o = g then State.repGroup s e p o g fuel
      else s.updEng e fun x => { x with stall := .rep }

/-- A prefixed string instruction performs its next element group, or completes with D7 = 0 (R80). -/
def State.repStr (s : State) (e : Eng) (p : Prefix) (o : StrOp) : State :=
  if s.dreg e 7 = 0 then (s.updEng e fun x => { x with stall := .none }).finish e 2
  else s.repGroup e p o (s.group e o) 4

/-- A repeat prefix and what follows it (R79): the next group, vector 2, or vector 1. -/
def iRep (e : Eng) (p : Prefix) (n : RepNext) (s : State) : State :=
  let pc := (s.eng e).pc
  let bad (s : State) : State := s.enter e 2 pc 0 (prefixCode p) 0 false false
  match n with
  | .other => bad s
  | .reservedString w => s.enter e 1 pc 0 w 0 false false
  | .str o =>
    if strReserved o then s.enter e 1 pc 0 (strCode o) 0 false false
    else
      match o, p with
      | .cmps _ _, _ => s.repStr e p o
      | .scas _ _, _ => s.repStr e p o
      | _, .rep => s.repStr e p o
      | _, _ => bad s

/-- The prefix and the word after it, as fetched. -/
def repLen (p : Prefix) (n : RepNext) : Code :=
  match n with
  | .other => ⟨[], prefixCode p, none⟩
  | .reservedString w => ⟨[], prefixCode p, some w⟩
  | .str o => ⟨[], prefixCode p, some (strCode o)⟩

/-- Whether processor `e` issues a prefixed string instruction, or its next element group, now. -/
def State.readyRep (s : State) (e : Nat) : Bool :=
  let x := s.eng e
  x.st == .running && (x.stall == .none || x.stall == .rep) && !x.haltReq && x.imprecise.isNone && (s.eventDue e).isNone

/-- REP (R80, R138). -/
def execRep (e : Eng) (n : RepNext) (s : State) : Host.Outcome State Fault Refusal :=
  .next (if s.readyRep e then s.execute e (repLen .rep n) (iRep e .rep n) else s)

/-- REPE (R80, R138). -/
def execRepe (e : Eng) (n : RepNext) (s : State) : Host.Outcome State Fault Refusal :=
  .next (if s.readyRep e then s.execute e (repLen .repe n) (iRep e .repe n) else s)

/-- REPNE (R80, R138). -/
def execRepne (e : Eng) (n : RepNext) (s : State) : Host.Outcome State Fault Refusal :=
  .next (if s.readyRep e then s.execute e (repLen .repne n) (iRep e .repne n) else s)

/-! ### Rotates, stream I/O, DO (R143-R148) -/

/-- ROLV (R143). -/
def iRolv (e : Eng) (d r : Fin 8) (s : State) : State :=
  let x := rolOp (s.psw e) (s.dreg e d) ((s.dreg e r).toNat % 256)
  s.result e (cRot 0 d r) d x.1 x.2

/-- RORV (R143). -/
def iRorv (e : Eng) (d r : Fin 8) (s : State) : State :=
  let x := rorOp (s.psw e) (s.dreg e d) ((s.dreg e r).toNat % 256)
  s.result e (cRot 1 d r) d x.1 x.2

/-- Whether SRX and STX exist on processor `e` now: class C with a lane (R144). -/
def State.streamOk (s : State) (e : Nat) : Bool := Nat.blt e 32 && Nat.blt (e % 8) 2 && (s.laneOf e).isSome

/-- Whether address `a` lies in engine `e`'s own tower SRAM. -/
def ownTower (e a : Nat) : Bool := Nat.ble 0x48000000 a && (a - 0x48000000) / 0x200000 == e / 8

/-- The checks of SRX and STX in order (R144): the exception raised. -/
def State.streamFault (s : State) (e : Nat) (a : Word) : Option Nat :=
  if !s.streamOk e then some 1
  else if a.toNat % 16 != 0 then some 4
  else if !ownTower e a.toNat then some 6
  else none

/-- The processor stalls in an instruction (R159). -/
def State.stallIn (s : State) (e : Nat) (t : Stall) : State := s.updEng e fun x => { x with st := .waiting, stall := t }

/-- The processor leaves its stall. -/
def State.unstall (s : State) (e : Nat) : State := s.updEng e fun x => { x with st := .running, stall := .none }

/-- SRX takes its block (R144): the data to memory, the status to D[d], the pointer advanced; a fault of the store consumes
nothing. -/
def State.srxTake (s : State) (e : Nat) (d a : Fin 8) : State :=
  let c := cStream 0 d a
  let p := s.areg e a
  match s.laneTake e with
  | none => s
  | some (b, _) =>
    match s.engAccess e (.write p.toNat (b.data ++ List.replicate (16 - b.data.length) 0)) with
    | (.ok, s) =>
      let s := match s.laneTake e with
        | some (_, s) => s
        | none => s
      (((s.setD e d b.status).setPsw e (setZN (s.psw e) b.status)).setA e a (p + 16)).finish e 1
    | (_, s) => s.raise e 6 p c

/-- STX hands its block to the lane (R144). -/
def State.stxGive (s : State) (e : Nat) (d a : Fin 8) : State :=
  let c := cStream 1 d a
  let p := s.areg e a
  match s.engAccess e (.read p.toNat 16) with
  | (.data l, s) => ((s.laneGive e ⟨l, s.dreg e d⟩).setA e a (p + 16)).finish e 1
  | (r, s) => s.raise e (accVec r) p c

/-- SRX (R144). -/
def iSrx (e : Eng) (d a : Fin 8) (s : State) : State :=
  match s.streamFault e (s.areg e a) with
  | some 1 => s.raise e 1 0 (cStream 0 d a)
  | some v => s.raiseData e v (s.areg e a).toNat (cStream 0 d a)
  | none => if s.ev2 e then s.srxTake e d a else s.stallIn e (.srx d a)

/-- STX (R144). -/
def iStx (e : Eng) (d a : Fin 8) (s : State) : State :=
  match s.streamFault e (s.areg e a) with
  | some 1 => s.raise e 1 0 (cStream 1 d a)
  | some v => s.raiseData e v (s.areg e a).toNat (cStream 1 d a)
  | none => if s.ev3 e then s.stxGive e d a else s.stallIn e (.stx d a)

/-- DO (R84, R146-R148). -/
def iDo (e : Eng) (c : DoCount) (len : Fin 32) (s : State) : State :=
  let x := s.eng e
  let n : Word := match c with
    | .reg d => s.dreg e d
    | .imm k => word (k.val + 1)
  let body := match c with
    | .reg _ => len.val + 1
    | .imm _ => len.val % 16 + 1
  let last := x.pc + BitVec.ofNat 14 body
  if !hasLoops e || x.depth == 3 || (x.base < x.depth && x.le.getD (x.depth - 1) 0 == x.pc) then s.raise e 3 0 (cDo c len)
  else if n = 0 then s.jump e (last + 1)
  else
    s.updEng e fun x => { x with
      ls := x.ls.setIfInBounds x.depth (x.pc + 1), le := x.le.setIfInBounds x.depth last
      lc := x.lc.setIfInBounds x.depth n, depth := x.depth + 1, pc := x.pc + 1 }

/-! ### The instruction commands -/

/-- MOV (R114). -/
def execMov (e : Eng) (d : Fin 8) (r : Src) (s : State) : Host.Outcome State Fault Refusal :=
  .next (s.issue e (cAlu 0 d r) (iMov e d r))

/-- ADD (R115). -/
def execAdd (e : Eng) (d : Fin 8) (r : Src) (s : State) : Host.Outcome State Fault Refusal :=
  .next (s.issue e (cAlu 1 d r) (iAdd e d r))

/-- SUB (R115). -/
def execSub (e : Eng) (d : Fin 8) (r : Src) (s : State) : Host.Outcome State Fault Refusal :=
  .next (s.issue e (cAlu 2 d r) (iSub e d r))

/-- CMP (R115). -/
def execCmp (e : Eng) (d : Fin 8) (r : Src) (s : State) : Host.Outcome State Fault Refusal :=
  .next (s.issue e (cAlu 3 d r) (iCmp e d r))

/-- AND (R114). -/
def execAnd (e : Eng) (d : Fin 8) (r : Src) (s : State) : Host.Outcome State Fault Refusal :=
  .next (s.issue e (cAlu 4 d r) (iAnd e d r))

/-- OR (R114). -/
def execOr (e : Eng) (d : Fin 8) (r : Src) (s : State) : Host.Outcome State Fault Refusal :=
  .next (s.issue e (cAlu 5 d r) (iOr e d r))

/-- XOR (R114). -/
def execXor (e : Eng) (d : Fin 8) (r : Src) (s : State) : Host.Outcome State Fault Refusal :=
  .next (s.issue e (cAlu 6 d r) (iXor e d r))

/-- NEG (R115). -/
def execNeg (e : Eng) (d : Fin 8) (r : Src) (s : State) : Host.Outcome State Fault Refusal :=
  .next (s.issue e (cAlu 7 d r) (iNeg e d r))

/-- EXTB (R114). -/
def execExtb (e : Eng) (d : Fin 8) (r : Src) (s : State) : Host.Outcome State Fault Refusal :=
  .next (s.issue e (cAlu 8 d r) (iExtb e d r))

/-- EXTH (R114). -/
def execExth (e : Eng) (d : Fin 8) (r : Src) (s : State) : Host.Outcome State Fault Refusal :=
  .next (s.issue e (cAlu 9 d r) (iExth e d r))

/-- MUL (R116). -/
def execMul (e : Eng) (d : Fin 8) (r : Src) (s : State) : Host.Outcome State Fault Refusal :=
  .next (s.issue e (cAlu 10 d r) (iMul e d r))

/-- DIV (R117). -/
def execDiv (e : Eng) (d : Fin 8) (r : Src) (s : State) : Host.Outcome State Fault Refusal :=
  .next (s.issue e (cAlu 11 d r) (iDiv e d r))

/-- DIVU (R117). -/
def execDivu (e : Eng) (d : Fin 8) (r : Src) (s : State) : Host.Outcome State Fault Refusal :=
  .next (s.issue e (cAlu 12 d r) (iDivu e d r))

/-- SHLV (R118). -/
def execShlv (e : Eng) (d : Fin 8) (r : Src) (s : State) : Host.Outcome State Fault Refusal :=
  .next (s.issue e (cAlu 13 d r) (iShlv e d r))

/-- SHRV (R118). -/
def execShrv (e : Eng) (d : Fin 8) (r : Src) (s : State) : Host.Outcome State Fault Refusal :=
  .next (s.issue e (cAlu 14 d r) (iShrv e d r))

/-- SARV (R118). -/
def execSarv (e : Eng) (d : Fin 8) (r : Src) (s : State) : Host.Outcome State Fault Refusal :=
  .next (s.issue e (cAlu 15 d r) (iSarv e d r))

/-- SHL (R119). -/
def execShl (e : Eng) (d : Fin 8) (k : Fin 32) (s : State) : Host.Outcome State Fault Refusal :=
  .next (s.issue e (cShift 0 d k) (iShl e d k))

/-- SHR (R119). -/
def execShr (e : Eng) (d : Fin 8) (k : Fin 32) (s : State) : Host.Outcome State Fault Refusal :=
  .next (s.issue e (cShift 1 d k) (iShr e d k))

/-- SAR (R119). -/
def execSar (e : Eng) (d : Fin 8) (k : Fin 32) (s : State) : Host.Outcome State Fault Refusal :=
  .next (s.issue e (cShift 2 d k) (iSar e d k))

/-- ROL (R119). -/
def execRol (e : Eng) (d : Fin 8) (k : Fin 32) (s : State) : Host.Outcome State Fault Refusal :=
  .next (s.issue e (cShift 3 d k) (iRol e d k))

/-- ROR (R119). -/
def execRor (e : Eng) (d : Fin 8) (k : Fin 32) (s : State) : Host.Outcome State Fault Refusal :=
  .next (s.issue e (cShift 4 d k) (iRor e d k))

/-- BSET (R119). -/
def execBset (e : Eng) (d : Fin 8) (k : Fin 32) (s : State) : Host.Outcome State Fault Refusal :=
  .next (s.issue e (cShift 5 d k) (iBset e d k))

/-- BCLR (R119). -/
def execBclr (e : Eng) (d : Fin 8) (k : Fin 32) (s : State) : Host.Outcome State Fault Refusal :=
  .next (s.issue e (cShift 6 d k) (iBclr e d k))

/-- BTST (R119). -/
def execBtst (e : Eng) (d : Fin 8) (k : Fin 32) (s : State) : Host.Outcome State Fault Refusal :=
  .next (s.issue e (cShift 7 d k) (iBtst e d k))

/-- ADDI (R120). -/
def execAddi (e : Eng) (d : Fin 8) (x : List (BitVec 11)) (v : BitVec 6) (s : State) : Host.Outcome State Fault Refusal :=
  .next (s.issue e (cImm 0 d x v) (iAddi e d x v))

/-- CMPI (R120). -/
def execCmpi (e : Eng) (d : Fin 8) (x : List (BitVec 11)) (v : BitVec 6) (s : State) : Host.Outcome State Fault Refusal :=
  .next (s.issue e (cImm 1 d x v) (iCmpi e d x v))

/-- ANDI (R120). -/
def execAndi (e : Eng) (d : Fin 8) (x : List (BitVec 11)) (v : BitVec 6) (s : State) : Host.Outcome State Fault Refusal :=
  .next (s.issue e (cImm 2 d x v) (iAndi e d x v))

/-- MOVI (R120). -/
def execMovi (e : Eng) (d : Fin 8) (x : List (BitVec 11)) (v : BitVec 6) (s : State) : Host.Outcome State Fault Refusal :=
  .next (s.issue e (cImm 3 d x v) (iMovi e d x v))

/-- LD (R121). -/
def execLd (e : Eng) (z : Size) (d : Fin 8) (a : Fin 8) (m : Mode) (s : State) : Host.Outcome State Fault Refusal :=
  .next (s.issue e (cMem 0 z d a m) (iLd e z d a m))

/-- ST (R121). -/
def execSt (e : Eng) (z : Size) (d : Fin 8) (a : Fin 8) (m : Mode) (s : State) : Host.Outcome State Fault Refusal :=
  .next (s.issue e (cMem 1 z d a m) (iSt e z d a m))

/-- MOVA (R124). -/
def execMova (e : Eng) (a : Fin 8) (r : ASrc) (s : State) : Host.Outcome State Fault Refusal :=
  .next (s.issue e (cAsrc 0 4 a r) (iMova e a r))

/-- ADDA (R124). -/
def execAdda (e : Eng) (a : Fin 8) (r : ASrc) (s : State) : Host.Outcome State Fault Refusal :=
  .next (s.issue e (cAsrc 1 5 a r) (iAdda e a r))

/-- SUBA (R124). -/
def execSuba (e : Eng) (a : Fin 8) (r : Src) (s : State) : Host.Outcome State Fault Refusal :=
  .next (s.issue e (cAdr 2 a (srcCode r)) (iSuba e a r))

/-- CMPA (R125). -/
def execCmpa (e : Eng) (a : Fin 8) (r : ASrc) (s : State) : Host.Outcome State Fault Refusal :=
  .next (s.issue e (cAsrc 3 6 a r) (iCmpa e a r))

/-- LDI (R125). -/
def execLdi (e : Eng) (d : Fin 8) (x : List (BitVec 11)) (own : PWord) (s : State) : Host.Outcome State Fault Refusal :=
  .next (s.issue e (cAsrc 0 7 d (.imm x own)) (iLdi e d x own))

/-- MAC (R126). -/
def execMac (e : Eng) (n : Fin 4) (p : Fin 8) (q : Fin 8) (s : State) : Host.Outcome State Fault Refusal :=
  .next (s.issue e (cAdr (8 + n / 2) p (q * 2 + n % 2)) (iMac e n p q))

/-- CSUM (R127). -/
def execCsum (e : Eng) (n : Fin 4) (p : Fin 8) (s : State) : Host.Outcome State Fault Refusal :=
  .next (s.issue e (cAdr 10 (reg3 n) p) (iCsum e n p))

/-- ACW (R128). -/
def execAcw (e : Eng) (g : Bool) (n : Fin 4) (p : Fin 8) (s : State) : Host.Outcome State Fault Refusal :=
  .next (s.issue e (cAdr 11 (reg3 (4 * bit g + n)) p) (iAcw e g n p))

/-- ACR (R129). -/
def execAcr (e : Eng) (d : Fin 8) (m : AcrMode) (n : Fin 4) (s : State) : Host.Outcome State Fault Refusal :=
  .next (s.issue e (cAdr 12 d (acrCode m * 4 + n)) (iAcr e d m n))

/-- MTC (R130). -/
def execMtc (e : Eng) (y : Fin 16) (x : Fin 8) (s : State) : Host.Outcome State Fault Refusal :=
  .next (s.issue e (cAdr 13 x y) (iMtc e y x))

/-- MFC (R124). -/
def execMfc (e : Eng) (x : Fin 8) (y : Fin 16) (s : State) : Host.Outcome State Fault Refusal :=
  .next (s.issue e (cAdr 14 x y) (iMfc e x y))

/-- BRANCH (R131). -/
def execBranch (e : Eng) (c : Cond) (x : List (BitVec 11)) (v : BitVec 7) (s : State) : Host.Outcome State Fault Refusal :=
  .next (s.issue e (cBranch (condCode c) x v) (iBranch e c x v))

/-- BSR (R132). -/
def execBsr (e : Eng) (x : List (BitVec 11)) (v : BitVec 7) (s : State) : Host.Outcome State Fault Refusal :=
  .next (s.issue e (cBranch 15 x v) (iBsr e x v))

/-- NOP (R134). -/
def execNop (e : Eng) (s : State) : Host.Outcome State Fault Refusal :=
  .next (s.issue e (cCtl 0 0) (iNop e))

/-- RTS (R134). -/
def execRts (e : Eng) (s : State) : Host.Outcome State Fault Refusal :=
  .next (s.issue e (cCtl 1 0) (iRts e))

/-- RETE (R96). -/
def execRete (e : Eng) (s : State) : Host.Outcome State Fault Refusal :=
  .next (s.issue e (cCtl 2 0) (iRete e))

/-- FENCE (R135). -/
def execFence (e : Eng) (s : State) : Host.Outcome State Fault Refusal :=
  .next (s.issue e (cCtl 3 0) (iFence e))

/-- BRK (R136). -/
def execBrk (e : Eng) (s : State) : Host.Outcome State Fault Refusal :=
  .next (s.issue e (cCtl 4 0) (iBrk e))

/-- LEAVE (R87). -/
def execLeave (e : Eng) (s : State) : Host.Outcome State Fault Refusal :=
  .next (s.issue e (cCtl 5 0) (iLeave e))

/-- JMP (R134). -/
def execJmp (e : Eng) (a : Fin 8) (s : State) : Host.Outcome State Fault Refusal :=
  .next (s.issue e (cCtl 6 a) (iJmp e a))

/-- JSR (R134). -/
def execJsr (e : Eng) (a : Fin 8) (s : State) : Host.Outcome State Fault Refusal :=
  .next (s.issue e (cCtl 7 a) (iJsr e a))

/-- TRAP (R136). -/
def execTrap (e : Eng) (n : Fin 8) (s : State) : Host.Outcome State Fault Refusal :=
  .next (s.issue e (cCtl 8 n) (iTrap e n))

/-- PFS (R151). -/
def execPfs (e : Eng) (n : Fin 8) (s : State) : Host.Outcome State Fault Refusal :=
  .next (s.issue e (cCtl 12 n) (iPfs e n))

/-- WAIT (R100). -/
def execWait (e : Eng) (m : BitVec 8) (s : State) : Host.Outcome State Fault Refusal :=
  .next (s.issue e (.one (0x3100 + m.toNat)) (iWait e m))

/-- MOVS (R76). -/
def execMovs (e : Eng) (z : Size) (v : Bool) (s : State) : Host.Outcome State Fault Refusal :=
  .next (s.issue e (⟨[], strCode (StrOp.movs z v), none⟩) (iStr e (.movs z v)))

/-- CMPS (R140). -/
def execCmps (e : Eng) (z : Size) (v : Bool) (s : State) : Host.Outcome State Fault Refusal :=
  .next (s.issue e (⟨[], strCode (StrOp.cmps z v), none⟩) (iStr e (.cmps z v)))

/-- SCAS (R140). -/
def execScas (e : Eng) (z : Size) (v : Bool) (s : State) : Host.Outcome State Fault Refusal :=
  .next (s.issue e (⟨[], strCode (StrOp.scas z v), none⟩) (iStr e (.scas z v)))

/-- STOS (R76). -/
def execStos (e : Eng) (z : Size) (v : Bool) (s : State) : Host.Outcome State Fault Refusal :=
  .next (s.issue e (⟨[], strCode (StrOp.stos z v), none⟩) (iStr e (.stos z v)))

/-- LODS (R76). -/
def execLods (e : Eng) (d : Fin 8) (z : Size) (v : Bool) (s : State) : Host.Outcome State Fault Refusal :=
  .next (s.issue e (⟨[], strCode (StrOp.lods d z v), none⟩) (iStr e (.lods d z v)))

/-- CRCS (R141). -/
def execCrcs (e : Eng) (n : Fin 4) (z : Size) (v : Bool) (r : Bool) (i : Bool) (s : State) : Host.Outcome State Fault Refusal :=
  .next (s.issue e (⟨[], strCode (StrOp.crcs n z v r i), none⟩) (iStr e (.crcs n z v r i)))

/-- ROLV (R143). -/
def execRolv (e : Eng) (d : Fin 8) (x : Fin 8) (s : State) : Host.Outcome State Fault Refusal :=
  .next (s.issue e (cRot 0 d x) (iRolv e d x))

/-- RORV (R143). -/
def execRorv (e : Eng) (d : Fin 8) (x : Fin 8) (s : State) : Host.Outcome State Fault Refusal :=
  .next (s.issue e (cRot 1 d x) (iRorv e d x))

/-- SRX (R144). -/
def execSrx (e : Eng) (d : Fin 8) (a : Fin 8) (s : State) : Host.Outcome State Fault Refusal :=
  .next (s.issue e (cStream 0 d a) (iSrx e d a))

/-- STX (R144). -/
def execStx (e : Eng) (d : Fin 8) (a : Fin 8) (s : State) : Host.Outcome State Fault Refusal :=
  .next (s.issue e (cStream 1 d a) (iStx e d a))

/-- DO (R146). -/
def execDoLoop (e : Eng) (c : DoCount) (n : Fin 32) (s : State) : Host.Outcome State Fault Refusal :=
  .next (s.issue e (cDo c n) (iDo e c n))

/-- A reserved word or a broken EXT chain raises vector 1 at the first word (R67, R74): `n` EXT words precede the word `w`. -/
def iReserved (e : Eng) (n : Fin 3) (w : PWord) (s : State) : State := s.enter e 1 (s.eng e).pc 0 w n false false

/-- RESERVED_ENCODING (R67). -/
def execReservedEncoding (e : Eng) (n : Fin 3) (w : PWord) (s : State) : Host.Outcome State Fault Refusal :=
  .next (s.issue e ⟨List.replicate n 0, w, none⟩ (iReserved e n w))

/-- One instruction executed whatever its boundary conditions (STEP, R163). -/
def stepInstr (i : Instr) (s : State) : State :=
  match i with
  | .mov e d r => s.execute e (cAlu 0 d r) (iMov e d r)
  | .add e d r => s.execute e (cAlu 1 d r) (iAdd e d r)
  | .sub e d r => s.execute e (cAlu 2 d r) (iSub e d r)
  | .cmp e d r => s.execute e (cAlu 3 d r) (iCmp e d r)
  | .and e d r => s.execute e (cAlu 4 d r) (iAnd e d r)
  | .or e d r => s.execute e (cAlu 5 d r) (iOr e d r)
  | .xor e d r => s.execute e (cAlu 6 d r) (iXor e d r)
  | .neg e d r => s.execute e (cAlu 7 d r) (iNeg e d r)
  | .extb e d r => s.execute e (cAlu 8 d r) (iExtb e d r)
  | .exth e d r => s.execute e (cAlu 9 d r) (iExth e d r)
  | .mul e d r => s.execute e (cAlu 10 d r) (iMul e d r)
  | .div e d r => s.execute e (cAlu 11 d r) (iDiv e d r)
  | .divu e d r => s.execute e (cAlu 12 d r) (iDivu e d r)
  | .shlv e d r => s.execute e (cAlu 13 d r) (iShlv e d r)
  | .shrv e d r => s.execute e (cAlu 14 d r) (iShrv e d r)
  | .sarv e d r => s.execute e (cAlu 15 d r) (iSarv e d r)
  | .shl e d k => s.execute e (cShift 0 d k) (iShl e d k)
  | .shr e d k => s.execute e (cShift 1 d k) (iShr e d k)
  | .sar e d k => s.execute e (cShift 2 d k) (iSar e d k)
  | .rol e d k => s.execute e (cShift 3 d k) (iRol e d k)
  | .ror e d k => s.execute e (cShift 4 d k) (iRor e d k)
  | .bset e d k => s.execute e (cShift 5 d k) (iBset e d k)
  | .bclr e d k => s.execute e (cShift 6 d k) (iBclr e d k)
  | .btst e d k => s.execute e (cShift 7 d k) (iBtst e d k)
  | .addi e d x v => s.execute e (cImm 0 d x v) (iAddi e d x v)
  | .cmpi e d x v => s.execute e (cImm 1 d x v) (iCmpi e d x v)
  | .andi e d x v => s.execute e (cImm 2 d x v) (iAndi e d x v)
  | .movi e d x v => s.execute e (cImm 3 d x v) (iMovi e d x v)
  | .ld e z d a m => s.execute e (cMem 0 z d a m) (iLd e z d a m)
  | .st e z d a m => s.execute e (cMem 1 z d a m) (iSt e z d a m)
  | .mova e a r => s.execute e (cAsrc 0 4 a r) (iMova e a r)
  | .adda e a r => s.execute e (cAsrc 1 5 a r) (iAdda e a r)
  | .suba e a r => s.execute e (cAdr 2 a (srcCode r)) (iSuba e a r)
  | .cmpa e a r => s.execute e (cAsrc 3 6 a r) (iCmpa e a r)
  | .ldi e d x own => s.execute e (cAsrc 0 7 d (.imm x own)) (iLdi e d x own)
  | .mac e n p q => s.execute e (cAdr (8 + n / 2) p (q * 2 + n % 2)) (iMac e n p q)
  | .csum e n p => s.execute e (cAdr 10 (reg3 n) p) (iCsum e n p)
  | .acw e g n p => s.execute e (cAdr 11 (reg3 (4 * bit g + n)) p) (iAcw e g n p)
  | .acr e d m n => s.execute e (cAdr 12 d (acrCode m * 4 + n)) (iAcr e d m n)
  | .mtc e y x => s.execute e (cAdr 13 x y) (iMtc e y x)
  | .mfc e x y => s.execute e (cAdr 14 x y) (iMfc e x y)
  | .branch e c x v => s.execute e (cBranch (condCode c) x v) (iBranch e c x v)
  | .bsr e x v => s.execute e (cBranch 15 x v) (iBsr e x v)
  | .nop e => s.execute e (cCtl 0 0) (iNop e)
  | .rts e => s.execute e (cCtl 1 0) (iRts e)
  | .rete e => s.execute e (cCtl 2 0) (iRete e)
  | .fence e => s.execute e (cCtl 3 0) (iFence e)
  | .brk e => s.execute e (cCtl 4 0) (iBrk e)
  | .leave e => s.execute e (cCtl 5 0) (iLeave e)
  | .jmp e a => s.execute e (cCtl 6 a) (iJmp e a)
  | .jsr e a => s.execute e (cCtl 7 a) (iJsr e a)
  | .trap e n => s.execute e (cCtl 8 n) (iTrap e n)
  | .pfs e n => s.execute e (cCtl 12 n) (iPfs e n)
  | .wait e m => s.execute e (.one (0x3100 + m.toNat)) (iWait e m)
  | .movs e z v => s.execute e (⟨[], strCode (StrOp.movs z v), none⟩) (iStr e (.movs z v))
  | .cmps e z v => s.execute e (⟨[], strCode (StrOp.cmps z v), none⟩) (iStr e (.cmps z v))
  | .scas e z v => s.execute e (⟨[], strCode (StrOp.scas z v), none⟩) (iStr e (.scas z v))
  | .stos e z v => s.execute e (⟨[], strCode (StrOp.stos z v), none⟩) (iStr e (.stos z v))
  | .lods e d z v => s.execute e (⟨[], strCode (StrOp.lods d z v), none⟩) (iStr e (.lods d z v))
  | .crcs e n z v r i => s.execute e (⟨[], strCode (StrOp.crcs n z v r i), none⟩) (iStr e (.crcs n z v r i))
  | .rolv e d x => s.execute e (cRot 0 d x) (iRolv e d x)
  | .rorv e d x => s.execute e (cRot 1 d x) (iRorv e d x)
  | .srx e d a => s.execute e (cStream 0 d a) (iSrx e d a)
  | .stx e d a => s.execute e (cStream 1 d a) (iStx e d a)
  | .doLoop e c n => s.execute e (cDo c n) (iDo e c n)
  | .rep e n => s.execute e (repLen .rep n) (iRep e .rep n)
  | .repe e n => s.execute e (repLen .repe n) (iRep e .repe n)
  | .repne e n => s.execute e (repLen .repne n) (iRep e .repne n)
  | .reservedEncoding e n w => s.execute e ⟨List.replicate n 0, w, none⟩ (iReserved e n w)
  | _ => s

/-! ### Events of a processor -/

/-- FENCE_COMPLETE: the last outstanding transaction has completed (R135). -/
def fenceComplete (e : Nat) (s : State) : State :=
  let x := s.eng e
  if x.st = .waiting && x.stall = .fence && s.outCount (eRpn e) = 0 && (s.eventDue e).isNone && !x.haltReq then
    (s.unstall e).finish e 1
  else s

/-- FENCE_COMPLETE (R135). -/
def execFenceComplete (e : Eng) (s : State) : Host.Outcome State Fault Refusal := .next (fenceComplete e s)

/-- WAIT_WAKE (R100, R101): a masked event is pending, and no exception due comes first. -/
def waitWake (e : Nat) (s : State) : State :=
  let x := s.eng e
  match x.stall with
  | .wait m =>
    if x.st = .waiting && s.evPending e &&& m != 0 && x.imprecise.isNone && (s.eventDue e).isNone && !x.haltReq then
      (s.unstall e).finish e 1
    else s
  | _ => s

/-- WAIT_WAKE (R100). -/
def execWaitWake (e : Eng) (s : State) : Host.Outcome State Fault Refusal := .next (waitWake e s)

/-- STREAM_BLOCK_READY (R145): the wait of an SRX or STX ends, with vector 1 where the lane has gone. -/
def streamBlockReady (e : Nat) (s : State) : State :=
  let x := s.eng e
  if x.st != .waiting || x.haltReq || (s.eventDue e).isSome then s
  else
    match x.stall with
    | .srx d a =>
      if !s.streamOk e then (s.unstall e).raise e 1 0 (cStream 0 d a)
      else if s.ev2 e then (s.unstall e).srxTake e d a
      else s
    | .stx d a =>
      if !s.streamOk e then (s.unstall e).raise e 1 0 (cStream 1 d a)
      else if s.ev3 e then (s.unstall e).stxGive e d a
      else s
    | _ => s

/-- STREAM_BLOCK_READY (R145). -/
def execStreamBlockReady (e : Eng) (s : State) : Host.Outcome State Fault Refusal := .next (streamBlockReady e s)

/-- Whether processor `e` stands at a boundary: between instructions or element groups, or stalled in an instruction that an
event interrupt leaves (R82, R101, R135, R145). -/
def Engine.boundary (x : Engine) : Bool :=
  match x.st, x.stall with
  | .running, .none => true
  | .running, .rep => true
  | .waiting, .wait _ => true
  | .waiting, .fence => true
  | .waiting, .srx _ _ => true
  | .waiting, .stx _ _ => true
  | _, _ => false

/-- The entry of event interrupt `n` (R94): IWORD, NEXT and FADDR 0; REP where a prefixed string instruction was
interrupted. -/
def State.takeEvent (s : State) (e n : Nat) : State :=
  s.enter e (24 + n) (s.eng e).pc 0 0 0 ((s.eng e).stall == .rep) false

/-- EVENT_INTERRUPT: the highest event interrupt due is taken at a boundary, unless an imprecise bus error comes first or a halt
is asked (R93, R94, R163). -/
def eventInterrupt (e : Nat) (s : State) : State :=
  let x := s.eng e
  if x.boundary && x.imprecise.isNone && !x.haltReq then
    match s.eventDue e with
    | some n => s.takeEvent e n
    | none => s
  else s

/-- EVENT_INTERRUPT (R94). -/
def execEventInterrupt (e : Eng) (s : State) : Host.Outcome State Fault Refusal := .next (eventInterrupt e s)

/-- The entry of the held imprecise bus error (R92): IMP 1, FADDR the first store's address. -/
def State.takeImprecise (s : State) (e : Nat) (a : Word) : State :=
  let rep := (s.eng e).stall == .rep
  (s.updEng e fun x => { x with imprecise := none }).enter e 6 (s.eng e).pc a 0 0 rep true

/-- IMPRECISE_BUS_ERROR: taken at the next instruction or element boundary, whatever GIE is; after a FENCE, not within it
(R92, R135). -/
def impreciseBusError (e : Nat) (s : State) : State :=
  let x := s.eng e
  match x.imprecise with
  | some a => if x.boundary && x.stall != .fence then s.takeImprecise e a else s
  | none => s

/-- IMPRECISE_BUS_ERROR (R92). -/
def execImpreciseBusError (e : Eng) (s : State) : Host.Outcome State Fault Refusal := .next (impreciseBusError e s)

/-- TMR counts from 1 to 0: EV5 is latched (R64). -/
def tmrExpiry (e : Nat) (s : State) : State :=
  let x := s.eng e
  if x.tmr = 1 && (x.st = .running || x.st = .waiting) then
    (s.updEng e fun x => { x with tmr := 0, tmrNs := 0 }).latchEv e 5
  else s

/-- TMR_EXPIRY (R64). -/
def execTmrExpiry (e : Eng) (s : State) : Host.Outcome State Fault Refusal := .next (tmrExpiry e s)

/-! ### Halt and STEP (R163) -/

/-- The processor enters HALTED at a boundary; its stalled instruction has had no effect. -/
def State.haltNow (s : State) (e : Nat) : State :=
  s.updEng e fun x => { x with st := .halted, stall := .none, haltReq := false }

/-- ENGINE_HALT_COMPLETE: at a boundary with no transaction outstanding; a held imprecise bus error is taken first. -/
def engineHaltComplete (e : Nat) (s : State) : State :=
  let x := s.eng e
  if x.haltReq && x.boundary && s.outCount (eRpn e) = 0 then
    match x.imprecise with
    | some a =>
      let s := s.takeImprecise e a
      if (s.eng e).st = .running then s.haltNow e else s
    | none => s.haltNow e
  else s

/-- ENGINE_HALT_COMPLETE (R163); what the Keep waits with for this engine proceeds. -/
def execEngineHaltComplete (e : Fin 32) (s : State) : Host.Outcome State Fault Refusal :=
  .next (engineHaltComplete e s).settle

/-- STEP (R163) of a HALTED engine: a held imprecise bus error or a due event interrupt is entered, else one instruction or
element group is executed; then the engine halts, at once or when its access completes. CYCLE counts the cycles of
the step, a free value here (R64; log entry 13). -/
def stepEngine (e : Nat) (s : State) : State :=
  let (w, s) := s.free
  let s := s.updEng e fun x => { x with st := .running, stall := .none, haltReq := true, cycle := x.cycle + w }
  let x := s.eng e
  let s := match x.imprecise with
    | some a => s.takeImprecise e a
    | none =>
      match s.eventDue e with
      | some n => s.takeEvent e n
      | none => stepInstr (decodeAt (Fin.ofNat 35 e) fun k => s.progWord e (x.pc.toNat + k)) s
  engineHaltComplete e s

/-- STEP (R163): a write of the STEP bit, CLKEN as it stands. -/
def execEngineStep (i : Init) (e : Fin 32) (s : State) : Host.Outcome State Fault Refusal :=
  .next (s.gate i (SYS_E_CTL e) fun (s : State) => ctlWrite stepEngine i e (s.ctlKeep e ||| 0x10) s)

/-- CLKEN_WRITE (R166): a write of SYS_Ete_CTL with any RUN and action bits. -/
def execClkenWrite (i : Init) (e : Fin 32) (v : Word) (s : State) : Host.Outcome State Fault Refusal :=
  .next (s.gate i (SYS_E_CTL e) (ctlWrite stepEngine i e v))

/-- CLKEN_DELAYED_ACTION (R166). -/
def execClkenDelayedAction (e : Fin 32) (s : State) : Host.Outcome State Fault Refusal :=
  .next (clkenDelayedAction stepEngine e s)

end Sys2Proof.Machine
end

