-- ==== Sys2Proof/Machine/Fabric.lean ====
section
/-! DEFINITION. Fabric transactions and their completion (R465-R468), register accesses without a row of their own (R8-R12, R239),
the PCIe endpoint (R34-R40) and the local bus (R41-R43, R610).
Choices of the model: log entries 3, 92, 93, 94, 95. -/

set_option autoImplicit false

namespace Sys2Proof.Machine

open Sys2Proof

/-! ### Register accesses (R8-R12, R239) -/

/-- REGISTER_WRITE: a write of `size` bytes at `addr`, 32-bit and aligned or a bus error (R12). -/
def registerWrite (i : Init) (addr size : Nat) (v : Word) (s : State) : State :=
  (if sized addr size then regWrite stepEngine i addr v s else s.answer .busError).reported i addr

/-- REGISTER_WRITE (R8, R10, R11, R12). -/
def execRegisterWrite (i : Init) (addr size : Nat) (v : Word) (s : State) : Host.Outcome State Fault Refusal :=
  .next (registerWrite i addr size v s)

/-- CLEARING_READ: `events` are the RC bits that events set, or the counts of 1, in the same cycle (R9). -/
def clearingRead (i : Init) (addr size : Nat) (events : Word) (s : State) : State :=
  (if sized addr size then regRead i events addr s else s.answer .busError).reported i addr

/-- CLEARING_READ (R9). -/
def execClearingRead (i : Init) (addr size : Nat) (events : Word) (s : State) : Host.Outcome State Fault Refusal :=
  .next (clearingRead i addr size events s)

/-- LATCHING_READ: the words that belong to the one read are latched for the reading RPN. -/
def latchingRead (i : Init) (addr size : Nat) (s : State) : State :=
  (if sized addr size then regRead i 0 addr s else s.answer .busError).reported i addr

/-- LATCHING_READ (R239). -/
def execLatchingRead (i : Init) (addr size : Nat) (s : State) : Host.Outcome State Fault Refusal :=
  .next (latchingRead i addr size s)

/-! ### Transactions (R465-R468) -/

/-- Whether an access is one fabric transaction: 1-32 bytes within an aligned block of 32 (R465). -/
def oneTxn (op : Access) : Bool :=
  Nat.ble 1 op.len && Nat.ble op.len 32 && op.addr / 32 == (op.addr + op.len - 1) / 32

/-- Earlier transactions of the same requester to the same block, not yet applied (R22). -/
def State.earlier (s : State) (k : Nat) : List Nat :=
  match s.outst[k]? with
  | none => []
  | some t => (s.sameBlock t.rpn t.op.addr).filter fun j => Nat.blt j k

/-- FABRIC_TRANSACTION of an outstanding transaction: the earlier ones of its requester to the block are applied first. A transaction
that its target holds back stays outstanding. -/
def fabricHeld (k : Nat) (s : State) : State :=
  ((s.earlier k).foldl (fun (s : State) j => s.applyTxn stepEngine true j) s).applyTxn stepEngine false k

/-- FABRIC_TRANSACTION presented now: its completion is the answer of the access. Presented as more than one transaction it is none,
and nothing happens. -/
def fabricDirect (i : Init) (op : Access) (s : State) : State :=
  if !oneTxn op then s
  else
    let sw := s.swCaused i op || s.hostClosed i op.addr
    let (r, s) := accessWith stepEngine false i op s
    let s := s.answer r
    if sw then s.reported i op.addr
    else if i = .pcie && (r == .busError || r == .uncorrectable) then
      { s with host := { s.host with aer := true, aerAddr := op.addr } }
    else s

/-- FABRIC_TRANSACTION: upsets that the access finds, then the access. -/
def fabricTransaction (t : TxnSource) (us : List Upset) (s : State) : State :=
  let s := s.upset us
  match t with
  | .held k => fabricHeld k s
  | .direct i op => fabricDirect i op s

/-- FABRIC_TRANSACTION (R466). -/
def execFabricTransaction (t : TxnSource) (upsets : List Upset) (s : State) : Host.Outcome State Fault Refusal :=
  .next (fabricTransaction t upsets s)

/-- WRITE_COMPLETION of the outstanding write `k` that its target has applied: its tag is free; a bus error is an imprecise one of the
engine or the Keep, unless the engine is isolated (R92, R167, R467). -/
def writeCompletion (k : Nat) (s : State) : State :=
  match s.outst[k]? with
  | none => s
  | some t =>
    if !t.op.isWrite || !t.over then s
    else
      let s := { s with outst := s.outst.eraseIdx k }
      if (t.done.getD .ok).good || (s.eng t.rpn).st == .isolated then s else s.holdImprecise t.rpn t.op.addr

/-- WRITE_COMPLETION (R467). -/
def execWriteCompletion (k : Nat) (s : State) : Host.Outcome State Fault Refusal := .next (writeCompletion k s)

/-- The resource that owns a target (R562, R563); the fabric where it belongs to no block. -/
def State.ownerRes (s : State) (a : Nat) : Nat :=
  match s.region a with
  | .dram | .central | .tower | .exchange | .prog | .mram => memRes (s.region a) a
  | .regs =>
    if inEngines a then resId 1 ((a - 0x60001080) / 0x100)
    else if inMsix a || a = SYS_HOST_BPAP then resId 16 0
    else if Nat.ble 0x60060000 a && Nat.blt a 0x60068000 then resId 13 ((a - 0x60060000) / 0x1000)
    else if Nat.ble 0x60080000 a && Nat.blt a 0x60086000 then resId 10 ((a - 0x60080000) / 0x1000)
    else if Nat.ble 0x600C0000 a && Nat.blt a 0x600D0000 then resId 11 0
    else if Nat.ble 0x600D0000 a && Nat.blt a 0x600E0000 then resId 11 1
    else if Nat.ble 0x600E0000 a && Nat.blt a 0x600E4000 then resId 12 ((a - 0x600E0000) / 0x1000)
    else if Nat.ble 0x60120000 a && Nat.blt a 0x60140000 then resId 15 0
    else if Nat.ble 0x60140000 a && Nat.blt a 0x60160000 then resId 14 0
    else if Nat.ble 0x60020000 a && Nat.blt a 0x60040000 then resId 7 0
    else resId 17 0
  | _ => resId 17 0

/-- FABRIC_TIMEOUT: transaction `k`, not one to the outbound windows, has had no response for 100 us: it completes with a bus error;
counted, logged, reported; a late response finds it complete. -/
def fabricTimeout (k : Nat) (s : State) : State :=
  match s.outst[k]? with
  | none => s
  | some t =>
    if t.done.isSome || s.region t.op.addr = .outbound then s
    else
      let s := { s with outst := s.outst.set k { t with done := some .busError } }
      let s := (s.countSat MEM_FAB_TMO 1).setReg MEM_FAB_TMOADDR (word t.op.addr)
      (s.setReg MEM_FAB_TMORPN (word t.rpn)).report 3 (s.ownerRes t.op.addr) t.op.addr t.rpn

/-- FABRIC_TIMEOUT (R468). -/
def execFabricTimeout (k : Nat) (s : State) : Host.Outcome State Fault Refusal := .next (fabricTimeout k s)

/-! ### PCIe endpoint (R34-R40) -/

/-- The fabric address of an offset of a base address register (R35, R36); none where the host aperture is not enabled or the offset
lies outside the register's range. -/
def State.barAddr (s : State) (b : PcieBar) (x : Nat) : Option Nat :=
  match b with
  | .bar2 => if x < 0x40000000 then some x else none
  | .bar0 =>
    if x < 0x0E000000 then some (0x40000000 + x)
    else if x < 0x0F000000 then some (0x60000000 + (x - 0x0E000000))
    else if x < 0x10000000 && s.flag SYS_HOST_BPAP SYS_HOST_BPAP_EN then
      some (s.fld SYS_HOST_BPAP SYS_HOST_BPAP_BASE * 0x1000000 + (x - 0x0F000000))
    else none

/-- The transactions of a host request at fabric address `a`: one for a register access, else one per aligned block of 32 bytes. -/
def State.hostPieces (s : State) (a : Nat) (op : Access) : List Access :=
  if s.region a = .regs then
    match op with
    | .read _ n => [.read a n]
    | .write _ d => [.write a d]
  else
    (split32 a op.len).map fun (b, n) =>
      match op with
      | .read _ _ => .read b n
      | .write _ d => .write b ((d.drop (b - a)).take n)

/-- The pieces of a host request in order: the completion so far (a failed one stays), the data, the state. -/
def State.hostRun (s : State) : List Access → Resp × List Byte × State
  | [] => (.ok, [], s)
  | op :: t =>
    let (r, s) := accessWith stepEngine true .pcie op s
    let (r', l, s) := State.hostRun s t
    (if r.good then r' else r, r.bytes op.len ++ l, s)

/-- PCIE_REQUEST through a base address register: a read that meets a bus error completes with Completer Abort, a write is discarded;
both are logged through AER and, where software caused them, reported (R37). -/
def pcieRequest (b : PcieBar) (op : Access) (s : State) : State :=
  if !s.host.linkUp || op.len = 0 then s
  else
    match s.barAddr b op.addr, s.barAddr b (op.addr + op.len - 1) with
    | some a, some _ =>
      let ps := s.hostPieces a op
      let sw := s.hostClosed .pcie a || ps.any fun p => s.swCaused .pcie p
      let (r, l, s) := s.hostRun ps
      match r with
      | .busError => if sw then (s.hostFail a).answer r else ({ s with host := { s.host with aer := true, aerAddr := a } } : State).answer r
      | .uncorrectable => ({ s with host := { s.host with aer := true, aerAddr := a } } : State).answer .busError
      | .idle => s.answer .idle
      | .waiting => s.answer .waiting
      | _ => s.answer (if op.isWrite then .ok else .data l)
    | _, _ => (s.hostFail op.addr).answer .busError

/-- PCIE_REQUEST (R35-R38). -/
def execPcieRequest (bar : PcieBar) (op : Access) (s : State) : Host.Outcome State Fault Refusal := .next (pcieRequest bar op s)

/-- PCIE_LINK_UP: training has ended at `speed` (0: 2.5, 1: 5.0, 2: 8.0 GT/s); the endpoint answers (R44). -/
def pcieLinkUp (speed : Fin 3) (x2 : Bool) (s : State) : State :=
  if s.boot.held then s
  else
    let s : State := { s with host := { s.host with linkUp := true, speed := speed.val, x2 := x2 } }
    s.setReg PWR_CLK_STAT (s.reg PWR_CLK_STAT ||| 0x40)

/-- PCIE_LINK_UP (R44). -/
def execPcieLinkUp (speed : Fin 3) (x2 : Bool) (s : State) : Host.Outcome State Fault Refusal := .next (pcieLinkUp speed x2 s)

/-- The configuration word at `off` (R34): identity, class, base address registers; a word whose place or value the specification
does not state is a free value. -/
def State.cfgWord (s : State) (off : Nat) : Word × State :=
  let (w, t) := s.free
  match off / 4 * 4 with
  | 0x00 => ((w &&& 0xFFFF) ||| 0x32400000, t)
  | 0x04 => ((w &&& 0xFFFF0000) ||| s.host.command.zeroExtend 32, t)
  | 0x08 => (word (0x0B4000 * 256 + 2), s)
  | 0x10 => (s.host.bar0, s)
  | 0x14 => (0, s)
  | 0x18 => (s.host.bar2 ||| 0xC, s)
  | 0x1C => (s.host.bar3, s)
  | 0x20 => (0, s)
  | 0x24 => (0, s)
  | 0x30 => (0, s)
  | _ => (w, t)

/-- Enabling or masking MSI-X (R39): while it is disabled no PBA bit is set; vectors that become unmasked send their held
messages. -/
def State.msixControl (s : State) (en fm : Bool) : State :=
  let s : State := { s with host := { s.host with msixEn := en, msixFm := fm, pba := if en then s.host.pba else 0 } }
  (List.range 32).foldl (fun (s : State) v => s.msixRelease v) s

/-- PCIE_CONFIGURATION_REQUEST: answered while the link is up. -/
def pcieConfigurationRequest (r : PcieCfg) (s : State) : State :=
  if !s.host.linkUp then s
  else
    let put (f : HostIf → HostIf) : State := ({ s with host := f s.host } : State).answer .ok
    match r with
    | .read off =>
      let (w, s) := s.cfgWord off.toNat
      s.answerWord w
    | .command v => put fun h => { h with command := v }
    | .bar0 v => put fun h => { h with bar0 := v &&& 0xF0000000 }
    | .bar2 v => put fun h => { h with bar2 := v &&& 0xC0000000 }
    | .bar3 v => put fun h => { h with bar3 := v }
    | .msixControl en fm => (s.msixControl en fm).answer .ok
    | .powerState d => put fun h => { h with d3 := d }
    | .aerClear v => put fun h => { h with aer := h.aer && !v.getLsbD 15 }

/-- PCIE_CONFIGURATION_REQUEST (R34). -/
def execPcieConfigurationRequest (r : PcieCfg) (s : State) : Host.Outcome State Fault Refusal :=
  .next (pcieConfigurationRequest r s)

/-! ### Local bus (R41-R43) -/

/-- The outputs at the end of a cycle: LB_ERR_N, LB_D, LB_RDY_N, and the held half. -/
def State.lbEnd (s : State) (err : Bool) (d : BitVec 16) (held : LbHeld) : State :=
  { s with host := { s.host with lbErr := err, lbData := if err then 0 else d, lbReady := true, held := held } }

/-- A failing cycle (R43): LB_ERR_N with LB_RDY_N, LB_D 0; a bus error is reported. -/
def State.lbFail (s : State) (a : Nat) : State := (((s.answer .busError).reported .localBus a).lbEnd true 0 .none)

/-- The end of a cycle by the completion of its fabric access. -/
def State.lbDone (s : State) (a : Nat) (r : Resp) (ok : State → State) : State :=
  match r with
  | .uncorrectable => (s.answer .busError).lbEnd true 0 .none
  | .ok | .data _ => ok (s.answer r)
  | _ => s.lbFail a

/-- The first half of a register read at `a` (R42): the 32-bit fabric read, with its side effects. -/
def State.lbRead1 (s : State) (a : Nat) : State :=
  let (r, s) := accessWith stepEngine true .localBus (.read a 4) s
  s.lbDone a r fun s =>
    let w := ofBytes (r.bytes 4)
    s.lbEnd false (BitVec.ofNat 16 w) (.read a (BitVec.ofNat 16 (w / 0x10000)))

/-- The second half of the read at `a` returns the held bits; without its first half it fails. -/
def State.lbRead2 (s : State) (a : Nat) : State :=
  match s.host.held with
  | .read b hi => if a = b + 2 then (s.answer (.data (toBytes hi.toNat 2))).lbEnd false hi .none else s.lbFail a
  | _ => s.lbFail a

/-- The first half of a register write at `a` is held. -/
def State.lbWrite1 (s : State) (a : Nat) (d : BitVec 16) : State := (s.answer .ok).lbEnd false 0 (.write a d)

/-- The second half of the write at `a` performs the 32-bit fabric write; without its first half it fails. -/
def State.lbWrite2 (s : State) (a : Nat) (d : BitVec 16) : State :=
  match s.host.held with
  | .write b lo =>
    if a = b + 2 then
      let (r, s) := accessWith stepEngine true .localBus (.write b (toBytes (lo.toNat + d.toNat * 0x10000) 4)) s
      s.lbDone b r fun s => s.lbEnd false 0 .none
    else s.lbFail a
  | _ => s.lbFail a

/-- The first byte and the length that byte enables name in the halfword at `a`. -/
def laneSpan (a : Nat) (be : BitVec 2) : Nat × Nat := (if be = 2 then a + 1 else a, if be = 3 then 2 else if be = 0 then 0 else 1)

/-- An access to the exchange region (R42): the enabled bytes. What LB_D carries on a byte lane that is not enabled is free. -/
def State.lbExchange (s : State) (a : Nat) (be : BitVec 2) (write : Bool) (d : BitVec 16) : State :=
  let (b, n) := laneSpan a be
  if n = 0 then
    let (w, s) := s.free
    (s.answer .ok).lbEnd false (w.truncate 16) .none
  else if write then
    let (r, s) := accessWith stepEngine true .localBus (.write b (toBytes (if be = 2 then d.toNat / 256 else d.toNat) n)) s
    s.lbDone b r fun s => s.lbEnd false 0 .none
  else
    let (r, s) := accessWith stepEngine true .localBus (.read b n) s
    s.lbDone b r fun s =>
      let v := ofBytes (r.bytes n)
      if n = 2 then s.lbEnd false (BitVec.ofNat 16 v) .none
      else
        let (w, s) := s.free
        s.lbEnd false (BitVec.ofNat 16 (if be = 2 then w.toNat % 256 + v * 256 else v + w.toNat % 256 * 256)) .none

/-- A cycle of the local bus (R41, R42) at address `addr` (bit 0 is not on the bus), byte enables `be`. -/
def lbCycle (addr : BitVec 24) (be : BitVec 2) (write : Bool) (d : BitVec 16) (s : State) : State :=
  let a := addr.toNat / 2 * 2
  if a < 0x400000 then
    let f := 0x60000000 + a
    if be != 3 then s.lbFail f
    else if a % 4 = 0 then (if write then s.lbWrite1 f d else s.lbRead1 f)
    else (if write then s.lbWrite2 f d else s.lbRead2 f)
  else if Nat.ble 0x800000 a && Nat.blt a 0x840000 then s.lbExchange (0x4C000000 + (a - 0x800000)) be write d
  else s.lbFail a

/-- LB_EXCHANGE_ACCESS (R42). -/
def execLbExchangeAccess (addr : BitVec 24) (be : BitVec 2) (write : Bool) (d : BitVec 16) (s : State) :
    Host.Outcome State Fault Refusal :=
  .next (lbCycle addr be write d s)

/-- LB_READ_FIRST_HALF (R42): the halfword at a register address; bit 1 of the address selects the first half. -/
def execLbReadFirstHalf (addr : BitVec 24) (be : BitVec 2) (s : State) : Host.Outcome State Fault Refusal :=
  .next (lbCycle (addr &&& ~~~2) be false 0 s)

/-- LB_READ_SECOND_HALF (R42). -/
def execLbReadSecondHalf (addr : BitVec 24) (be : BitVec 2) (s : State) : Host.Outcome State Fault Refusal :=
  .next (lbCycle (addr ||| 2) be false 0 s)

/-- LB_WRITE_FIRST_HALF (R42). -/
def execLbWriteFirstHalf (addr : BitVec 24) (be : BitVec 2) (d : BitVec 16) (s : State) : Host.Outcome State Fault Refusal :=
  .next (lbCycle (addr &&& ~~~2) be true d s)

/-- LB_WRITE_SECOND_HALF (R42). -/
def execLbWriteSecondHalf (addr : BitVec 24) (be : BitVec 2) (d : BitVec 16) (s : State) : Host.Outcome State Fault Refusal :=
  .next (lbCycle (addr ||| 2) be true d s)

/-- LB_STROBE_EARLY_RISE: the cycle ends without LB_RDY_N; an internal access that has `started` completes with its side effects, its
data discarded; the held half is discarded (R610). -/
def lbStrobeEarlyRise (addr : BitVec 24) (be : BitVec 2) (write : Bool) (d : BitVec 16) (started : Bool) (s : State) : State :=
  let t := if started then lbCycle addr be write d s else s
  { t with host := { t.host with held := .none, lbErr := false, lbReady := false, lbData := s.host.lbData } }

/-- LB_STROBE_EARLY_RISE (R610). -/
def execLbStrobeEarlyRise (addr : BitVec 24) (be : BitVec 2) (write : Bool) (d : BitVec 16) (started : Bool) (s : State) :
    Host.Outcome State Fault Refusal :=
  .next (lbStrobeEarlyRise addr be write d started s)

/-- LB_IRQ_N is low while any bit is set in both the pending and the mask register of agent 0 (R43). -/
def State.lbIrq (s : State) : Bool := (s.reg (XCH_A_DB_PEND 0) &&& s.reg (XCH_A_DB_MASK 0)) != 0

/-- INTA is asserted while MSI-X is disabled and the host's doorbell is (R39). -/
def State.intA (s : State) : Bool := !s.host.msixEn && s.lbIrq

end Sys2Proof.Machine
end

