-- ==== Sys2Proof/Machine/Dispatch.lean ====
section
/-! DEFINITION. The dispatch of every command to its meaning. -/

namespace Sys2Proof.Machine

open Sys2Proof

def exec (i : Instr) (s : State) : Host.Outcome State Fault Refusal :=
  match i with
  | .mov e d src => Sys2Proof.Machine.execMov e d src s
  | .add e d src => Sys2Proof.Machine.execAdd e d src s
  | .sub e d src => Sys2Proof.Machine.execSub e d src s
  | .cmp e d src => Sys2Proof.Machine.execCmp e d src s
  | .and e d src => Sys2Proof.Machine.execAnd e d src s
  | .or e d src => Sys2Proof.Machine.execOr e d src s
  | .xor e d src => Sys2Proof.Machine.execXor e d src s
  | .neg e d src => Sys2Proof.Machine.execNeg e d src s
  | .extb e d src => Sys2Proof.Machine.execExtb e d src s
  | .exth e d src => Sys2Proof.Machine.execExth e d src s
  | .mul e d src => Sys2Proof.Machine.execMul e d src s
  | .div e d src => Sys2Proof.Machine.execDiv e d src s
  | .divu e d src => Sys2Proof.Machine.execDivu e d src s
  | .shlv e d src => Sys2Proof.Machine.execShlv e d src s
  | .shrv e d src => Sys2Proof.Machine.execShrv e d src s
  | .sarv e d src => Sys2Proof.Machine.execSarv e d src s
  | .shl e d k => Sys2Proof.Machine.execShl e d k s
  | .shr e d k => Sys2Proof.Machine.execShr e d k s
  | .sar e d k => Sys2Proof.Machine.execSar e d k s
  | .rol e d k => Sys2Proof.Machine.execRol e d k s
  | .ror e d k => Sys2Proof.Machine.execRor e d k s
  | .bset e d k => Sys2Proof.Machine.execBset e d k s
  | .bclr e d k => Sys2Proof.Machine.execBclr e d k s
  | .btst e d k => Sys2Proof.Machine.execBtst e d k s
  | .addi e d x imm => Sys2Proof.Machine.execAddi e d x imm s
  | .cmpi e d x imm => Sys2Proof.Machine.execCmpi e d x imm s
  | .andi e d x imm => Sys2Proof.Machine.execAndi e d x imm s
  | .movi e d x imm => Sys2Proof.Machine.execMovi e d x imm s
  | .ld e z d a m => Sys2Proof.Machine.execLd e z d a m s
  | .loadDataReturn e => Sys2Proof.Machine.execLoadDataReturn e s
  | .st e z d a m => Sys2Proof.Machine.execSt e z d a m s
  | .impreciseBusError e => Sys2Proof.Machine.execImpreciseBusError e s
  | .mova e a src => Sys2Proof.Machine.execMova e a src s
  | .adda e a src => Sys2Proof.Machine.execAdda e a src s
  | .suba e a src => Sys2Proof.Machine.execSuba e a src s
  | .cmpa e a src => Sys2Proof.Machine.execCmpa e a src s
  | .ldi e d x own => Sys2Proof.Machine.execLdi e d x own s
  | .mac e n r t => Sys2Proof.Machine.execMac e n r t s
  | .csum e n r => Sys2Proof.Machine.execCsum e n r s
  | .acw e g n r => Sys2Proof.Machine.execAcw e g n r s
  | .acr e d m n => Sys2Proof.Machine.execAcr e d m n s
  | .mtc e y x => Sys2Proof.Machine.execMtc e y x s
  | .mfc e x y => Sys2Proof.Machine.execMfc e x y s
  | .branch e c x disp => Sys2Proof.Machine.execBranch e c x disp s
  | .bsr e x disp => Sys2Proof.Machine.execBsr e x disp s
  | .nop e => Sys2Proof.Machine.execNop e s
  | .rts e => Sys2Proof.Machine.execRts e s
  | .rete e => Sys2Proof.Machine.execRete e s
  | .fence e => Sys2Proof.Machine.execFence e s
  | .fenceComplete e => Sys2Proof.Machine.execFenceComplete e s
  | .brk e => Sys2Proof.Machine.execBrk e s
  | .leave e => Sys2Proof.Machine.execLeave e s
  | .jmp e a => Sys2Proof.Machine.execJmp e a s
  | .jsr e a => Sys2Proof.Machine.execJsr e a s
  | .trap e n => Sys2Proof.Machine.execTrap e n s
  | .rep e next => Sys2Proof.Machine.execRep e next s
  | .repe e next => Sys2Proof.Machine.execRepe e next s
  | .repne e next => Sys2Proof.Machine.execRepne e next s
  | .pfs e r => Sys2Proof.Machine.execPfs e r s
  | .wait e mask => Sys2Proof.Machine.execWait e mask s
  | .waitWake e => Sys2Proof.Machine.execWaitWake e s
  | .movs e z v => Sys2Proof.Machine.execMovs e z v s
  | .cmps e z v => Sys2Proof.Machine.execCmps e z v s
  | .scas e z v => Sys2Proof.Machine.execScas e z v s
  | .stos e z v => Sys2Proof.Machine.execStos e z v s
  | .lods e d z v => Sys2Proof.Machine.execLods e d z v s
  | .crcs e n z v rin inv => Sys2Proof.Machine.execCrcs e n z v rin inv s
  | .rolv e d r => Sys2Proof.Machine.execRolv e d r s
  | .rorv e d r => Sys2Proof.Machine.execRorv e d r s
  | .srx e d a => Sys2Proof.Machine.execSrx e d a s
  | .stx e d a => Sys2Proof.Machine.execStx e d a s
  | .streamBlockReady e => Sys2Proof.Machine.execStreamBlockReady e s
  | .doLoop e c len => Sys2Proof.Machine.execDoLoop e c len s
  | .eventInterrupt e => Sys2Proof.Machine.execEventInterrupt e s
  | .tmrExpiry e => Sys2Proof.Machine.execTmrExpiry e s
  | .reservedEncoding e next w => Sys2Proof.Machine.execReservedEncoding e next w s
  | .mpuRegisterWrite ini e off v => Sys2Proof.Machine.execMpuRegisterWrite ini e off v s
  | .engineRun ini e => Sys2Proof.Machine.execEngineRun ini e s
  | .engineHaltRequest ini e => Sys2Proof.Machine.execEngineHaltRequest ini e s
  | .engineHaltComplete e => Sys2Proof.Machine.execEngineHaltComplete e s
  | .rst ini e => Sys2Proof.Machine.execRst ini e s
  | .engineResetComplete e => Sys2Proof.Machine.execEngineResetComplete e s
  | .iso ini e => Sys2Proof.Machine.execIso ini e s
  | .engineStep ini e => Sys2Proof.Machine.execEngineStep ini e s
  | .snap ini e => Sys2Proof.Machine.execSnap ini e s
  | .snapComplete e => Sys2Proof.Machine.execSnapComplete e s
  | .restore ini e => Sys2Proof.Machine.execRestore ini e s
  | .restoreComplete e => Sys2Proof.Machine.execRestoreComplete e s
  | .engineTest ini e => Sys2Proof.Machine.execEngineTest ini e s
  | .engineTestComplete e pass => Sys2Proof.Machine.execEngineTestComplete e pass s
  | .clkenWrite ini e v => Sys2Proof.Machine.execClkenWrite ini e v s
  | .clkenDelayedAction e => Sys2Proof.Machine.execClkenDelayedAction e s
  | .programStoreWrite ini addr data => Sys2Proof.Machine.execProgramStoreWrite ini addr data s
  | .programStoreRead ini addr len upsets => Sys2Proof.Machine.execProgramStoreRead ini addr len upsets s
  | .loaderGo ini v => Sys2Proof.Machine.execLoaderGo ini v s
  | .loaderAbort ini units => Sys2Proof.Machine.execLoaderAbort ini units s
  | .loaderComplete => Sys2Proof.Machine.execLoaderComplete s
  | .laneIngressFrame l first last chunk err => Sys2Proof.Machine.execLaneIngressFrame l first last chunk err s
  | .egressUnderrun l => Sys2Proof.Machine.execEgressUnderrun l s
  | .laneCtlWrite ini l v => Sys2Proof.Machine.execLaneCtlWrite ini l v s
  | .laneSwap ini l => Sys2Proof.Machine.execLaneSwap ini l s
  | .laneSwapEffect l => Sys2Proof.Machine.execLaneSwapEffect l s
  | .registerWrite ini addr size v => Sys2Proof.Machine.execRegisterWrite ini addr size v s
  | .clearingRead ini addr size events => Sys2Proof.Machine.execClearingRead ini addr size events s
  | .latchingRead ini addr size => Sys2Proof.Machine.execLatchingRead ini addr size s
  | .fabricTransaction t upsets => Sys2Proof.Machine.execFabricTransaction t upsets s
  | .writeCompletion k => Sys2Proof.Machine.execWriteCompletion k s
  | .fabricTimeout k => Sys2Proof.Machine.execFabricTimeout k s
  | .pcieRequest bar op => Sys2Proof.Machine.execPcieRequest bar op s
  | .msixVectorUnmask v ctrl => Sys2Proof.Machine.execMsixVectorUnmask v ctrl s
  | .hostApertureWrite ini v => Sys2Proof.Machine.execHostApertureWrite ini v s
  | .lbExchangeAccess addr be write d => Sys2Proof.Machine.execLbExchangeAccess addr be write d s
  | .lbReadFirstHalf addr be => Sys2Proof.Machine.execLbReadFirstHalf addr be s
  | .lbReadSecondHalf addr be => Sys2Proof.Machine.execLbReadSecondHalf addr be s
  | .lbWriteFirstHalf addr be d => Sys2Proof.Machine.execLbWriteFirstHalf addr be d s
  | .lbWriteSecondHalf addr be d => Sys2Proof.Machine.execLbWriteSecondHalf addr be d s
  | .lbStrobeEarlyRise addr be write d started => Sys2Proof.Machine.execLbStrobeEarlyRise addr be write d started s
  | .channelDeclare => Sys2Proof.Machine.execChannelDeclare s
  | .deferredCommit => Sys2Proof.Machine.execDeferredCommit s
  | .channelStart => Sys2Proof.Machine.execChannelStart s
  | .channelRunning c => Sys2Proof.Machine.execChannelRunning c s
  | .channelStop => Sys2Proof.Machine.execChannelStop s
  | .channelStopped c => Sys2Proof.Machine.execChannelStopped c s
  | .channelMigrate => Sys2Proof.Machine.execChannelMigrate s
  | .migrationAbort => Sys2Proof.Machine.execMigrationAbort s
  | .channelUpdate => Sys2Proof.Machine.execChannelUpdate s
  | .keepUpdate => Sys2Proof.Machine.execKeepUpdate s
  | .bufferDeclare => Sys2Proof.Machine.execBufferDeclare s
  | .reserveSet => Sys2Proof.Machine.execReserveSet s
  | .selftest => Sys2Proof.Machine.execSelftest s
  | .query => Sys2Proof.Machine.execQuery s
  | .plmLxPoolWrite ini size v => Sys2Proof.Machine.execPlmLxPoolWrite ini size v s
  | .migrationPrepareDone c => Sys2Proof.Machine.execMigrationPrepareDone c s
  | .stateCopyStart c => Sys2Proof.Machine.execStateCopyStart c s
  | .stateCopyDone c skipped => Sys2Proof.Machine.execStateCopyDone c skipped s
  | .shadowCompare c inStep => Sys2Proof.Machine.execShadowCompare c inStep s
  | .shadowLagTimeout c => Sys2Proof.Machine.execShadowLagTimeout c s
  | .convTimeout c => Sys2Proof.Machine.execConvTimeout c s
  | .handoverCommit c => Sys2Proof.Machine.execHandoverCommit c s
  | .migrationRelease c => Sys2Proof.Machine.execMigrationRelease c s
  | .auditStart c cycle => Sys2Proof.Machine.execAuditStart c cycle s
  | .auditCompare c => Sys2Proof.Machine.execAuditCompare c s
  | .auditVote c => Sys2Proof.Machine.execAuditVote c s
  | .emergencyMigration c lost => Sys2Proof.Machine.execEmergencyMigration c lost s
  | .bankEvacuation k => Sys2Proof.Machine.execBankEvacuation k s
  | .keepBankSwap ready => Sys2Proof.Machine.execKeepBankSwap ready s
  | .keepFallback => Sys2Proof.Machine.execKeepFallback s
  | .rateWrite ini n v => Sys2Proof.Machine.execRateWrite ini n v s
  | .clockStep ini n => Sys2Proof.Machine.execClockStep ini n s
  | .clockSet ini n => Sys2Proof.Machine.execClockSet ini n s
  | .slewWrite ini n v => Sys2Proof.Machine.execSlewWrite ini n v s
  | .slewstop ini n => Sys2Proof.Machine.execSlewstop ini n s
  | .slewComplete n => Sys2Proof.Machine.execSlewComplete n s
  | .steeringAliasWrite ini p n off v => Sys2Proof.Machine.execSteeringAliasWrite ini p n off v s
  | .crossStamp ini => Sys2Proof.Machine.execCrossStamp ini s
  | .encoderRecord n pos z stamp => Sys2Proof.Machine.execEncoderRecord n pos z stamp s
  | .standstillTimeout n => Sys2Proof.Machine.execStandstillTimeout n s
  | .recordTimeout n => Sys2Proof.Machine.execRecordTimeout n s
  | .revsetWrite ini n v => Sys2Proof.Machine.execRevsetWrite ini n v s
  | .linLoad ini => Sys2Proof.Machine.execLinLoad ini s
  | .mainsZeroCrossing stamp => Sys2Proof.Machine.execMainsZeroCrossing stamp s
  | .mainsCrossingMissing => Sys2Proof.Machine.execMainsCrossingMissing s
  | .mainsHoldoverEnd => Sys2Proof.Machine.execMainsHoldoverEnd s
  | .calendarEnable ini k v => Sys2Proof.Machine.execCalendarEnable ini k v s
  | .calendarDisable ini k v => Sys2Proof.Machine.execCalendarDisable ini k v s
  | .calendarCommit k => Sys2Proof.Machine.execCalendarCommit k s
  | .calendarFire k => Sys2Proof.Machine.execCalendarFire k s
  | .anglePrediction k => Sys2Proof.Machine.execAnglePrediction k s
  | .softwareCapture ini v => Sys2Proof.Machine.execSoftwareCapture ini v s
  | .captureRdWrite ini v => Sys2Proof.Machine.execCaptureRdWrite ini v s
  | .portModeWrite ini p v => Sys2Proof.Machine.execPortModeWrite ini p v s
  | .portReset ini p => Sys2Proof.Machine.execPortReset ini p s
  | .ethBlkrst ini => Sys2Proof.Machine.execEthBlkrst ini s
  | .linkChange p up speed hdx => Sys2Proof.Machine.execLinkChange p up speed hdx s
  | .phyPoll p r1 r4 r5 r9 r10 => Sys2Proof.Machine.execPhyPoll p r1 r4 r5 r9 r10 s
  | .mdioTransaction ini v => Sys2Proof.Machine.execMdioTransaction ini v s
  | .mdioComplete ack => Sys2Proof.Machine.execMdioComplete ack s
  | .ringConfigWrite ini p k len v => Sys2Proof.Machine.execRingConfigWrite ini p k len v s
  | .tailWrite ini p k v => Sys2Proof.Machine.execTailWrite ini p k v s
  | .descriptorFetch p q => Sys2Proof.Machine.execDescriptorFetch p q s
  | .txFrameSelect p => Sys2Proof.Machine.execTxFrameSelect p s
  | .preemption p sent remain => Sys2Proof.Machine.execPreemption p sent remain s
  | .txUnderrun p sent => Sys2Proof.Machine.execTxUnderrun p sent s
  | .txWriteback p q => Sys2Proof.Machine.execTxWriteback p q s
  | .timedLaunch p q => Sys2Proof.Machine.execTimedLaunch p q s
  | .launchHandover p => Sys2Proof.Machine.execLaunchHandover p s
  | .launchLate p q => Sys2Proof.Machine.execLaunchLate p q s
  | .txCancel ini p q v => Sys2Proof.Machine.execTxCancel ini p q v s
  | .gateWrite ini p v => Sys2Proof.Machine.execGateWrite ini p v s
  | .gateActionHandover p => Sys2Proof.Machine.execGateActionHandover p s
  | .gateActionApply p => Sys2Proof.Machine.execGateActionApply p s
  | .rxFrame p kind bs aln full sfd => Sys2Proof.Machine.execRxFrame p kind bs aln full sfd s
  | .pauseExpiry p => Sys2Proof.Machine.execPauseExpiry p s
  | .preemptVerify p => Sys2Proof.Machine.execPreemptVerify p s
  | .lpiEntry p => Sys2Proof.Machine.execLpiEntry p s
  | .downshift p => Sys2Proof.Machine.execDownshift p s
  | .upshift p => Sys2Proof.Machine.execUpshift p s
  | .ctbStart ini => Sys2Proof.Machine.execCtbStart ini s
  | .ctbHalt ini => Sys2Proof.Machine.execCtbHalt ini s
  | .ctbHaltComplete => Sys2Proof.Machine.execCtbHaltComplete s
  | .ctbRestart ini => Sys2Proof.Machine.execCtbRestart ini s
  | .ctbBlkrst ini => Sys2Proof.Machine.execCtbBlkrst ini s
  | .tableValidationComplete star t => Sys2Proof.Machine.execTableValidationComplete star t s
  | .switchArm ini v => Sys2Proof.Machine.execSwitchArm ini v s
  | .switchCancel ini => Sys2Proof.Machine.execSwitchCancel ini s
  | .cycleStart => Sys2Proof.Machine.execCycleStart s
  | .listenTimeout => Sys2Proof.Machine.execListenTimeout s
  | .txBufferFetch k => Sys2Proof.Machine.execTxBufferFetch k s
  | .slotTransmit k => Sys2Proof.Machine.execSlotTransmit k s
  | .ctbFrameReceive c k bs code start stop => Sys2Proof.Machine.execCtbFrameReceive c k bs code start stop s
  | .slotWindowEnd k => Sys2Proof.Machine.execSlotWindowEnd k s
  | .offsetCorrection => Sys2Proof.Machine.execOffsetCorrection s
  | .leapRelease ini => Sys2Proof.Machine.execLeapRelease ini s
  | .starEnable ini v => Sys2Proof.Machine.execStarEnable ini v s
  | .starDisable ini => Sys2Proof.Machine.execStarDisable ini s
  | .starStartSequence c b pos => Sys2Proof.Machine.execStarStartSequence c b pos s
  | .starRelayEnd c how bs start stop => Sys2Proof.Machine.execStarRelayEnd c how bs start stop s
  | .starCycleEnd => Sys2Proof.Machine.execStarCycleEnd s
  | .starOffsetCorrection => Sys2Proof.Machine.execStarOffsetCorrection s
  | .branchRelease ini v => Sys2Proof.Machine.execBranchRelease ini v s
  | .starSwitchArm ini v => Sys2Proof.Machine.execStarSwitchArm ini v s
  | .starSwitchCancel ini => Sys2Proof.Machine.execStarSwitchCancel ini s
  | .bfyBlkrst ini => Sys2Proof.Machine.execBfyBlkrst ini s
  | .canFrameReceived n f ago => Sys2Proof.Machine.execCanFrameReceived n f ago s
  | .queueReturn ini n b v => Sys2Proof.Machine.execQueueReturn ini n b v s
  | .canTxRequest ini n v => Sys2Proof.Machine.execCanTxRequest ini n v s
  | .canTxCancel ini n v => Sys2Proof.Machine.execCanTxCancel ini n v s
  | .canTxSelect n => Sys2Proof.Machine.execCanTxSelect n s
  | .canTxSuccess n meas => Sys2Proof.Machine.execCanTxSuccess n meas s
  | .canTxAttemptFailed n lost => Sys2Proof.Machine.execCanTxAttemptFailed n lost s
  | .canBusError n tx code fast pos => Sys2Proof.Machine.execCanBusError n tx code fast pos s
  | .canProtocolException n => Sys2Proof.Machine.execCanProtocolException n s
  | .busoffRecoveryComplete n => Sys2Proof.Machine.execBusoffRecoveryComplete n s
  | .canHalt ini n v => Sys2Proof.Machine.execCanHalt ini n v s
  | .canHalted n => Sys2Proof.Machine.execCanHalted n s
  | .canLeaveHalt ini n v => Sys2Proof.Machine.execCanLeaveHalt ini n v s
  | .canBusIntegrated n => Sys2Proof.Machine.execCanBusIntegrated n s
  | .rxLayoutWrite ini n v => Sys2Proof.Machine.execRxLayoutWrite ini n v s
  | .canBlkrst ini n => Sys2Proof.Machine.execCanBlkrst ini n s
  | .carOut c q => Sys2Proof.Machine.execCarOut c q s
  | .carIn c q gp => Sys2Proof.Machine.execCarIn c q gp s
  | .carSet c q => Sys2Proof.Machine.execCarSet c q s
  | .carWait c q prev gp => Sys2Proof.Machine.execCarWait c q prev gp s
  | .carWaitComplete c q prev gp => Sys2Proof.Machine.execCarWaitComplete c q prev gp s
  | .carAt c q => Sys2Proof.Machine.execCarAt c q s
  | .atTargetReached c q gp => Sys2Proof.Machine.execAtTargetReached c q gp s
  | .carJmp c q gp => Sys2Proof.Machine.execCarJmp c q gp s
  | .carPull c q => Sys2Proof.Machine.execCarPull c q s
  | .pullComplete c q gp => Sys2Proof.Machine.execPullComplete c q gp s
  | .carPush c q => Sys2Proof.Machine.execCarPush c q s
  | .pushComplete c q gp => Sys2Proof.Machine.execPushComplete c q gp s
  | .carMov c q gp => Sys2Proof.Machine.execCarMov c q gp s
  | .carSig c q => Sys2Proof.Machine.execCarSig c q s
  | .carProgramWrite ini c w v => Sys2Proof.Machine.execCarProgramWrite ini c w v s
  | .txfWrite ini c q v => Sys2Proof.Machine.execTxfWrite ini c q v s
  | .rxfRead ini c q => Sys2Proof.Machine.execRxfRead ini c q s
  | .carillonMapWrite ini c v => Sys2Proof.Machine.execCarillonMapWrite ini c v s
  | .carRun ini c q => Sys2Proof.Machine.execCarRun ini c q s
  | .carStop ini c q => Sys2Proof.Machine.execCarStop ini c q s
  | .carRestart ini c q => Sys2Proof.Machine.execCarRestart ini c q s
  | .carExec ini c q v gp => Sys2Proof.Machine.execCarExec ini c q v gp s
  | .carBlkrst ini c => Sys2Proof.Machine.execCarBlkrst ini c s
  | .moverGo ini c q v => Sys2Proof.Machine.execMoverGo ini c q v s
  | .moverStop ini c q v => Sys2Proof.Machine.execMoverStop ini c q v s
  | .moverEnd c q rx => Sys2Proof.Machine.execMoverEnd c q rx s
  | .gpBankSupplyChange b level => Sys2Proof.Machine.execGpBankSupplyChange b level s
  | .sgmSwap ini => Sys2Proof.Machine.execSgmSwap ini s
  | .sgmSwapEffect => Sys2Proof.Machine.execSgmSwapEffect s
  | .sgmTrig ini v => Sys2Proof.Machine.execSgmTrig ini v s
  | .triggerAreaWrite ini a d => Sys2Proof.Machine.execTriggerAreaWrite ini a d s
  | .listRun => Sys2Proof.Machine.execListRun s
  | .sgmBlkrst ini => Sys2Proof.Machine.execSgmBlkrst ini s
  | .mailboxPost ini page n v => Sys2Proof.Machine.execMailboxPost ini page n v s
  | .mailboxConsume ini page n => Sys2Proof.Machine.execMailboxConsume ini page n s
  | .lvsPost ini page n v => Sys2Proof.Machine.execLvsPost ini page n v s
  | .lvsConsume ini page n => Sys2Proof.Machine.execLvsConsume ini page n s
  | .semaphoreTestAndSet ini page n => Sys2Proof.Machine.execSemaphoreTestAndSet ini page n s
  | .semaphoreRelease ini page n => Sys2Proof.Machine.execSemaphoreRelease ini page n s
  | .semaphoreForceRelease ini n => Sys2Proof.Machine.execSemaphoreForceRelease ini n s
  | .doorbellRing ini page v => Sys2Proof.Machine.execDoorbellRing ini page v s
  | .doorbellClear ini page v events => Sys2Proof.Machine.execDoorbellClear ini page v events s
  | .doorbellMaskWrite ini page v => Sys2Proof.Machine.execDoorbellMaskWrite ini page v s
  | .hostEpochBump ini => Sys2Proof.Machine.execHostEpochBump ini s
  | .errorQueueRead ini => Sys2Proof.Machine.execErrorQueueRead ini s
  | .scrubRead addr upsets => Sys2Proof.Machine.execScrubRead addr upsets s
  | .scrubPassEnd ended => Sys2Proof.Machine.execScrubPassEnd ended s
  | .bankPowerRequest ini k v => Sys2Proof.Machine.execBankPowerRequest ini k v s
  | .bankWakeComplete k => Sys2Proof.Machine.execBankWakeComplete k s
  | .bankInitComplete k => Sys2Proof.Machine.execBankInitComplete k s
  | .autoRetention k => Sys2Proof.Machine.execAutoRetention k s
  | .bankTest ini k => Sys2Proof.Machine.execBankTest ini k s
  | .bankTestComplete k pass => Sys2Proof.Machine.execBankTestComplete k pass s
  | .bankRetire ini k => Sys2Proof.Machine.execBankRetire ini k s
  | .mramWriteComplete => Sys2Proof.Machine.execMramWriteComplete s
  | .ddrTrain ini => Sys2Proof.Machine.execDdrTrain ini s
  | .ddrTrainingComplete ok => Sys2Proof.Machine.execDdrTrainingComplete ok s
  | .ddrInit ini => Sys2Proof.Machine.execDdrInit ini s
  | .ddrInitComplete => Sys2Proof.Machine.execDdrInitComplete s
  | .ddrRefresh => Sys2Proof.Machine.execDdrRefresh s
  | .ddrZqCalibration => Sys2Proof.Machine.execDdrZqCalibration s
  | .ddrDqsTracking => Sys2Proof.Machine.execDdrDqsTracking s
  | .ddrSegmentRetire ini k v => Sys2Proof.Machine.execDdrSegmentRetire ini k v s
  | .outboundAccess ini op => Sys2Proof.Machine.execOutboundAccess ini op s
  | .busAcquired => Sys2Proof.Machine.execBusAcquired s
  | .farAcknowledge d => Sys2Proof.Machine.execFarAcknowledge d s
  | .farBerr => Sys2Proof.Machine.execFarBerr s
  | .ackTimeout => Sys2Proof.Machine.execAckTimeout s
  | .ownTimeout => Sys2Proof.Machine.execOwnTimeout s
  | .lockTimeout => Sys2Proof.Machine.execLockTimeout s
  | .prefetchExpiry w => Sys2Proof.Machine.execPrefetchExpiry w s
  | .busClearIn bclr => Sys2Proof.Machine.execBusClearIn bclr s
  | .holdRequestIn => Sys2Proof.Machine.execHoldRequestIn s
  | .holdRequestEnd => Sys2Proof.Machine.execHoldRequestEnd s
  | .bpbAbort ini => Sys2Proof.Machine.execBpbAbort ini s
  | .inboundAccess am op => Sys2Proof.Machine.execInboundAccess am op s
  | .inboundWriteComplete => Sys2Proof.Machine.execInboundWriteComplete s
  | .busRequestIn req busy => Sys2Proof.Machine.execBusRequestIn req busy s
  | .busTimerExpiry => Sys2Proof.Machine.execBusTimerExpiry s
  | .sysrst ini => Sys2Proof.Machine.execSysrst ini s
  | .sysresetPulseEnd => Sys2Proof.Machine.execSysresetPulseEnd s
  | .sysresetIn on => Sys2Proof.Machine.execSysresetIn on s
  | .pollDue k => Sys2Proof.Machine.execPollDue k s
  | .irqLineAsserted l => Sys2Proof.Machine.execIrqLineAsserted l s
  | .irqRearm ini v => Sys2Proof.Machine.execIrqRearm ini v s
  | .iackIn l => Sys2Proof.Machine.execIackIn l s
  | .windowEnable ini w v => Sys2Proof.Machine.execWindowEnable ini w v s
  | .logRdWrite ini vector v => Sys2Proof.Machine.execLogRdWrite ini vector v s
  | .bpbBlkrst ini => Sys2Proof.Machine.execBpbBlkrst ini s
  | .safetyCycleStart => Sys2Proof.Machine.execSafetyCycleStart s
  | .computationTick => Sys2Proof.Machine.execComputationTick s
  | .fieldLinkFrameSend w => Sys2Proof.Machine.execFieldLinkFrameSend w s
  | .fieldLinkFrame up intact ident offset => Sys2Proof.Machine.execFieldLinkFrame up intact ident offset s
  | .fieldLinkTimeout die => Sys2Proof.Machine.execFieldLinkTimeout die s
  | .laneStuck l => Sys2Proof.Machine.execLaneStuck l s
  | .linkRetrain => Sys2Proof.Machine.execLinkRetrain s
  | .checkpoint core k => Sys2Proof.Machine.execCheckpoint core k s
  | .watchdogExpiry k63 => Sys2Proof.Machine.execWatchdogExpiry k63 s
  | .monMraWrite core v => Sys2Proof.Machine.execMonMraWrite core v s
  | .monFail core v => Sys2Proof.Machine.execMonFail core v s
  | .inputSample raw => Sys2Proof.Machine.execInputSample raw s
  | .discrepancyTimeout k => Sys2Proof.Machine.execDiscrepancyTimeout k s
  | .testPulseStart j => Sys2Proof.Machine.execTestPulseStart j s
  | .testDropSample j raw => Sys2Proof.Machine.execTestDropSample j raw s
  | .testPulseEnd j => Sys2Proof.Machine.execTestPulseEnd j s
  | .supplyOverload j => Sys2Proof.Machine.execSupplyOverload j s
  | .supplyRetry j => Sys2Proof.Machine.execSupplyRetry j s
  | .outputReadback levels => Sys2Proof.Machine.execOutputReadback levels s
  | .outputTestPulse m high => Sys2Proof.Machine.execOutputTestPulse m high s
  | .parameterCheck => Sys2Proof.Machine.execParameterCheck s
  | .sealLoopPulse returned => Sys2Proof.Machine.execSealLoopPulse returned s
  | .vbatLoss => Sys2Proof.Machine.execVbatLoss s
  | .psetLoad => Sys2Proof.Machine.execPsetLoad s
  | .psetConfirm => Sys2Proof.Machine.execPsetConfirm s
  | .runPermit => Sys2Proof.Machine.execRunPermit s
  | .sealAck => Sys2Proof.Machine.execSealAck s
  | .reactReset => Sys2Proof.Machine.execReactReset s
  | .holdAck => Sys2Proof.Machine.execHoldAck s
  | .fwLoad => Sys2Proof.Machine.execFwLoad s
  | .fwTakeover => Sys2Proof.Machine.execFwTakeover s
  | .takeoverSwitch => Sys2Proof.Machine.execTakeoverSwitch s
  | .cupolaQuery => Sys2Proof.Machine.execCupolaQuery s
  | .orderCopy => Sys2Proof.Machine.execOrderCopy s
  | .orderReply => Sys2Proof.Machine.execOrderReply s
  | .orderTimeout => Sys2Proof.Machine.execOrderTimeout s
  | .standbySelfTest => Sys2Proof.Machine.execStandbySelfTest s
  | .standbyTestComplete pass => Sys2Proof.Machine.execStandbyTestComplete pass s
  | .clockCheck dev => Sys2Proof.Machine.execClockCheck dev s
  | .fieldDieSelfTest pass => Sys2Proof.Machine.execFieldDieSelfTest pass s
  | .vigilEvent ecode res addr detail => Sys2Proof.Machine.execVigilEvent ecode res addr detail s
  | .vigilClassify => Sys2Proof.Machine.execVigilClassify s
  | .evqRead ini => Sys2Proof.Machine.execEvqRead ini s
  | .readmit ini res => Sys2Proof.Machine.execReadmit ini res s
  | .commissionRequest ini key => Sys2Proof.Machine.execCommissionRequest ini key s
  | .runRequest ini key => Sys2Proof.Machine.execRunRequest ini key s
  | .bootStart w => Sys2Proof.Machine.execBootStart w s
  | .bootComplete us => Sys2Proof.Machine.execBootComplete us s
  | .handshakeTimeout => Sys2Proof.Machine.execHandshakeTimeout s
  | .recoveryGo ini len trained => Sys2Proof.Machine.execRecoveryGo ini len trained s
  | .keyProg ini slot key => Sys2Proof.Machine.execKeyProg ini slot key s
  | .keyRevoke ini slot key => Sys2Proof.Machine.execKeyRevoke ini slot key s
  | .keyAdvance ini key => Sys2Proof.Machine.execKeyAdvance ini key s
  | .keyOpComplete => Sys2Proof.Machine.execKeyOpComplete s
  | .powerOnReset => Sys2Proof.Machine.execPowerOnReset s
  | .systemReset src => Sys2Proof.Machine.execSystemReset src s
  | .pcieReset => Sys2Proof.Machine.execPcieReset s
  | .keepReset c => Sys2Proof.Machine.execKeepReset c s
  | .kwd ini => Sys2Proof.Machine.execKwd ini s
  | .keepWatchdogExpiry => Sys2Proof.Machine.execKeepWatchdogExpiry s
  | .towerReset ini v => Sys2Proof.Machine.execTowerReset ini v s
  | .fieldDieReset inRange => Sys2Proof.Machine.execFieldDieReset inRange s
  | .supplyLoss rails => Sys2Proof.Machine.execSupplyLoss rails s
  | .clockFailure c => Sys2Proof.Machine.execClockFailure c s
  | .domainOffRequest ini d => Sys2Proof.Machine.execDomainOffRequest ini d s
  | .domainOnRequest ini d => Sys2Proof.Machine.execDomainOnRequest ini d s
  | .domainSwitchComplete d => Sys2Proof.Machine.execDomainSwitchComplete d s
  | .jtagExtest held capture update => Sys2Proof.Machine.execJtagExtest held capture update s
  | .jtagSamplePreload capture update => Sys2Proof.Machine.execJtagSamplePreload capture update s
  | .jtagIdcode => Sys2Proof.Machine.execJtagIdcode s
  | .jtagHighz held => Sys2Proof.Machine.execJtagHighz held s
  | .jtagClamp held => Sys2Proof.Machine.execJtagClamp held s
  | .jtagBypass => Sys2Proof.Machine.execJtagBypass s
  | .codeGroupAlignment star n on => Sys2Proof.Machine.execCodeGroupAlignment star n on s
  | .pcieLinkUp speed x2 => Sys2Proof.Machine.execPcieLinkUp speed x2 s
  | .pcieConfigurationRequest r => Sys2Proof.Machine.execPcieConfigurationRequest r s
  | .invalidWord c q => Sys2Proof.Machine.execInvalidWord c q s
  | .lpiReceived p on => Sys2Proof.Machine.execLpiReceived p on s
  | .lpiWake p => Sys2Proof.Machine.execLpiWake p s
  | .timedFrameFetch p q => Sys2Proof.Machine.execTimedFrameFetch p q s

end Sys2Proof.Machine
end

