-- ==== Sys2Proof/Machine/Tick.lean ====
section
/-! DEFINITION. What one tick of CK_TIME does while no command waits: the network clocks, the pin-time counter, and the cycle counters
and timers of running processors (R62, R64, R234, R235, R244; DESIGN CHOICE, log entry 5).
Choices of the model: log entries 5. -/

set_option autoImplicit false

namespace Sys2Proof.Machine

open Sys2Proof

/-- CK_FAB cycles in tick number `t`: 6.4 cycles in 8 ns. -/
def fabCycles (t : Nat) : Nat := 32 * (t + 1) / 5 - 32 * t / 5

/-- CYCLE and TMR of processor `e` while it is RUNNING or WAITING (R64, R102): TMR counts once in 10 ns and latches EV5 at the
transition from 1 to 0. -/
def State.tickEngine (s : State) (e : Nat) : State :=
  let x := s.eng e
  if x.st = .running || x.st = .waiting then
    let x := { x with cycle := x.cycle + word (fabCycles s.ticks) }
    if x.tmr = 0 then s.setEng e x
    else if x.tmrNs + 8 < 10 then s.setEng e { x with tmrNs := x.tmrNs + 8 }
    else if x.tmr = 1 then (s.setEng e { x with tmr := 0, tmrNs := 0 }).latchEv e 5
    else s.setEng e { x with tmr := x.tmr - 1, tmrNs := x.tmrNs - 2 }
  else s

/-- One tick of CK_TIME (8 ns). Held in reset, the logic die does not count. -/
def State.tick (s : State) : State :=
  if s.boot.held then s
  else
    let s := [0, 1, 2, 3].foldl (fun (s : State) n => s.tickClock n) s
    let s := s.tickPtc.setFlag ALM_STAT ALM_STAT_PTCLOCK true
    let s := (List.range 35).foldl (fun (s : State) e => s.tickEngine e) s
    { s with ticks := s.ticks + 1 }

end Sys2Proof.Machine
end

