-- ==== Sys2Proof/Machine/Step.lean ====
section
/-! DEFINITION. One step of the block: the command at the front of the queue, or a tick of CK_TIME when none waits.
Choices of the model: log entries 1, 5, 99, 108. -/

set_option autoImplicit false

namespace Sys2Proof.Machine

open Sys2Proof

/-- One step: the command at the front is taken and executed with the queue's rest; with no command waiting, a tick passes (log
entry 5). -/
def step (s : State) : Host.Outcome State Fault Refusal :=
  match s.pending with
  | [] => .next s.tick
  | c :: t => exec c { s with pending := t }

/-- The state with the command that a word spells at the front of its queue; a word that spells none leaves it unchanged. -/
def State.withFetchWord (s : State) (nbits w : Nat) : State :=
  match decodeTableWord nbits w with
  | some c => { s with pending := c :: s.pending }
  | none => s

end Sys2Proof.Machine
end

