-- ==== Sys2Proof/Safety.lean ====
section
/-! DEFINITION. What counts as safe: a command that is carried out, and the canonical form of the sparse tables that equal states need
to be equal data. -/

set_option autoImplicit false

namespace Sys2Proof.Machine

open Sys2Proof

/-- A command is carried out in a state: it is neither a fault nor a refusal. -/
def Runs (c : Instr) (s : State) : Prop := ∃ t, exec c s = .next t

/-- Memory is in its canonical form: addresses strictly rising, no byte equal to what an unlisted address reads as (log entry 4). -/
abbrev Memory.wf (m : List Host.Cell) : Prop := Tbl.wf emptyByte m

/-- The register words are in their canonical form. -/
abbrev Registers.wf (r : Tbl Word) : Prop := Tbl.wf regReset r

end Sys2Proof.Machine
end

