-- ==== Sys2Proof/Certificates/Slice0/Obligations.lean ====
section
/-! DEFINITION. The statements for the provers: what the commands do, what they leave alone, and what holds of every step. -/

set_option autoImplicit false

open Sys2Proof Sys2Proof.Machine

namespace Sys2Proof.Claims

/-! ### Words that several statements use -/

/-- Processor `e` issues the words `c` now: it is ready (R93, R163), the EXT chain is not too long (R74), and no word it fetches is in
error (R170). -/
abbrev Issues (s : State) (e : Nat) (c : Code) : Prop :=
  s.ready e = true ∧ c.x.length ≤ 2 ∧ (32 ≤ e ∨ ∀ j, j < c.len → s.mark (progAddr e ((s.eng e).pc.toNat + j)) = none)

/-- Command `i` issues on processor `e`. -/
abbrev IssuesCmd (s : State) (e : Nat) (i : Instr) : Prop := ∃ e' : Eng, ∃ c, instrCode? i = some (e', c) ∧ e'.val = e ∧ Issues s e c

/-- `t` is `s` with processor `e` become `y`; no other processor, register, byte of memory or other state has changed. -/
def OnlyEngine (s t : State) (e : Nat) (y : Engine) : Prop :=
  t.eng e = y ∧ (∀ k, k ≠ e → t.eng k = s.eng k) ∧ { t with engines := s.engines } = s

/-- Command `i` completes in `s` and changes nothing but processor `e`, which becomes `y`. -/
def Makes (i : Instr) (s : State) (e : Nat) (y : Engine) : Prop := ∃ t, exec i s = .next t ∧ OnlyEngine s t e y

/-- Processor `x` after an instruction of `n` words with effect `y` on its registers: the PC is in SYS_Ete_PC, the PC past the
instruction, or where the loop-end test of R85 puts it. -/
def done (x y : Engine) (n : Nat) : Engine := { y with lastPc := x.pc }.finish n

/-- PSW `q` has the flags C, V, N, Z, the sticky bit S of `p` or `clamped`, and every other bit of `p` (R56, R58). -/
def Flags (p q : Word) (c v n z clamped : Bool) : Prop :=
  fC q = c ∧ fV q = v ∧ fN q = n ∧ fZ q = z ∧ q.getLsbD 5 = (p.getLsbD 5 || clamped) ∧
    ∀ k, 4 ≤ k → k ≠ 5 → q.getLsbD k = p.getLsbD k

/-- Command `i` of `n` words puts `r` into D[d], sets N and Z by `r`, C to `c`, V to `v`, S if `clamped`, and changes nothing
else. -/
def PutsD (i : Instr) (s : State) (e : Eng) (n : Nat) (d : Fin 8) (r : Word) (c v clamped : Bool) : Prop :=
  ∃ q, Flags (s.psw e) q c v (r.getLsbD 31) (r == 0) clamped ∧
    Makes i s e (done (s.eng e) { s.eng e with d := (s.eng e).d.set d r, psw := q } n)

/-- Command `i` of `n` words sets the flags by the comparison of `a` with `b` (R115) and changes nothing else. -/
def Compares (i : Instr) (s : State) (e : Eng) (n : Nat) (a b : Word) : Prop :=
  ∃ q, Flags (s.psw e) q (decide (a.toNat < b.toNat)) (!in32 (a.toInt - b.toInt)) ((a - b).getLsbD 31) (a - b == 0) false ∧
    Makes i s e (done (s.eng e) { s.eng e with psw := q } n)

/-- C and V as they stand. -/
abbrev cOf (s : State) (e : Eng) : Bool := fC (s.psw e)
abbrev vOf (s : State) (e : Eng) : Bool := fV (s.psw e)

/-- A signed result `x` in 32 bits under SAT (R58): wrapped, or clamped where SAT is set and it overflows. -/
def wrapOrClamp (sat : Bool) (x : Int) : Word :=
  if in32 x then BitVec.ofInt 32 x else if sat then (if 0 < x then 0x7FFFFFFF else 0x80000000) else BitVec.ofInt 32 x

end Sys2Proof.Claims

open Sys2Proof.Claims

namespace Sys2Proof.Claims

/-- `t` is `s` with processor `e` become `y` and `q` its outstanding transactions; nothing else has changed. -/
def EngineAndQueue (s t : State) (e : Nat) (y : Engine) (q : List Txn) : Prop :=
  t.eng e = y ∧ (∀ k, k ≠ e → t.eng k = s.eng k) ∧ t.outst = q ∧ { t with engines := s.engines, outst := s.outst } = s

/-- The `n` bytes at `a` (`n` divides 16, `a` aligned) lie in tower SRAM, in a bank that is ON, and no word of them is in error. -/
def Plain (s : State) (a n : Nat) : Prop :=
  (n = 1 ∨ n = 2 ∨ n = 4 ∨ n = 16) ∧ 0x48000000 ≤ a ∧ a < 0x48800000 ∧ a % n = 0 ∧ s.bankState (bankOf a) = 0 ∧
    ∀ j, j < n → s.mark ((a + j) / 4 * 4) = none

/-- Engine `e` has no transaction outstanding, its MPU is off, and the device is out of reset. -/
def Direct (s : State) (e : Nat) : Prop :=
  e < 32 ∧ s.outst = [] ∧ s.boot.held = false ∧ s.flag (SYS_E_MPU_CTL e) SYS_E_MPU_CTL_EN = false

/-- `t` is `s` with processor `e` become `y` and the bytes `d` stored at `a`; every other byte of memory, every other processor, every
register and error mark is as before. -/
def Stores (s t : State) (e : Nat) (y : Engine) (a : Nat) (d : List Byte) : Prop :=
  t.eng e = y ∧ (∀ k, k ≠ e → t.eng k = s.eng k) ∧
    (∀ c, t.byte c = if a ≤ c ∧ c < a + d.length then d.getD (c - a) 0 else s.byte c) ∧
    (∀ g, t.mark g = s.mark g) ∧ t.vigil.queue = s.vigil.queue ∧
    { t with engines := s.engines, mem := s.mem, ecc := s.ecc, vigil := s.vigil } = s

/-- The pointer after a string element of size `z`, `v` the direction (R140): decremented where `v`, else incremented. -/
abbrev nextPtr (p : Word) (z : Size) (v : Bool) : Word := elemNext p z v

end Sys2Proof.Claims

/-! ### Yofiaz instructions -/

/-- MOV, AND, OR, XOR, EXTB, EXTH (R114): the result is in D[d]; N and Z follow it; the logic operations clear C and V, the others
keep them. -/
def Obligations.MoveAndLogicResults : Prop :=
  ∀ (s : State) (e : Eng) (d r : Fin 8) (x : Src),
    (IssuesCmd s e (.mov e d x) → PutsD (.mov e d x) s e 1 d (s.src e x) (cOf s e) (vOf s e) false) ∧
    (IssuesCmd s e (.and e d (.d r)) → PutsD (.and e d (.d r)) s e 1 d (s.dreg e d &&& s.dreg e r) false false false) ∧
    (IssuesCmd s e (.or e d (.d r)) → PutsD (.or e d (.d r)) s e 1 d (s.dreg e d ||| s.dreg e r) false false false) ∧
    (IssuesCmd s e (.xor e d (.d r)) → PutsD (.xor e d (.d r)) s e 1 d (s.dreg e d ^^^ s.dreg e r) false false false) ∧
    (IssuesCmd s e (.extb e d (.d r)) →
      PutsD (.extb e d (.d r)) s e 1 d (((s.dreg e r).truncate 8 : BitVec 8).signExtend 32) (cOf s e) (vOf s e) false) ∧
    (IssuesCmd s e (.exth e d (.d r)) →
      PutsD (.exth e d (.d r)) s e 1 d (((s.dreg e r).truncate 16 : BitVec 16).signExtend 32) (cOf s e) (vOf s e) false)

/-- ADD, SUB, NEG, CMP, ADDI, CMPI, CMPA (R115, R120, R125): result modulo 2^32 or clamped under SAT; C is the carry or borrow, V the
signed overflow. -/
def Obligations.AddSubtractCompareResults : Prop :=
  ∀ (s : State) (e : Eng) (d r : Fin 8) (x : Src) (y : ASrc) (ext : List (BitVec 11)) (imm : BitVec 6),
    let a := s.dreg e d
    let sat := fSat (s.psw e)
    let sum (b : Word) := a.toInt + b.toInt
    (IssuesCmd s e (.add e d x) →
      PutsD (.add e d x) s e 1 d (wrapOrClamp sat (sum (s.src e x))) (decide (2 ^ 32 ≤ a.toNat + (s.src e x).toNat))
        (!in32 (sum (s.src e x))) (!in32 (sum (s.src e x)) && sat)) ∧
    (IssuesCmd s e (.sub e d x) →
      PutsD (.sub e d x) s e 1 d (wrapOrClamp sat (a.toInt - (s.src e x).toInt)) (decide (a.toNat < (s.src e x).toNat))
        (!in32 (a.toInt - (s.src e x).toInt)) (!in32 (a.toInt - (s.src e x).toInt) && sat)) ∧
    (IssuesCmd s e (.neg e d (.d r)) →
      PutsD (.neg e d (.d r)) s e 1 d (wrapOrClamp sat (-(s.dreg e r).toInt)) (s.dreg e r != 0)
        (s.dreg e r == 0x80000000) (s.dreg e r == 0x80000000 && sat)) ∧
    (IssuesCmd s e (.addi e d ext imm) →
      PutsD (.addi e d ext imm) s e (ext.length + 1) d (wrapOrClamp sat (sum (extVal ext 6 imm.toNat)))
        (decide (2 ^ 32 ≤ a.toNat + (extVal ext 6 imm.toNat).toNat)) (!in32 (sum (extVal ext 6 imm.toNat)))
        (!in32 (sum (extVal ext 6 imm.toNat)) && sat)) ∧
    (IssuesCmd s e (.cmp e d x) → Compares (.cmp e d x) s e 1 a (s.src e x)) ∧
    (IssuesCmd s e (.cmpi e d ext imm) → Compares (.cmpi e d ext imm) s e (ext.length + 1) a (extVal ext 6 imm.toNat)) ∧
    (IssuesCmd s e (.cmpa e d y) → Compares (.cmpa e d y) s e (cAsrc 3 6 d y).len (s.areg e d) (s.asrc e y))

/-- MUL, DIV, DIVU (R116, R117): the 32-bit product, wrapped or clamped; quotient to D[d] and remainder to its pair register, truncating
toward zero, when the divisor is not zero. DIV clears DZ, C and V on operands that do not overflow. -/
def Sys2Proof.Claims.MultiplyDivideResults : Prop :=
  ∀ (s : State) (e : Eng) (d r : Fin 8),
    let a := s.dreg e d
    let b := s.dreg e r
    let x := s.eng e
    (IssuesCmd s e (.mul e d (.d r)) →
      PutsD (.mul e d (.d r)) s e 1 d (wrapOrClamp (fSat (s.psw e)) (a.toInt * b.toInt)) false (!in32 (a.toInt * b.toInt))
        (!in32 (a.toInt * b.toInt) && fSat (s.psw e))) ∧
    (IssuesCmd s e (.div e d (.d r)) → b ≠ 0 → ¬(a = 0x80000000 ∧ b = 0xFFFFFFFF) →
      ∃ q, Flags (putBit (s.psw e) 4 false) q false false ((a.sdiv b).getLsbD 31) (a.sdiv b == 0) false ∧
        Makes (.div e d (.d r)) s e
          (done x { x with d := (x.d.set d (a.sdiv b)).set (pairOf d) (a.srem b), psw := q } 1)) ∧
    (IssuesCmd s e (.divu e d (.d r)) → b ≠ 0 →
      ∃ q, Flags (putBit (s.psw e) 4 false) q false false ((a / b).getLsbD 31) (a / b == 0) false ∧
        Makes (.divu e d (.d r)) s e (done x { x with d := (x.d.set d (a / b)).set (pairOf d) (a % b), psw := q } 1))

/-- The registers of a divide pair are the two that differ in the lowest bit of their number, and a division by zero without TRAPDZ
sets DZ and gives the quotient of R59, the dividend as remainder. -/
def Sys2Proof.Claims.DivideByZeroValues : Prop :=
  ∀ (s : State) (e : Eng) (d r : Fin 8),
    (pairOf d).val = d.val ^^^ 1 ∧
    (s.dreg e r = 0 → fTrapDz (pswRead e (s.eng e)) = false →
      (IssuesCmd s e (.div e d (.d r)) →
        ∃ q, fV q = false ∧ fC q = false ∧ q.getLsbD 4 = true ∧ (∀ k, 5 ≤ k → q.getLsbD k = (s.psw e).getLsbD k) ∧
          Makes (.div e d (.d r)) s e
            (done (s.eng e) { s.eng e with
              d := ((s.eng e).d.set d (if (s.dreg e d).getLsbD 31 then 0x80000000 else 0x7FFFFFFF)).set (pairOf d) (s.dreg e d)
              psw := q } 1)) ∧
      (IssuesCmd s e (.divu e d (.d r)) →
        ∃ q, fV q = false ∧ fC q = false ∧ q.getLsbD 4 = true ∧ (∀ k, 5 ≤ k → q.getLsbD k = (s.psw e).getLsbD k) ∧
          Makes (.divu e d (.d r)) s e
            (done (s.eng e) { s.eng e with
              d := ((s.eng e).d.set d 0xFFFFFFFF).set (pairOf d) (s.dreg e d), psw := q } 1)))

/-- Shifts and rotates (R59, R60, R118, R119, R143): the value, C the last bit shifted out (0 for count 0), V cleared; the register
forms take their count from the source register modulo 256. -/
def Obligations.ShiftRotateResults : Prop :=
  ∀ (s : State) (e : Eng) (d r : Fin 8) (k : Fin 32),
    let a := s.dreg e d
    let n := (s.dreg e r).toNat % 256
    (IssuesCmd s e (.shl e d k) →
      PutsD (.shl e d k) s e 1 d (a <<< k.val) (decide (k.val ≠ 0) && a.getLsbD (32 - k.val)) false false) ∧
    (IssuesCmd s e (.shr e d k) →
      PutsD (.shr e d k) s e 1 d (a >>> k.val) (decide (k.val ≠ 0) && a.getLsbD (k.val - 1)) false false) ∧
    (IssuesCmd s e (.sar e d k) →
      PutsD (.sar e d k) s e 1 d (a.sshiftRight k.val) (decide (k.val ≠ 0) && a.getLsbD (k.val - 1)) false false) ∧
    (IssuesCmd s e (.rol e d k) →
      PutsD (.rol e d k) s e 1 d (a.rotateLeft k.val) (decide (k.val ≠ 0) && (a.rotateLeft k.val).getLsbD 0) false false) ∧
    (IssuesCmd s e (.ror e d k) →
      PutsD (.ror e d k) s e 1 d (a.rotateRight k.val) (decide (k.val ≠ 0) && (a.rotateRight k.val).getLsbD 31) false false) ∧
    (IssuesCmd s e (.shlv e d (.d r)) →
      PutsD (.shlv e d (.d r)) s e 1 d (a <<< n) (decide (0 < n ∧ n ≤ 32) && a.getLsbD (32 - n)) false false) ∧
    (IssuesCmd s e (.shrv e d (.d r)) →
      PutsD (.shrv e d (.d r)) s e 1 d (a >>> n) (decide (0 < n) && a.getLsbD (n - 1)) false false) ∧
    (IssuesCmd s e (.sarv e d (.d r)) →
      PutsD (.sarv e d (.d r)) s e 1 d (a.sshiftRight n) (decide (0 < n) && a.getLsbD (min n 32 - 1)) false false) ∧
    (IssuesCmd s e (.rolv e d r) →
      PutsD (.rolv e d r) s e 1 d (a.rotateLeft n) (decide (0 < n) && (a.rotateLeft n).getLsbD 0) false false) ∧
    (IssuesCmd s e (.rorv e d r) →
      PutsD (.rorv e d r) s e 1 d (a.rotateRight n) (decide (0 < n) && (a.rotateRight n).getLsbD 31) false false)

/-- BSET, BCLR, BTST (R119) set Z to the complement of the bit before; MOVI, ANDI, LDI (R120, R125) take the immediate formed by the
EXT words (R73). -/
def Obligations.BitAndImmediateResults : Prop :=
  ∀ (s : State) (e : Eng) (d : Fin 8) (k : Fin 32) (ext : List (BitVec 11)) (imm : BitVec 6) (own : PWord),
    let a := s.dreg e d
    let x := s.eng e
    (IssuesCmd s e (.bset e d k) →
      ∃ q, Flags (s.psw e) q (cOf s e) (vOf s e) (fN (s.psw e)) (!a.getLsbD k) false ∧
        Makes (.bset e d k) s e (done x { x with d := x.d.set d (a ||| ((1 : Word) <<< k.val)), psw := q } 1)) ∧
    (IssuesCmd s e (.bclr e d k) →
      ∃ q, Flags (s.psw e) q (cOf s e) (vOf s e) (fN (s.psw e)) (!a.getLsbD k) false ∧
        Makes (.bclr e d k) s e (done x { x with d := x.d.set d (a &&& ~~~((1 : Word) <<< k.val)), psw := q } 1)) ∧
    (IssuesCmd s e (.btst e d k) →
      ∃ q, Flags (s.psw e) q (cOf s e) (vOf s e) (fN (s.psw e)) (!a.getLsbD k) false ∧
        Makes (.btst e d k) s e (done x { x with psw := q } 1)) ∧
    (IssuesCmd s e (.movi e d ext imm) →
      PutsD (.movi e d ext imm) s e (ext.length + 1) d (extVal ext 6 imm.toNat) (cOf s e) (vOf s e) false) ∧
    (IssuesCmd s e (.andi e d ext imm) →
      PutsD (.andi e d ext imm) s e (ext.length + 1) d (a &&& extVal ext 6 imm.toNat) false false false) ∧
    (IssuesCmd s e (.ldi e d ext own) →
      PutsD (.ldi e d ext own) s e (ext.length + 2) d (extVal ext 14 own.toNat) (cOf s e) (vOf s e) false)

/-- MOVA, ADDA, SUBA (R124) change A[a] and no flag; MAC, CSUM, ACW (R53, R126-R128) change accumulator AC[n]; PFS on a Yofiaz-S core
rotates and folds the program-flow signature (R151). -/
def Obligations.AddressAndAccumulatorResults : Prop :=
  ∀ (s : State) (e : Eng) (a b : Fin 8) (n : Fin 4) (x : Src) (y : ASrc),
    let g := s.eng e
    (IssuesCmd s e (.mova e a y) →
      Makes (.mova e a y) s e (done g { g with a := g.a.set a (s.asrc e y) } (cAsrc 0 4 a y).len)) ∧
    (IssuesCmd s e (.adda e a y) →
      Makes (.adda e a y) s e (done g { g with a := g.a.set a (s.areg e a + s.asrc e y) } (cAsrc 1 5 a y).len)) ∧
    (IssuesCmd s e (.suba e a x) →
      Makes (.suba e a x) s e (done g { g with a := g.a.set a (s.areg e a - s.src e x) } 1)) ∧
    (let v := (s.accu e n).toInt +
        ((s.dreg e a).truncate 16 : BitVec 16).toInt * ((s.dreg e b).truncate 16 : BitVec 16).toInt
      let o := !(decide (-2 ^ 47 ≤ v) && decide (v < 2 ^ 47))
      let r : Acc := if o && fSat (s.psw e) then (if 0 < v then BitVec.ofNat 48 (2 ^ 47 - 1) else BitVec.ofNat 48 (2 ^ 47))
        else BitVec.ofInt 48 v
      IssuesCmd s e (.mac e n a b) →
        ∃ q, Flags (s.psw e) q (cOf s e) o (fN (s.psw e)) (fZ (s.psw e)) (o && fSat (s.psw e)) ∧
          Makes (.mac e n a b) s e (done g { g with ac := g.ac.set n r, psw := q } 1)) ∧
    (IssuesCmd s e (.csum e n a) →
      Makes (.csum e n a) s e (done g { g with
        ac := g.ac.set n (s.accu e n + ((s.dreg e a) &&& 0xFFFF).zeroExtend 48 + ((s.dreg e a) >>> 16).zeroExtend 48) } 1)) ∧
    (IssuesCmd s e (.acw e false n a) →
      Makes (.acw e false n a) s e (done g { g with ac := g.ac.set n ((s.dreg e a).signExtend 48) } 1)) ∧
    (IssuesCmd s e (.acw e true n a) →
      Makes (.acw e true n a) s e (done g { g with
        ac := g.ac.set n (((s.dreg e a).truncate 16 : BitVec 16) ++ ((s.accu e n).truncate 32 : BitVec 32)) } 1)) ∧
    (33 ≤ e.val → IssuesCmd s e (.pfs e a) →
      Makes (.pfs e a) s e (done g { g with pfsig := g.pfsig.rotateLeft 1 ^^^ s.dreg e a } 1))

/-- ACR (R129) reads an accumulator truncated, clamped to 32 bits (V, and S where clamped), its bits 47:32, or its one's-complement
fold; MTC and MFC (R130) write and read the control registers. -/
def Obligations.AccumulatorReadsAndControlRegisters : Prop :=
  ∀ (s : State) (e : Eng) (d : Fin 8) (n : Fin 4) (y : Fin 16),
    let c := s.accu e n
    let clamped := !in32 c.toInt
    (IssuesCmd s e (.acr e d .t n) → PutsD (.acr e d .t n) s e 1 d (c.truncate 32) (cOf s e) (vOf s e) false) ∧
    (IssuesCmd s e (.acr e d .s n) → PutsD (.acr e d .s n) s e 1 d (wrapOrClamp true c.toInt) (cOf s e) clamped clamped) ∧
    (IssuesCmd s e (.acr e d .g n) → PutsD (.acr e d .g n) s e 1 d ((c >>> 32).truncate 32) (cOf s e) (vOf s e) false) ∧
    (IssuesCmd s e (.acr e d .f n) → ∃ f : Nat, f < 65536 ∧ (f % 65535 = c.toNat % 65535) ∧ (f = 0 ↔ c = 0) ∧
      PutsD (.acr e d .f n) s e 1 d (word f) (cOf s e) (vOf s e) false) ∧
    (crIllegal e y = false → IssuesCmd s e (.mtc e y d) →
      Makes (.mtc e y d) s e (done (s.eng e) ((s.eng e).crWrite e y (s.dreg e d)) 1)) ∧
    (crIllegal e y = false → IssuesCmd s e (.mfc e d y) →
      PutsD (.mfc e d y) s e 1 d (s.crRead e y) (cOf s e) (vOf s e) false)

/-- NOP, LEAVE, DO, the branches and JMP (R84-R88, R131-R134, R146): where the PC goes, and the loop registers; a taken branch or jump
passes no loop-end test. -/
def Sys2Proof.Claims.BranchesAndLoops : Prop :=
  ∀ (s : State) (e : Eng) (c : Cond) (ext : List (BitVec 11)) (disp : BitVec 7) (a d : Fin 8) (k : Fin 16) (len : Fin 32),
    let x := s.eng e
    let enters (n : Word) (body : Nat) : Engine := { x with
      lastPc := x.pc, pc := x.pc + 1, depth := x.depth + 1, lc := x.lc.setIfInBounds x.depth n
      ls := x.ls.setIfInBounds x.depth (x.pc + 1), le := x.le.setIfInBounds x.depth (x.pc + BitVec.ofNat 14 body) }
    let free := hasLoops e = true ∧ x.depth < 3 ∧ ¬(x.base < x.depth ∧ x.le.getD (x.depth - 1) 0 = x.pc)
    (IssuesCmd s e (.nop e) → Makes (.nop e) s e (done x x 1)) ∧
    (IssuesCmd s e (.branch e c ext disp) → condHolds c (s.psw e) = true →
      Makes (.branch e c ext disp) s e { x with
        lastPc := x.pc, pc := x.pc + BitVec.ofNat 14 ext.length + (extVal ext 7 disp.toNat).truncate 14 }) ∧
    (IssuesCmd s e (.branch e c ext disp) → condHolds c (s.psw e) = false →
      Makes (.branch e c ext disp) s e (done x x (ext.length + 1))) ∧
    (IssuesCmd s e (.jmp e a) → Makes (.jmp e a) s e { x with lastPc := x.pc, pc := (s.areg e a).truncate 14 }) ∧
    (IssuesCmd s e (.leave e) → hasLoops e = true → x.base < x.depth →
      Makes (.leave e) s e (done x { x with depth := x.depth - 1 } 1)) ∧
    (IssuesCmd s e (.doLoop e (.reg d) len) → free → s.dreg e d ≠ 0 →
      Makes (.doLoop e (.reg d) len) s e (enters (s.dreg e d) (len.val + 1))) ∧
    (IssuesCmd s e (.doLoop e (.reg d) len) → free → s.dreg e d = 0 →
      Makes (.doLoop e (.reg d) len) s e { x with lastPc := x.pc, pc := x.pc + BitVec.ofNat 14 (len.val + 2) }) ∧
    (IssuesCmd s e (.doLoop e (.imm k) len) → free →
      Makes (.doLoop e (.imm k) len) s e (enters (word (k.val + 1)) (len.val % 16 + 1)))

/-- The loop-end test (R85): an instruction whose last word is the end of the innermost loop above BASE goes back to its start with the
count one less, or leaves the loop at count 1 or 0; elsewhere the PC goes past it. -/
def Sys2Proof.Claims.LoopEndTest : Prop :=
  ∀ (x : Engine) (n : Nat),
    let last := x.pc + BitVec.ofNat 14 (n - 1)
    let at' := x.base < x.depth ∧ x.le.getD (x.depth - 1) 0 = last
    (¬at' → x.finish n = { x with pc := last + 1 }) ∧
    (at' → 1 < (x.lc.getD (x.depth - 1) 0).toNat →
      x.finish n = { x with
        lc := x.lc.setIfInBounds (x.depth - 1) (x.lc.getD (x.depth - 1) 0 - 1), pc := x.ls.getD (x.depth - 1) 0 }) ∧
    (at' → (x.lc.getD (x.depth - 1) 0).toNat ≤ 1 →
      (x.depth = x.base + 1 ∨ x.le.getD (x.depth - 2) 0 ≠ last) →
      x.finish n = { x with lc := x.lc.setIfInBounds (x.depth - 1) 0, depth := x.depth - 1, pc := last + 1 })

/-- LD, ST, BSR, JSR (R68-R72, R121, R132) post their access to the fabric: a load stalls its processor until the data return; a store
and the push of a return address complete at once. The address is the one the mode gives. -/
def Obligations.LoadsStoresAndCallsPost : Prop :=
  ∀ (s : State) (e : Eng) (z : Size) (d a : Fin 8) (m : Mode) (ext : List (BitVec 11)) (disp : BitVec 7),
    let x := s.eng e
    let ea := s.ea e z a m
    let a7 := x.a.getD 7 0 - 4
    let free (ad : Word) (size : Nat) := isSafe e = false ∧ ad.toNat % size = 0 ∧ s.tagFree e = true
    let bump (y : Engine) : Engine := match m with
      | .postInc => { y with a := y.a.set a (s.areg e a + word (sizeBytes z)) }
      | .preDec => { y with a := y.a.set a (s.areg e a - word (sizeBytes z)) }
      | _ => y
    (IssuesCmd s e (.ld e z d a m) → free ea (sizeBytes z) → s.mpuOk e ea.toNat false = true →
      ∃ t, exec (.ld e z d a m) s = .next t ∧
        EngineAndQueue s t e { x with lastPc := x.pc, stall := .load z d a m ea }
          (s.outst ++ [⟨eRpn e, eInit e, .read ea.toNat (sizeBytes z), none⟩])) ∧
    (IssuesCmd s e (.st e z d a m) → free ea (sizeBytes z) → s.mpuOk e ea.toNat true = true →
      ∃ t, exec (.st e z d a m) s = .next t ∧
        EngineAndQueue s t e (done x (bump x) (cMem 1 z d a m).len)
          (s.outst ++ [⟨eRpn e, eInit e, .write ea.toNat (toBytes (s.dreg e d).toNat (sizeBytes z)), none⟩])) ∧
    (IssuesCmd s e (.bsr e ext disp) → free a7 4 → s.mpuOk e a7.toNat true = true →
      ∃ t, exec (.bsr e ext disp) s = .next t ∧
        EngineAndQueue s t e { x with
            lastPc := x.pc, a := x.a.setIfInBounds 7 a7
            pc := x.pc + BitVec.ofNat 14 ext.length + (extVal ext 7 disp.toNat).truncate 14 }
          (s.outst ++ [⟨eRpn e, eInit e,
            .write a7.toNat (toBytes (x.pc + BitVec.ofNat 14 (ext.length + 1)).toNat 4), none⟩])) ∧
    (IssuesCmd s e (.jsr e a) → free a7 4 → s.mpuOk e a7.toNat true = true →
      ∃ t, exec (.jsr e a) s = .next t ∧
        EngineAndQueue s t e { x with lastPc := x.pc, a := x.a.setIfInBounds 7 a7, pc := (s.areg e a).truncate 14 }
          (s.outst ++ [⟨eRpn e, eInit e, .write a7.toNat (toBytes (x.pc + 1).toNat 4), none⟩]))

/-- LOAD_DATA_RETURN (R71, R72, R121): the data of the served read go zero-extended to D[d], the mode updates its register, and the
load completes; its transaction leaves the outstanding ones. -/
def Obligations.LoadDataReturns : Prop :=
  ∀ (s : State) (e : Eng) (z : Size) (d a : Fin 8) (m : Mode) (ad : Word) (k : Nat) (tx : Txn) (l : List Byte),
    let x := s.eng e
    let y := { x with stall := .none, d := x.d.set d (word (ofBytes l)) }
    let bump (y : Engine) : Engine := match m with
      | .postInc => { y with a := y.a.set a (s.areg e a + word (sizeBytes z)) }
      | .preDec => { y with a := y.a.set a (s.areg e a - word (sizeBytes z)) }
      | _ => y
    isSafe e = false → x.stall = .load z d a m ad → s.servedRead (eRpn e) = some k → s.outst[k]? = some tx →
      tx.done = some (.data l) →
      ∃ t, exec (.loadDataReturn e) s = .next t ∧
        EngineAndQueue s t e ((bump y).finish (cMem 0 z d a m).len) (s.outst.eraseIdx k)

/-- RTS, RETE (R96, R134): the return address, or the PC, PSW, GIE and loop control of the frame, come back from the stack; A7 goes up
by 4 or 16. -/
def Sys2Proof.Claims.ReturnsFromStack : Prop :=
  ∀ (s : State) (e : Eng),
    let x := s.eng e
    let a7 := x.a.getD 7 0
    let w0 := s.memWord a7.toNat
    let w1 := s.memWord (a7.toNat + 4)
    Direct s e → Plain s a7.toNat 4 →
      (IssuesCmd s e (.rts e) →
        Makes (.rts e) s e { x with lastPc := x.pc, a := x.a.setIfInBounds 7 (a7 + 4), pc := w0.truncate 14 }) ∧
      (IssuesCmd s e (.rete e) → Plain s (a7.toNat + 4) 4 →
        let y := { x with
          lastPc := x.pc, pc := w0.truncate 14, psw := w1 &&& 0x33F, a := x.a.setIfInBounds 7 (a7 + 16)
          evie := (x.evie &&& 0xFF) ||| (if w0.getLsbD 21 then 0x100 else 0) }
        Makes (.rete e) s e (if hasLoops e then { y with
            depth := bitsOf w0.toNat 24 2, base := min (bitsOf w0.toNat 26 2) (bitsOf w0.toNat 24 2) } else y))

/-- Taking an exception (R91, R94, R95, R136): TRAP, BRK, a reserved word, a due event interrupt and a held imprecise bus error lower A7
by 16, store the four frame words there, clear GIE, set BASE to DEPTH, and go on at the address in the vector's program word. -/
def Sys2Proof.Claims.ExceptionEntries : Prop :=
  ∀ (s : State) (e : Eng) (n : Fin 8) (v : Nat) (ad : Word) (w : PWord) (ext : Fin 3),
    let x := s.eng e
    let a7 := x.a.getD 7 0 - 16
    let enters (i : Instr) (y : Engine) (vec : Nat) (faddr : Word) (w3 : Nat) (rep imp : Bool) : Prop :=
      ∃ t, exec i s = .next t ∧
        Stores s t e { y with
            a := y.a.setIfInBounds 7 a7, evie := y.evie &&& 0xFF, base := y.depth, pc := s.progWord e vec, lastVec := vec
            excCnt := satAdd 16 y.excCnt 1, stall := .none, st := .running }
          a7.toNat
          (toBytes (y.pc.toNat + vec * 2 ^ 16 + bit (x.evie.getLsbD 8) * 2 ^ 21 + bit rep * 2 ^ 22 + bit imp * 2 ^ 23 +
              y.depth * 2 ^ 24 + y.base * 2 ^ 26) 4 ++
            toBytes x.psw.toNat 4 ++ toBytes faddr.toNat 4 ++ toBytes (w3 + (s.evPending e).toNat * 2 ^ 16) 4)
    Direct s e → (∀ j, j < 4 → Plain s (a7.toNat + 4 * j) 4) → x.depth ≤ 3 → x.base ≤ 3 →
      (IssuesCmd s e (.trap e n) → s.mark (progAddr e (16 + n.val)) = none →
        enters (.trap e n) (done x x 1) (16 + n.val) 0 (0x3040 + n.val) false false) ∧
      (IssuesCmd s e (.brk e) → s.mark (progAddr e 9) = none → enters (.brk e) (done x x 1) 9 0 0x3020 false false) ∧
      (s.ready e = true → (∀ j, j ≤ ext.val → s.mark (progAddr e (x.pc.toNat + j)) = none) → s.mark (progAddr e 1) = none →
        enters (.reservedEncoding e ext w) { x with lastPc := x.pc } 1 0 (w.toNat + ext.val * 2 ^ 14) false false) ∧
      (x.boundary = true → x.imprecise = none → x.haltReq = false → s.eventDue e = some v → s.mark (progAddr e (24 + v)) = none →
        enters (.eventInterrupt e) x (24 + v) 0 0 (x.stall == .rep) false) ∧
      (x.boundary = true → x.stall ≠ .fence → x.imprecise = some ad → s.mark (progAddr e 6) = none →
        enters (.impreciseBusError e) { x with imprecise := none } 6 ad 0 (x.stall == .rep) true)

/-- The waits of a processor (R64, R100, R101, R135): FENCE waits for its transactions, WAIT for an event of its mask; the wake-up
completes the instruction. TMR counting from 1 to 0 latches EV5. -/
def Obligations.WaitsAndWakeups : Prop :=
  ∀ (s : State) (e : Eng) (m : BitVec 8),
    let x := s.eng e
    (IssuesCmd s e (.fence e) → s.outCount (eRpn e) = 0 → Makes (.fence e) s e (done x x 1)) ∧
    (IssuesCmd s e (.fence e) → isSafe e = false → s.outCount (eRpn e) ≠ 0 →
      Makes (.fence e) s e { x with lastPc := x.pc, st := .waiting, stall := .fence }) ∧
    (x.st = .waiting → x.stall = .fence → s.outCount (eRpn e) = 0 → s.eventDue e = none → x.haltReq = false →
      Makes (.fenceComplete e) s e ({ x with st := .running, stall := .none }.finish 1)) ∧
    (IssuesCmd s e (.wait e m) → s.evPending e &&& m ≠ 0 → Makes (.wait e m) s e (done x x 1)) ∧
    (IssuesCmd s e (.wait e m) → m ≠ 0 → s.evPending e &&& m = 0 →
      Makes (.wait e m) s e { x with lastPc := x.pc, st := .waiting, stall := .wait m }) ∧
    (x.st = .waiting → x.stall = .wait m → s.evPending e &&& m ≠ 0 → x.imprecise = none → s.eventDue e = none →
      x.haltReq = false → Makes (.waitWake e) s e ({ x with st := .running, stall := .none }.finish 1)) ∧
    (x.tmr = 1 → (x.st = .running ∨ x.st = .waiting) →
      Makes (.tmrExpiry e) s e { x with tmr := 0, tmrNs := 0, evpend := x.evpend ||| 0x20 })

/-- String instructions on aligned elements in SRAM (R76-R78, R139-R141): MOVS, CMPS, SCAS, STOS, LODS, CRCS move, compare or fold one
element and step their pointers. -/
def Sys2Proof.Claims.StringElements : Prop :=
  ∀ (s : State) (e : Eng) (z : Size) (v rin inv : Bool) (d : Fin 8) (n : Fin 4),
    let x := s.eng e
    let p := s.areg e 5
    let q := s.areg e 6
    let pa := elemAt p z v
    let qa := elemAt q z v
    let src := word (ofBytes (s.bytes pa.toNat (sizeBytes z)))
    let dst := word (ofBytes (s.bytes qa.toNat (sizeBytes z)))
    let step5 (y : Engine) : Engine := { y with a := y.a.set 5 (nextPtr p z v) }
    let step6 (y : Engine) : Engine := { y with a := y.a.set 6 (nextPtr q z v) }
    Direct s e →
      (IssuesCmd s e (.movs e z v) → Plain s pa.toNat (sizeBytes z) → Plain s qa.toNat (sizeBytes z) →
        ∃ t, exec (.movs e z v) s = .next t ∧
          Stores s t e (done x (step6 (step5 x)) 1) qa.toNat (toBytes src.toNat (sizeBytes z))) ∧
      (IssuesCmd s e (.stos e z v) → Plain s qa.toNat (sizeBytes z) →
        ∃ t, exec (.stos e z v) s = .next t ∧
          Stores s t e (done x (step6 x) 1) qa.toNat (toBytes (s.dreg e 6).toNat (sizeBytes z))) ∧
      (IssuesCmd s e (.cmps e z v) → Plain s pa.toNat (sizeBytes z) → Plain s qa.toNat (sizeBytes z) →
        ∃ f, Flags (s.psw e) f (decide (src.toNat < dst.toNat)) (!in32 (src.toInt - dst.toInt)) ((src - dst).getLsbD 31)
            (src - dst == 0) false ∧
          Makes (.cmps e z v) s e (done x (step6 (step5 { x with psw := f })) 1)) ∧
      (IssuesCmd s e (.scas e z v) → Plain s pa.toNat (sizeBytes z) →
        let low := word ((s.dreg e 6).toNat % 2 ^ (8 * sizeBytes z))
        ∃ f, Flags (s.psw e) f (decide (low.toNat < src.toNat)) (!in32 (low.toInt - src.toInt)) ((low - src).getLsbD 31)
            (low - src == 0) false ∧
          Makes (.scas e z v) s e (done x (step5 { x with psw := f }) 1)) ∧
      (IssuesCmd s e (.lods e d z v) → d ≠ 7 → Plain s pa.toNat (sizeBytes z) →
        ∃ f, Flags (s.psw e) f (cOf s e) (vOf s e) (src.getLsbD 31) (src == 0) false ∧
          Makes (.lods e d z v) s e (done x (step5 { x with d := x.d.set d src, psw := f }) 1)) ∧
      (IssuesCmd s e (.crcs e n z v rin inv) → Plain s pa.toNat (sizeBytes z) →
        Makes (.crcs e n z v rin inv) s e (done x (step5 { x with
          ac := x.ac.set n (((s.bytes pa.toNat (sizeBytes z)).foldl (crcsByte (s.dreg e 6) rin inv)
            ((s.accu e n).truncate 32)).zeroExtend 48) }) 1))

/-- REP, REPE, REPNE (R79, R80): with D7 = 0 the pair of words completes; else an element is performed as without prefix, D7 counts one
down, and the repetition goes on, within the command where the next element lies in the same word of the tower (R82), or completes when D7
is 0 or the flag Z ends it. -/
def Sys2Proof.Claims.RepeatedStringElements : Prop :=
  ∀ (s u : State) (e : Eng) (z : Size) (v : Bool) (p : Prefix) (o : StrOp),
    let cmd (p : Prefix) (o : StrOp) : Instr := match p with
      | .rep => .rep e (.str o)
      | .repe => .repe e (.str o)
      | .repne => .repne e (.str o)
    let sl := s.updEng e fun x => { x with lastPc := x.pc }
    let counted := u.setD e 7 (u.dreg e 7 - 1)
    let y := counted.eng e
    let ends : Bool := match p with
      | .rep => false
      | .repe => !fZ y.psw
      | .repne => fZ y.psw
    s.readyRep e = true → strReserved o = false → (p = .rep ∨ o = .cmps z v ∨ o = .scas z v) →
      (32 ≤ e.val ∨ s.mark (progAddr e (s.eng e).pc.toNat) = none ∧ s.mark (progAddr e ((s.eng e).pc.toNat + 1)) = none) →
      (s.dreg e 7 = 0 → Makes (cmd p o) s e (done (s.eng e) { s.eng e with stall := .none } 2)) ∧
      (s.dreg e 7 ≠ 0 → sl.element e o = (none, u) →
        (ends = true →
          exec (cmd p o) s = .next ((counted.updEng e fun x => { x with stall := .none }).finish e 2)) ∧
        (ends = false → y.d.get 7 ≠ 0 → (sl.group e o = none ∨ counted.group e o ≠ sl.group e o) →
          exec (cmd p o) s = .next (counted.updEng e fun x => { x with stall := .rep })) ∧
        (ends = false → y.d.get 7 ≠ 0 → sl.group e o ≠ none → counted.group e o = sl.group e o →
          exec (cmd p o) s = .next (counted.repGroup e p o (sl.group e o) 3)) ∧
        (ends = false → y.d.get 7 = 0 → y.imprecise = none → counted.eventDue e = none →
          exec (cmd p o) s = .next ((counted.updEng e fun x => { x with stall := .none }).finish e 2)))

/-- SRX, STX (R144, R145): on a lane with a block waiting, or room, the 16 bytes pass between the lane and tower SRAM and the pointer
goes up by 16; else the processor waits, and STREAM_BLOCK_READY ends the wait. -/
def Obligations.StreamBlocks : Prop :=
  ∀ (s u : State) (e : Eng) (d a : Fin 8) (b : Block),
    let x := s.eng e
    let p := s.areg e a
    let sl := s.updEng e fun x => { x with lastPc := x.pc }
    let su := s.updEng e fun x => { x with st := .running, stall := .none }
    Direct s e → Plain s p.toNat 16 → s.streamOk e = true → ownTower e p.toNat = true →
      (IssuesCmd s e (.srx e d a) → s.ev2 e = false →
        Makes (.srx e d a) s e { x with lastPc := x.pc, st := .waiting, stall := .srx d a }) ∧
      (IssuesCmd s e (.stx e d a) → s.ev3 e = false →
        Makes (.stx e d a) s e { x with lastPc := x.pc, st := .waiting, stall := .stx d a }) ∧
      (IssuesCmd s e (.stx e d a) → s.ev3 e = true →
        exec (.stx e d a) s = .next (((sl.laneGive e ⟨s.bytes p.toNat 16, s.dreg e d⟩).setA e a (p + 16)).finish e 1)) ∧
      (IssuesCmd s e (.srx e d a) → s.ev2 e = true → s.laneTake e = some (b, u) → b.data.length ≤ 16 →
        ∃ t f, exec (.srx e d a) s = .next t ∧
          Flags (s.psw e) f (cOf s e) (vOf s e) (b.status.getLsbD 31) (b.status == 0) false ∧
          t.eng e = done x { x with d := x.d.set d b.status, psw := f, a := x.a.set a (p + 16) } 1 ∧
          t.lanes = u.lanes ∧ t.regs = s.regs ∧ (∀ k, k ≠ e.val → t.eng k = s.eng k) ∧
          ∀ c, t.byte c = if p.toNat ≤ c ∧ c < p.toNat + 16 then (b.data ++ List.replicate (16 - b.data.length) 0).getD (c - p.toNat) 0
            else s.byte c) ∧
      (x.st = .waiting → x.stall = .stx d a → x.haltReq = false → s.eventDue e = none → s.ev3 e = true →
        exec (.streamBlockReady e) s = .next (((su.laneGive e ⟨s.bytes p.toNat 16, s.dreg e d⟩).setA e a (p + 16)).finish e 1))

/-- A processor that is not ready issues no instruction (R93, R163): the command changes nothing, the model's choice (log entry 7). -/
def Sys2Proof.Claims.NotReadyIssuesNothing : Prop :=
  ∀ (i : Instr) (e : Eng) (c : Code) (s : State), instrCode? i = some (e, c) → s.ready e = false → exec i s = .next s

/-- Where the spec permits no source of class A (R50), AND, OR, XOR, NEG, EXTB, EXTH, MUL, DIV, DIVU and the shifts by register take the
illegal-instruction exception (vector 1) with the PC of the instruction. -/
def Sys2Proof.Claims.AddressSourceIsIllegal : Prop :=
  ∀ (s : State) (e : Eng) (d r : Fin 8) (i : Instr),
    i ∈ [Instr.and e d (.a r), .or e d (.a r), .xor e d (.a r), .neg e d (.a r), .extb e d (.a r), .exth e d (.a r),
      .mul e d (.a r), .div e d (.a r), .divu e d (.a r), .shlv e d (.a r), .shrv e d (.a r), .sarv e d (.a r)] →
    IssuesCmd s e i → ∃ c, instrCode? i = some (e, c) ∧
      exec i s = .next ((s.updEng e fun x => { x with lastPc := x.pc }).enter e 1 (s.eng e).pc 0 c.w 0 false false)

/-! ### Engines, program stores, loader, lanes -/

/-- Only the Keep writes the engine-control, MPU, loader and lane-control registers (R104, R161, R171, R188): from any other initiator
the access ends with a reported bus error and no other effect. -/
def Obligations.OnlyTheKeepControlsEngines : Prop :=
  ∀ (s : State) (i : Init) (e : Fin 32) (l : Fin 6) (off : Fin 18) (v : Word) (u : Option Nat), i ≠ .keep →
    (∀ c ∈ [Instr.engineRun i e, .engineHaltRequest i e, .rst i e, .iso i e, .engineStep i e, .snap i e, .restore i e,
        .engineTest i e, .clkenWrite i e v],
      exec c s = .next ((s.answer .busError).reported i (SYS_E_CTL e))) ∧
    exec (.mpuRegisterWrite i e off v) s = .next ((s.answer .busError).reported i (SYS_E_MPU_CTL e + 4 * off.val)) ∧
    (∀ c ∈ [Instr.loaderGo i v, .loaderAbort i u], exec c s = .next ((s.answer .busError).reported i SYS_LDR_CTL)) ∧
    (∀ c ∈ [Instr.laneCtlWrite i l v, .laneSwap i l], exec c s = .next ((s.answer .busError).reported i (ETH_LANE_CTL l)))

/-- Engine actions of the Keep on an engine whose clock runs (R162-R168): RUN starts a HALTED engine, a halt is requested of a running
one, RST and ISO stop it at once, SNAP, RESTORE and TEST begin, and a halt completes at a boundary. -/
def Sys2Proof.Claims.EngineActions : Prop :=
  ∀ (s : State) (e : Fin 32),
    let x := s.eng e
    let answers (c : Instr) (y : Engine) : Prop := ∃ t, exec c s = .next t ∧ t.eng e = y ∧ (∀ k, k ≠ e.val → t.eng k = s.eng k) ∧
      t.resp = .ok ∧ { t with engines := s.engines, resp := s.resp } = s
    let stopped : Engine := { x with
      actErr := false, stall := .none, haltReq := false, run := false, delayed := none, imprecise := none }
    let idle := x.st = .halted ∧ x.starting = false ∧ x.busy = false ∧ s.loaderOn e = false
    s.regShut .keep (SYS_E_CTL e) = false → s.laneOf e = none → x.clken = true →
      (idle → answers (.engineRun .keep e) { x with run := true, haltReq := false, actErr := false, st := .running }) ∧
      ((x.st = .running ∨ x.st = .waiting) → answers (.engineHaltRequest .keep e) { x with run := false, haltReq := true }) ∧
      (x.action = .none → x.st ≠ .isolated → answers (.rst .keep e) { stopped with action := .rst, st := .reset }) ∧
      (x.action = .none → answers (.iso .keep e) { stopped with st := .isolated }) ∧
      (idle → answers (.snap .keep e) { x with actErr := false, action := .snap }) ∧
      (idle → answers (.restore .keep e) { x with actErr := false, action := .restore }) ∧
      (idle → ∃ t, exec (.engineTest .keep e) s = .next t ∧ t.resp = .ok ∧ t.fresh = s.fresh + 1 ∧
        t.eng e = { x with actErr := false, action := .test, st := .test } ∧
        ∀ w, t.progWord e w = Config.freeProg s.fresh (w % 16384)) ∧
      (x.haltReq = true → x.boundary = true → x.imprecise = none → s.outCount (eRpn e) = 0 → s.plm.tests = [] →
        s.vigil.res = [] →
        Makes (.engineHaltComplete e) s e { x with st := .halted, stall := .none, haltReq := false })

/-- STEP (R163): a HALTED engine without a due event executes the one instruction at its PC and is HALTED again at the boundary after
it; what CYCLE counts meanwhile is a free value. -/
def Obligations.StepExecutesOneInstruction : Prop :=
  ∀ (s : State) (e : Fin 32),
    let x := s.eng e
    let begun := (((s.updEng e fun x => { x with clken := true }).updEng e fun x => { x with actErr := false }).free.2).updEng e
      fun x => { x with st := .running, stall := .none, haltReq := true, cycle := x.cycle + Config.freeWord s.fresh }
    let u := stepInstr (decodeAt (Fin.ofNat 35 e) fun k => s.progWord e (x.pc.toNat + k)) begun
    s.regShut .keep (SYS_E_CTL e) = false → x.st = .halted → x.clken = true → x.starting = false → x.busy = false →
      s.loaderOn e = false → x.imprecise = none → s.eventDue e = none →
      (u.eng e).haltReq = true → (u.eng e).boundary = true → (u.eng e).imprecise = none → u.outCount (eRpn e) = 0 →
      exec (.engineStep .keep e) s =
        .next ((u.updEng e fun x => { x with st := .halted, stall := .none, haltReq := false }).answer .ok)

/-- The reset sequence and the self-test of an engine end in HALTED with the state of R47 and R65: registers 0, the PC program word 0, the
reset epoch one higher, the doorbells cleared; TESTRES holds the result (R165, R168, R451, R452). -/
def Sys2Proof.Claims.EngineResetsEnd : Prop :=
  ∀ (s : State) (e : Fin 32) (pass : Bool),
    let x := s.eng e
    let epoch := XCH_EPOCH (4 + e.val)
    let fresh (t : State) (y : Engine) : Prop :=
      t.eng e = { y with
        d := Vector.replicate 8 0, a := Vector.replicate 8 0, ac := Vector.replicate 4 0, pc := s.progWord e 0, psw := 0
        evpend := 0, evie := 0, depth := 0, base := 0, tmr := 0, tmrNs := 0, cycle := 0, cycleFrac := 0, stall := .none
        ls := Vector.replicate 3 0, le := Vector.replicate 3 0, lc := Vector.replicate 3 0, pfsig := 0
        imprecise := none, haltReq := false, lastVec := 0, dflt := false, excCnt := 0, st := .halted, run := false, action := .none } ∧
      t.reg epoch = word (((s.reg epoch).toNat + 1) % 65536) ∧ t.reg (XCH_A_DB_PEND (4 + e.val)) = 0 ∧ t.mem = s.mem
    s.plm.tests = [] → s.vigil.res = [] →
      (x.st = .reset → x.action = .rst → s.outCount e = 0 →
        ∃ t, exec (.engineResetComplete e) s = .next t ∧ fresh t x) ∧
      (x.st = .test →
        ∃ t, exec (.engineTestComplete e pass) s = .next t ∧ fresh t { x with testRes := if pass then 1 else 2 })

/-- Clock gating and the MPU registers (R103-R105, R166): CLKEN := 1 on a gated engine begins the 4 cycles after which a RUN or action
written with it is applied; a write of an MPU register keeps only its defined bits. -/
def Obligations.ClockGatingAndMpuWrites : Prop :=
  ∀ (s : State) (e : Fin 32) (off : Fin 18) (v : Word),
    let x := s.eng e
    let mpu := SYS_E_MPU_CTL e + 4 * off.val
    (s.regShut .keep (SYS_E_CTL e) = false → x.gated = true → x.st ≠ .isolated → x.starting = false →
      ∃ t, exec (.clkenWrite .keep e 4) s = .next t ∧
        t.eng e = { x with clken := true, starting := true, run := false } ∧ t.resp = .ok ∧ t.regs = s.regs) ∧
    (s.regShut .keep (SYS_E_CTL e) = false → x.gated = true → x.st ≠ .isolated → x.starting = false →
      ∃ t, exec (.clkenWrite .keep e 5) s = .next t ∧
        t.eng e = { x with clken := true, starting := true, delayed := some 5 } ∧ t.resp = .ok ∧ t.regs = s.regs) ∧
    (x.starting = true → x.delayed = none → Makes (.clkenDelayedAction e) s e { x with starting := false, delayed := none }) ∧
    (x.starting = true → x.delayed = some 5 → x.clken = true → x.st = .halted → x.action = .none → s.loaderOn e = false → s.laneOf e = none →
      Makes (.clkenDelayedAction e) s e { x with
        starting := false, delayed := none, run := true, haltReq := false, actErr := false, st := .running }) ∧
    (s.regShut .keep mpu = false → (3 ≤ off.val → off.val % 2 = 1 → 5 ≤ SYS_E_MPU_ATTR_SIZE.get v) →
      exec (.mpuRegisterWrite .keep e off v) s = .next ((s.setReg mpu (v &&& mpuMask off)).answer .ok))

/-- State images (R164): SNAP writes D, A, accumulators, PC and the control registers to the image, RESTORE reads them back; SNAPERR is
cleared. -/
def Obligations.StateImages : Prop :=
  ∀ (s u : State) (e : Fin 32) (l : List Byte),
    let x := s.eng e
    let s1 := s.updEng e fun x => { x with action := .none }
    (s.image e).length = 48 ∧
    (∀ k : Fin 8, (s.image e)[k.val]? = some (x.d.get k) ∧ (s.image e)[8 + k.val]? = some (x.a.get k)) ∧
    (s.image e)[24]? = some (x.pc.zeroExtend 32) ∧
    (∀ y : Fin 16, (s.image e)[32 + y.val]? = some (s.crRead e y)) ∧
    (x.action = .snap → s.imageOk e = true →
      s1.moverWrite (.engine e) (s.imageAddr e) (wordsToBytes (s1.image e)) = (none, u) →
      exec (.snapComplete e) s = .next (u.updEng e fun x => { x with snapErr := false })) ∧
    (x.action = .restore → s.imageOk e = true → s1.moverRead (.engine e) (s.imageAddr e) 192 = (l, none, u) → hasLoops e = true →
      ∃ t, exec (.restoreComplete e) s = .next t ∧ (t.eng e).snapErr = false ∧
        (∀ k : Fin 8, (t.eng e).d.get k = imgWord l k ∧ (t.eng e).a.get k = imgWord l (8 + k)) ∧
        (t.eng e).pc = (imgWord l 24).truncate 14 ∧ (t.eng e).psw = imgWord l 32 &&& 0x33F ∧ (t.eng e).tmr = imgWord l 45)

/-- The load port of the program stores (R32, R169, R170): the Keep writes whole words of an engine in RESET or HALTED, and reads back what
stands there; bits [15:14] are ignored. -/
def Obligations.ProgramStoreAccesses : Prop :=
  ∀ (s : State) (e : Fin 32) (w : Nat) (v : BitVec 16) (d : List Byte),
    let a := 0x50000000 + 0x10000 * e.val + 2 * w
    w < 16384 →
      ((s.eng e).st = .reset ∨ (s.eng e).st = .halted → d = toBytes v.toNat 2 →
        ∃ t, exec (.programStoreWrite .keep a d) s = .next t ∧ t.resp = .ok ∧ t.progWord e w = v.truncate 14 ∧
          (∀ e' w', (e', w' % 16384) ≠ (e.val, w) → t.progWord e' w' = s.progWord e' w') ∧
          t.engines = s.engines ∧ t.regs = s.regs ∧ t.mem = s.mem) ∧
      ((s.eng e).st ≠ .isolated → s.mark a = none →
        exec (.programStoreRead .keep a 2 []) s = .next (s.answer (.data (toBytes (s.progWord e w).toNat 2)))) ∧
      (∀ i, rights i .prog = false →
        exec (.programStoreRead i a 2 []) s = .next ((s.answer .busError).reported i a))

/-- The program loader (R171-R174): GO with valid parameters makes it BUSY; its end leaves DONE, ERROR 6 on a CRC mismatch, ABORTED, or
TOOLATE, and RCRC the complemented CRC of the bytes read; that a GO sets RCRC to 0 is the model's reading (log entry 19). -/
def Obligations.LoaderOperations : Prop :=
  ∀ (s u : State) (v : Word),
    let set := (((s.setReg SYS_LDR_CTL ((v ||| 1) &&& 0x3FC)).setFlag SYS_LDR_STAT SYS_LDR_STAT_ABORTED false).setFlag
      SYS_LDR_STAT SYS_LDR_STAT_TOOLATE false).setReg SYS_LDR_RCRC 0
    let ended (t : State) (st errc : Nat) : State :=
      (t.setFld SYS_LDR_STAT SYS_LDR_STAT_STATE st).setFld SYS_LDR_STAT SYS_LDR_STAT_ERRC errc
    let rung (t : State) : State := t.ringIf (t.flag SYS_LDR_CTL SYS_LDR_CTL_DBEN) 1 (t.fld SYS_LDR_CTL SYS_LDR_CTL_DBBIT)
    let busy := s.fld SYS_LDR_STAT SYS_LDR_STAT_STATE = 1
    let r := u.setReg SYS_LDR_RCRC (~~~u.loader.crc)
    (s.regShut .keep SYS_LDR_CTL = false → ¬busy → set.loaderCheck = 0 →
      exec (.loaderGo .keep v) s = .next ({ ended set 1 0 with loader := ⟨0, 0xFFFFFFFF, false⟩ }.answer .ok)) ∧
    (s.regShut .keep SYS_LDR_CTL = false → ¬busy → set.loaderCheck ≠ 0 →
      exec (.loaderGo .keep v) s = .next ((rung (ended set 3 set.loaderCheck)).answer .ok)) ∧
    (s.regShut .keep SYS_LDR_CTL = false → busy →
      exec (.loaderAbort .keep none) s = .next ((s.setFlag SYS_LDR_STAT SYS_LDR_STAT_TOOLATE true).answer .ok)) ∧
    (s.regShut .keep SYS_LDR_CTL = false → busy → 0 < s.loaderBytes →
      exec (.loaderAbort .keep (some 0)) s = .next ((rung (ended ((s.setReg SYS_LDR_RCRC (~~~s.loader.crc)).setFlag
        SYS_LDR_STAT SYS_LDR_STAT_ABORTED true) 2 0)).answer .ok)) ∧
    (busy → s.loaderRun s.loaderBytes (s.loaderBytes / 32 + 1) 0 = (0, u) → r.flag SYS_LDR_CTL SYS_LDR_CTL_CRCCHK = false →
      exec .loaderComplete s = .next (rung (ended r 2 0))) ∧
    (busy → s.loaderRun s.loaderBytes (s.loaderBytes / 32 + 1) 0 = (0, u) → r.flag SYS_LDR_CTL SYS_LDR_CTL_CRCCHK = true →
      r.reg SYS_LDR_RCRC ≠ r.reg SYS_LDR_CRC → exec .loaderComplete s = .next (rung (ended r 3 6)))

/-- Pass-through lanes (R179-R189): a first chunk of a frame reaches the primary as a block, NOENG drops where no lane is ACTIVE, an
underrun ends the frame in transit, the Keep attaches engines, and a swap exchanges PRI and SHD. -/
def Obligations.LaneOperations : Prop :=
  ∀ (s : State) (l : Fin 6) (v : Word) (bs : List Byte) (err : Fin 3) (last : Bool),
    let ctl := ETH_LANE_CTL l
    let stat := ETH_LANE_STAT l
    let x := s.lane l
    let f := (x.fseq + 1) % 64
    let pri := ETH_LANE_CTL_PRI.get v
    let shd := ETH_LANE_CTL_SHD.get v
    let ok := (v.getLsbD 5 = true → s.laneEngineOk l pri = true) ∧ (v.getLsbD 13 = true → s.laneEngineOk l shd = true) ∧
      ¬(v.getLsbD 5 = true ∧ v.getLsbD 13 = true ∧ pri = shd)
    (s.laneState l = 1 → s.shadowOf l = none → x.rxP.length < 16 → bs.length = 16 →
      ∃ t, exec (.laneIngressFrame l true false bs err) s = .next t ∧
        (t.lane l).rxP = x.rxP ++ [⟨bs, mkStatus 16 0 0 f false⟩] ∧ (t.lane l).fseq = f ∧ (t.lane l).inFrame = true ∧
        (t.lane l).rxS = x.rxS ∧ (∀ k, k ≠ l.val → t.lane k = s.lane k) ∧ t.engines = s.engines ∧ t.mem = s.mem) ∧
    (s.laneState l ≠ 1 → s.flag ctl ETH_LANE_CTL_NOENG = true →
      exec (.laneIngressFrame l true last bs err) s =
        .next ((s.countSat (ETH_LANE_DROP l) 1).updLane l fun x => { x with inFrame := false })) ∧
    (x.egress = true → x.tx = [] →
      exec (.egressUnderrun l) s = .next (((s.updLane l fun x => { x with
        egress := false, wire := [], out := x.out ++ [((s.lane l).wire, true)] }).countSat (ETH_LANE_UNDR l) 1).updLane l
        fun x => { x with skipP := true })) ∧
    (s.regShut .keep ctl = false → v.getLsbD 16 = false → ok →
      ∃ t, exec (.laneCtlWrite .keep l v) s = .next t ∧ t.resp = .ok ∧ t.flag stat ETH_LANE_STAT_CFGERR = false ∧
        t.reg ctl = (s.reg ctl &&& ~~~0xFF1E3F3F) ||| (v &&& 0xFF1E3F3F) ∧ t.engines = s.engines ∧ t.mem = s.mem) ∧
    (s.regShut .keep ctl = false → v.getLsbD 16 = false → ¬ok →
      ∃ t, exec (.laneCtlWrite .keep l v) s = .next t ∧ t.resp = .ok ∧ t.flag stat ETH_LANE_STAT_CFGERR = true ∧
        t.reg ctl = (s.reg ctl &&& ~~~0xFF1E0000) ||| (v &&& 0xFF1E0000) ∧ t.engines = s.engines ∧ t.mem = s.mem) ∧
    (s.regShut .keep ctl = false → s.flag ctl ETH_LANE_CTL_SHDEN = true → s.flag stat ETH_LANE_STAT_SHDLAG = false →
      exec (.laneSwap .keep l) s = .next ((((s.setFlag ctl ETH_LANE_CTL_SWAP true).setFlag stat ETH_LANE_STAT_SWAPREF
        false).updLane l fun x => { x with swap := true }).answer .ok)) ∧
    (s.regShut .keep ctl = false → (s.flag ctl ETH_LANE_CTL_SHDEN = false ∨ s.flag stat ETH_LANE_STAT_SHDLAG = true) →
      exec (.laneSwap .keep l) s = .next ((s.setFlag stat ETH_LANE_STAT_SWAPREF true).answer .ok)) ∧
    (x.swap = true →
      ∃ t, exec (.laneSwapEffect l) s = .next t ∧ t.fld ctl ETH_LANE_CTL_PRI = s.fld ctl ETH_LANE_CTL_SHD ∧
        t.fld ctl ETH_LANE_CTL_SHD = s.fld ctl ETH_LANE_CTL_PRI ∧ t.flag ctl ETH_LANE_CTL_SWAP = false ∧
        (t.lane l).swap = false ∧ (t.lane l).rxP = x.rxS ∧ (t.lane l).heldP = x.heldS ∧ (t.lane l).rxS = x.rxP)

/-! ### Register accesses, the fabric, the PCIe endpoint, the local bus -/

namespace Sys2Proof.Claims

/-- A register of the SYS block whose write has no effect beyond its fields. -/
def SysPlain (a : Nat) : Prop :=
  a / 0x10000 = 0x6000 ∧ a % 4 = 0 ∧ inEngines a = false ∧ inLoader a = false ∧ inMsix a = false ∧
    a ∉ [SYS_HOST_BPAP, SYS_MODE_REQ, SYS_MODE_EVT, SYS_RECOV, SYS_KEY_CTL, SYS_RST_CTL, SYS_TW_RST, SYS_KWD]

/-- What the access codes make of a register word `old` on a write of `v` (R8): W1C bits clear where `v` is 1, RW and RWQ bits take `v`,
every other bit stays. -/
def Written (r : RegRow) (old v w : Word) : Prop :=
  ∀ j, j < 32 → w.getLsbD j =
    if r.w1c.testBit j && v.getLsbD j then false else if r.rw.testBit j || r.rwq.testBit j then v.getLsbD j else old.getLsbD j

end Sys2Proof.Claims

/-- Register accesses (R8, R9, R12, R33): a write acts per the access code of each bit, a read of an error counter returns and clears it
but for the events of its cycle, and an access of another size or alignment, or one that may not reach its block, is a reported bus
error with no other effect. -/
def Sys2Proof.Claims.RegisterAccessCodes : Prop :=
  ∀ (s : State) (i : Init) (a n : Nat) (v ev : Word) (r : RegRow) (e : Fin 32),
    (SysPlain a → regRow? a = some r → s.regShut i a = false →
      ∃ w, Written r (s.reg a) v w ∧ exec (.registerWrite i a 4 v) s = .next ((s.setReg a w).answer .ok)) ∧
    (s.regShut i (SYS_E_ECC e) = false →
      exec (.clearingRead i (SYS_E_ECC e) 4 ev) s =
        .next ((s.setReg (SYS_E_ECC e) ev).answer (.data (toBytes (s.reg (SYS_E_ECC e)).toNat 4)))) ∧
    ((¬(a % 4 = 0 ∧ n = 4) ∨ s.regShut i a = true) → ∀ c ∈ [Instr.registerWrite i a n v, .clearingRead i a n ev, .latchingRead i a n],
      exec c s = .next ((s.answer .busError).reported i a))

/-- Latching reads (R239): the nanoseconds of a network clock are read and its seconds latched for the reading port, whose next reads
return them. -/
def Sys2Proof.Claims.LatchingReadsOfClocks : Prop :=
  ∀ (s : State) (i : Init) (n : Fin 4),
    let t := (s.clock n).t
    s.regShut i (ALM_TC_NOW0 n) = false →
      ∃ u, exec (.latchingRead i (ALM_TC_NOW0 n) 4) s = .next u ∧ u.resp = .data (toBytes (t / 65536 % 1000000000) 4) ∧
        u.getLatch n i.rpn = (word (unitsSec t), word (unitsSec t / 2 ^ 32 + t % 65536 * 2 ^ 16)) ∧
        (∀ g p, g ≠ n.val ∨ p ≠ i.rpn → p < 64 → i.rpn < 64 → u.getLatch g p = s.getLatch g p) ∧
        { u with latch := s.latch, resp := s.resp } = s ∧
        (s.regShut i (ALM_TC_NOW1 n) = false →
          exec (.latchingRead i (ALM_TC_NOW1 n) 4) u = .next (u.answer (.data (toBytes (unitsSec t % 2 ^ 32) 4))))

/-- Fabric transactions (R465-R468): an access presented now reads or stores its bytes; one held is applied once; a completed write frees
its tag, and its bus error becomes an imprecise one; a transaction without response for 100 us ends with a bus error, counted and
logged. -/
def Obligations.FabricTransactions : Prop :=
  ∀ (s : State) (e : Fin 32) (a n k : Nat) (d : List Byte) (tx : Txn),
    (Direct s e → Plain s a n →
      exec (.fabricTransaction (.direct (.engine e) (.read a n)) []) s = .next (s.answer (.data (s.bytes a n)))) ∧
    (Direct s e → Plain s a n → d.length = n →
      ∃ t, exec (.fabricTransaction (.direct (.engine e) (.write a d)) []) s = .next t ∧ t.resp = .ok ∧
        (∀ c, t.byte c = if a ≤ c ∧ c < a + n then d.getD (c - a) 0 else s.byte c) ∧ t.engines = s.engines ∧ t.regs = s.regs ∧
        t.outst = s.outst) ∧
    (s.outst = [⟨e.val, .engine e, .write a d, none⟩] → s.boot.held = false → Plain s a n → d.length = n →
      ∃ t, exec (.fabricTransaction (.held 0) []) s = .next t ∧ t.outst = [⟨e.val, .engine e, .write a d, some .ok⟩] ∧
        (∀ c, t.byte c = if a ≤ c ∧ c < a + n then d.getD (c - a) 0 else s.byte c) ∧ t.engines = s.engines ∧ t.regs = s.regs) ∧
    (s.outst[k]? = some tx → tx.op = .write a d → tx.done = some .ok →
      exec (.writeCompletion k) s = .next { s with outst := s.outst.eraseIdx k }) ∧
    (s.outst[k]? = some tx → tx.op = .write a d → tx.done = some .busError → (s.eng tx.rpn).st ≠ .isolated →
      exec (.writeCompletion k) s = .next (State.updEng { s with outst := s.outst.eraseIdx k } tx.rpn fun x =>
        { x with imprecise := some (x.imprecise.getD (word a)) })) ∧
    (s.outst[k]? = some tx → tx.done = none → s.region tx.op.addr ≠ .outbound →
      ∃ t, exec (.fabricTimeout k) s = .next t ∧ t.outst = s.outst.set k { tx with done := some .busError } ∧
        t.reg MEM_FAB_TMOADDR = word tx.op.addr ∧ t.reg MEM_FAB_TMORPN = word tx.rpn ∧
        t.reg MEM_FAB_TMO = word (min ((s.reg MEM_FAB_TMO).toNat + 1) (2 ^ 32 - 1)) ∧ t.engines = s.engines ∧ t.mem = s.mem)

/-- The PCIe endpoint (R34-R40, R44): a request in range is carried out at its fabric address, one outside is logged through AER; a vector
unmasked sends its held message; configuration requests and the aperture register take their values. -/
def Sys2Proof.Claims.PcieEndpoint : Prop :=
  ∀ (s u : State) (b : PcieBar) (p op : Access) (l : List Byte) (f : Nat) (v : Fin 32) (c : Word) (cmd : BitVec 16) (speed : Fin 3)
      (x2 : Bool) (i : Init),
    let row := SYS_HOST_BPAP
    (s.host.linkUp = true → 0 < op.len → s.barAddr b op.addr = some f → s.barAddr b (op.addr + op.len - 1) ≠ none →
      s.hostPieces f op = [p] → accessWith stepEngine true .pcie p s = (.data l, u) → op.isWrite = false →
      exec (.pcieRequest b op) s = .next (u.answer (.data l))) ∧
    (s.host.linkUp = true → 0 < op.len → s.barAddr b op.addr = none →
      exec (.pcieRequest b op) s = .next ((s.hostFail op.addr).answer .busError)) ∧
    (let m := Tbl.get msixReset s.host.msix;
      s.host.msixEn = true → s.host.msixFm = false → s.host.pba.getLsbD v = true → c.getLsbD 0 = false →
      ∃ t, exec (.msixVectorUnmask v c) s = .next t ∧ t.resp = .ok ∧
        t.host.sent = s.host.sent ++ [((m (4 * v.val)).toNat + (m (4 * v.val + 1)).toNat * 2 ^ 32, m (4 * v.val + 2))] ∧
        t.host.pba = s.host.pba &&& ~~~(BitVec.ofNat 32 (2 ^ v.val)) ∧ t.regs = s.regs) ∧
    (s.regShut i row = false → 0x80 ≤ SYS_HOST_BPAP_BASE.get c →
      ∃ t, exec (.hostApertureWrite i c) s = .next t ∧ t.resp = .ok ∧
        t.fld row SYS_HOST_BPAP_BASE = SYS_HOST_BPAP_BASE.get c ∧ t.fld row SYS_HOST_BPAP_EN = SYS_HOST_BPAP_EN.get c ∧
        { t with regs := s.regs, resp := s.resp } = s) ∧
    (s.regShut i row = false → SYS_HOST_BPAP_BASE.get c < 0x80 →
      ∃ t, exec (.hostApertureWrite i c) s = .next t ∧ t.resp = .ok ∧
        t.fld row SYS_HOST_BPAP_BASE = s.fld row SYS_HOST_BPAP_BASE ∧ t.fld row SYS_HOST_BPAP_EN = SYS_HOST_BPAP_EN.get c) ∧
    (s.boot.held = false → ∃ t, exec (.pcieLinkUp speed x2) s = .next t ∧
      t.host = { s.host with linkUp := true, speed := speed.val, x2 := x2 } ∧ t.reg PWR_CLK_STAT = s.reg PWR_CLK_STAT ||| 0x40 ∧
      { t with host := s.host, regs := s.regs } = s) ∧
    (s.host.linkUp = true →
      exec (.pcieConfigurationRequest (.command cmd)) s =
        .next (State.answer { s with host := { s.host with command := cmd } } .ok) ∧
      exec (.pcieConfigurationRequest (.read 8)) s = .next (s.answer (.data (toBytes 0x0B400002 4))))

/-- The local bus (R41-R43, R610): a register is read and written in two halves, the side effects with the access that carries 32 bits;
the exchange region in halfwords or bytes; a strobe that rises early loses the cycle and the held half. -/
def Sys2Proof.Claims.LocalBusCycles : Prop :=
  ∀ (s u : State) (addr : BitVec 24) (d lo hi : BitVec 16) (write : Bool) (be : BitVec 2),
    let reg := 0x60000000 + addr.toNat / 4 * 4
    let ended (t : State) (e : Bool) (q : BitVec 16) (h : LbHeld) : State :=
      { t with host := { t.host with lbErr := e, lbData := q, lbReady := true, held := h } }
    (addr.toNat < 0x400000 →
      (accessWith stepEngine true .localBus (.read reg 4) s = (.data (toBytes (lo.toNat + hi.toNat * 65536) 4), u) →
        exec (.lbReadFirstHalf addr 3) s =
          .next (ended (u.answer (.data (toBytes (lo.toNat + hi.toNat * 65536) 4))) false lo (.read reg hi))) ∧
      (s.host.held = .read reg hi →
        exec (.lbReadSecondHalf addr 3) s = .next (ended (s.answer (.data (toBytes hi.toNat 2))) false hi .none)) ∧
      exec (.lbWriteFirstHalf addr 3 d) s = .next (ended (s.answer .ok) false 0 (.write reg d)) ∧
      (s.host.held = .write reg lo →
        accessWith stepEngine true .localBus (.write reg (toBytes (lo.toNat + d.toNat * 65536) 4)) s = (.ok, u) →
        exec (.lbWriteSecondHalf addr 3 d) s = .next (ended (u.answer .ok) false 0 .none)) ∧
      (be ≠ 3 → exec (.lbReadFirstHalf addr be) s = .next (ended ((s.answer .busError).reported .localBus reg) true 0 .none))) ∧
    (0x800000 ≤ addr.toNat → addr.toNat < 0x840000 →
      accessWith stepEngine true .localBus (.read (0x4C000000 + (addr.toNat / 2 * 2 - 0x800000)) 2) s = (.data (toBytes lo.toNat 2), u) →
      exec (.lbExchangeAccess addr 3 false 0) s = .next (ended (u.answer (.data (toBytes lo.toNat 2))) false lo .none)) ∧
    exec (.lbStrobeEarlyRise addr be write d false) s =
      .next { s with host := { s.host with held := .none, lbErr := false, lbReady := false } }

/-! ### Network clocks, bases, Calendar, captures -/

/-- Steering of the network clocks (R235-R238, R300): the owner's rate is clamped to 1,000 ppm, its slew counts from the amount written and
ends exactly there; who does not own the clock gets a bus error. -/
def Sys2Proof.Claims.ClockRatesAndSlews : Prop :=
  ∀ (s : State) (i : Init) (n : Fin 4) (p : Fin 6) (v : Word),
    let st := ALM_TC_STAT n
    let winA := 0x60080C00 + 0x1000 * p.val + 0x40 * n.val
    let clamped : Int := max (-131072000) (min 131072000 v.toInt)
    let slewed : State := s.updClock n fun c => { c with slew := v.toInt * 65536 * 250000 }
    (s.regShut i (ALM_TC_RATE n) = false → s.owns n 0 = true →
      exec (.rateWrite i n v) s = .next
        (((s.setReg (ALM_TC_RATE n) (BitVec.ofInt 32 clamped)).setFlag st ALM_TC_STAT_RATELIM (v.toInt != clamped)).answer .ok)) ∧
    (s.regShut i (ALM_TC_SLEW n) = false → s.owns n 0 = true →
      exec (.slewWrite i n v) s = .next ((slewed.setFlag st ALM_TC_STAT_SLEWING (v != 0)).answer .ok)) ∧
    (s.regShut i (winA + 0x24) = false → s.owns n (1 + p.val) = true →
      exec (.steeringAliasWrite i p n 9 v) s = .next ((slewed.setFlag st ALM_TC_STAT_SLEWING (v != 0)).answer .ok)) ∧
    (s.regShut i (ALM_TC_RATE n) = false → s.owns n 0 = false →
      exec (.rateWrite i n v) s = .next ((s.answer .busError).reported i (ALM_TC_RATE n))) ∧
    (s.regShut i (winA + 0x24) = false → s.owns n (1 + p.val) = false →
      exec (.steeringAliasWrite i p n 9 v) s = .next ((s.answer .busError).reported i (winA + 0x24))) ∧
    exec (.slewComplete n) s = .next ((s.updClock n fun c =>
      ⟨((c.t : Int) + (c.rem + c.slew).fdiv 250000).toNat % (65536000000000 * 2 ^ 48), (c.rem + c.slew).fmod 250000, 0⟩).setFlag st
        ALM_TC_STAT_SLEWING false)

/-- STEP, SET and SLEWSTOP of a network clock by its owner in this block (R236, R237), while no Calendar entry is armed: the clock takes
the new value and its slew ends, STEPF is set and EPOCH counts; a value out of range leaves the clock and sets STEPERR. -/
def Sys2Proof.Claims.ClockStepsAndSets : Prop :=
  ∀ (s : State) (i : Init) (n : Fin 4),
    let st := ALM_TC_STAT n
    let c := s.clock n
    let ns := (s.reg (ALM_TC_STEPNS n)).toInt
    let new := (c.t : Int) + ((s.reg (ALM_TC_STEPS n)).toInt * 1000000000 + ns) * 65536
    let ns0 := (s.reg (ALM_TC_SET0 n)).toNat % 2 ^ 30
    let w2 := (s.reg (ALM_TC_SET2 n)).toNat
    let moved (t : State) (v : Nat) : Prop :=
      t.resp = .ok ∧ (t.clock n).t = v ∧ (t.clock n).slew = 0 ∧ t.flag st ALM_TC_STAT_STEPF = true ∧
        t.flag st ALM_TC_STAT_SLEWING = false ∧ t.fld st ALM_TC_STAT_EPOCH = (s.fld st ALM_TC_STAT_EPOCH + 1) % 65536 ∧
        (∀ k, k ≠ n.val → t.clock k = s.clock k) ∧ t.mem = s.mem ∧ t.engines = s.engines
    let inRange := -999999999 ≤ ns ∧ ns ≤ 999999999 ∧ 0 ≤ new ∧ new < 65536000000000 * 2 ^ 48
    s.regShut i (ALM_TC_CTL n) = false → s.fld (ALM_TC_CTL n) ALM_TC_CTL_OWN = 0 → s.reg (ALM_TC_CTL n) &&& 0xE0 = 0 →
      s.armedEntries = [] →
      (inRange → ∃ t, exec (.clockStep i n) s = .next t ∧ moved t new.toNat) ∧
      (¬inRange → ∃ t, exec (.clockStep i n) s = .next t ∧ t.resp = .ok ∧ t.flag st ALM_TC_STAT_STEPERR = true ∧ t.tc = s.tc) ∧
      (ns0 < 1000000000 → ∃ t, exec (.clockSet i n) s = .next t ∧
        moved t (((w2 % 65536) * 2 ^ 32 + (s.reg (ALM_TC_SET1 n)).toNat) * 65536000000000 + ns0 * 65536 + w2 / 65536)) ∧
      (∃ t, exec (.slewstop i n) s = .next t ∧ t.resp = .ok ∧ (t.clock n).slew = 0 ∧ t.flag st ALM_TC_STAT_SLEWING = false ∧
        (t.clock n).t = c.t)

/-- Angle and line bases (R246-R249): a record moves the count by the way gone, modulo the counts per revolution; standstill and missing
records have their flags; REVSET and LOAD wait for the next record. -/
def Sys2Proof.Claims.AngleAndLineBases : Prop :=
  ∀ (s : State) (i : Init) (n : Fin 2) (pos stamp : Int) (v : Word),
    let x := s.angle n
    let ctl := ALM_ANG_CTL n
    let st := ALM_ANG_STAT n
    let cpr : Int := s.cpr n
    let raw : Int := x.c + (if s.flag ctl ALM_ANG_CTL_DIRINV then x.pos - pos else pos - x.pos)
    (s.flag ctl ALM_ANG_CTL_EN = true → x.seen = true → ¬(x.pos = pos ∧ x.stamp = stamp) → x.revset = none →
      ∃ t, exec (.encoderRecord n pos false stamp) s = .next t ∧ (t.angle n).pos = pos ∧ (t.angle n).stamp = stamp ∧
        ((t.angle n).c : Int) = raw.fmod cpr ∧ (t.angle n).rev = x.rev + raw.fdiv cpr ∧ t.mem = s.mem) ∧
    (s.flag ctl ALM_ANG_CTL_EN = true →
      ∃ t, exec (.standstillTimeout n) s = .next t ∧ t.flag st ALM_ANG_STAT_STILL = true ∧ t.reg (ALM_ANG_VEL n) = 0 ∧
        t.reg (ALM_ANG_ACC n) = 0 ∧ (t.angle n).v = 0 ∧ (t.angle n).c = x.c ∧ t.mem = s.mem ∧ t.engines = s.engines) ∧
    (s.flag ctl ALM_ANG_CTL_EN = true →
      ∃ t, exec (.recordTimeout n) s = .next t ∧ t.flag st ALM_ANG_STAT_RECERR = true ∧ t.flag st ALM_ANG_STAT_VALID = false ∧
        (t.angle n).recs = [] ∧ (t.angle n).c = x.c ∧ t.mem = s.mem ∧ t.engines = s.engines) ∧
    (s.regShut i (ALM_ANG_REVSET n) = false →
      exec (.revsetWrite i n v) s = .next ((s.updAngle n fun x => { x with revset := some v.toInt }).answer .ok)) ∧
    (s.regShut i ALM_LIN_CTL = false →
      ∃ t, exec (.linLoad i) s = .next t ∧ t.lin = { s.lin with load := true } ∧ t.resp = .ok ∧ t.engines = s.engines ∧
        t.mem = s.mem)

/-- The mains base (R250): a zero crossing is stamped; a missing one takes LOCK and starts the holdover, whose end stops the phase. -/
def Sys2Proof.Claims.MainsBase : Prop :=
  ∀ (s : State) (stamp : Int),
    let st := ALM_MNS_STAT
    (s.flag ALM_MNS_CTL ALM_MNS_CTL_EN = true → s.armedEntries = [] →
      ∃ t, exec (.mainsZeroCrossing stamp) s = .next t ∧ t.reg ALM_MNS_TZC = t32Of (stamp.toNat * 65536) ∧ t.mns.last = stamp ∧
        t.mem = s.mem) ∧
    (s.flag ALM_MNS_CTL ALM_MNS_CTL_EN = false → exec (.mainsZeroCrossing stamp) s = .next s) ∧
    (s.flag ALM_MNS_CTL ALM_MNS_CTL_EN = true → s.flag st ALM_MNS_STAT_LOCK = true →
      ∃ t, exec .mainsCrossingMissing s = .next t ∧ t.flag st ALM_MNS_STAT_LOCK = false ∧ t.flag st ALM_MNS_STAT_HOLD = true ∧
        t.fld st ALM_MNS_STAT_FREQ = 0 ∧ t.fld st ALM_MNS_STAT_LOCKCNT = 0 ∧ t.mns = s.mns ∧ t.mem = s.mem) ∧
    (s.flag st ALM_MNS_STAT_HOLD = true →
      ∃ t, exec .mainsHoldoverEnd s = .next t ∧ t.flag st ALM_MNS_STAT_HOLD = false ∧ t.mns.run = false ∧ t.mns.period = 0 ∧
        t.mem = s.mem ∧ t.engines = s.engines)

/-- Calendar entries (R251-R259): EN arms a good entry and refuses a bad one with CFGERR; a write of EN = 0 disarms it, with TOOLATE where
its firing is committed; a timed action is handed over 2 us ahead. -/
def Obligations.CalendarArmingAndCommit : Prop :=
  ∀ (s : State) (i : Init) (k : Fin 2048) (v : Word),
    let w0 := CAL_W k 0
    let on := (v ||| 1) &&& 0x00FF3FFF
    let off := (v &&& 0xFFFFFFFE) &&& 0x00FF3FFF
    let w := s.cal k 0
    s.regShut i w0 = false →
      (s.armed k = false → s.calBad k on = false → (predicted on = true → s.predCount < 256) → 4 ≤ calBase on →
        ∃ t, exec (.calendarEnable i k v) s = .next t ∧ t.resp = .ok ∧ t.reg w0 = on ∧ t.cal k 6 = 0 ∧ t.cal k 7 = 0 ∧
          (∀ a, a ≠ w0 → a ≠ CAL_W k 6 → a ≠ CAL_W k 7 → t.reg a = s.reg a) ∧ t.engines = s.engines ∧ t.mem = s.mem) ∧
      (s.armed k = false → s.calBad k on = true →
        exec (.calendarEnable i k v) s =
          .next (((s.setReg w0 (on &&& 0xFFFFFFFE)).setFlag (CAL_W k 7) cCFGERR true).answer .ok)) ∧
      (s.armed k = true → s.committed k = false → exec (.calendarDisable i k v) s = .next ((s.setReg w0 off).answer .ok)) ∧
      (s.armed k = true → s.committed k = true →
        exec (.calendarDisable i k v) s = .next (((s.setFlag (CAL_W k 7) cTOOLATE true).setReg w0 off).answer .ok)) ∧
      (s.armed k = true → calBase w < 4 → timed (calAction w) = true → s.committed k = false →
        s.tcTime k ≤ s.clockNs (calBase w) + 2000 →
        exec (.calendarCommit k) s = .next { s with
          handed := s.handed ++ [⟨k, calAction w, s.cal k 3, calBase w, s.tcTime k⟩]
          calPend := s.calPend ++ [⟨k, w, s.cal k 3, s.tcTime k, true⟩] })

/-- Calendar firings (R253-R261): a due one-shot entry on a clock whose action is an engine event latches EV1 of that engine, counts, and
disarms; a prediction writes its time and freezes the entry within the lead. -/
def Obligations.CalendarFiringAndPrediction : Prop :=
  ∀ (s : State) (k : Fin 2048) (x : Int),
    let w := s.cal k 0
    let arg := (s.cal k 3).toNat % 32
    let w7 := CAL_W k 7
    (s.armed k = true → s.calPend = [] → calBase w < 4 → calAction w = 4 → calRepeat w = false → w.getLsbD 9 = false →
      s.tcTime k ≤ s.clockNs (calBase w) → (s.eng arg).st ≠ .isolated →
      ∃ t, exec (.calendarFire k) s = .next t ∧ t.eng arg = { s.eng arg with evpend := (s.eng arg).evpend ||| 2 } ∧
        t.armed k = false ∧ t.fld w7 cFIRED = (s.fld w7 cFIRED + 1) % 65536 ∧ t.reg CAL_FIRED = s.reg CAL_FIRED + 1 ∧
        t.mem = s.mem ∧ ∀ e, e ≠ arg → t.eng e = s.eng e) ∧
    (s.armed k = false → s.calPend = [] → exec (.calendarFire k) s = .next s) ∧
    (s.armed k = true → predicted w = true → s.committed k = false → s.predict k = some x →
      s.clockNs 0 + s.leadNs (calBase w) < x →
      exec (.anglePrediction k) s = .next (s.setReg (CAL_W k 6) (t32Of (x.toNat * 65536)))) ∧
    (s.armed k = true → predicted w = true → s.committed k = false → s.predict k = some x → timed (calAction w) = true →
      x ≤ s.clockNs 0 + s.leadNs (calBase w) →
      exec (.anglePrediction k) s = .next { (s.setReg (CAL_W k 6) (t32Of (x.toNat * 65536))).setFlag w7 cFROZEN true with
        handed := s.handed ++ [⟨k, calAction w, s.cal k 3, 0, x⟩], calPend := s.calPend ++ [⟨k, w, s.cal k 3, x, true⟩] })

/-- Cross-stamps and the capture log (R243, R265, R266): one instant of the four clocks and the pin-time counter; a capture enters the log
with its T32 stamp and moves WR on; RD moves up to WR and no further. -/
def Obligations.CrossStampsAndCaptures : Prop :=
  ∀ (s : State) (i : Init) (v : Word) (n : Fin 4),
    let k := (s.reg ALM_CAP_WR).toNat % 256
    let rd := (s.reg ALM_CAP_RD).toNat
    let ahead := (v.toNat % 512 + 512 - rd) % 512
    (s.regShut i ALM_XS_CTL = false →
      ∃ t, exec (.crossStamp i) s = .next t ∧ t.resp = .ok ∧ t.reg (ALM_XS_TC_0 n) = (t96Of (s.clock n).t).1 ∧
        t.reg (ALM_XS_TC_1 n) = (t96Of (s.clock n).t).2.1 ∧ t.reg (ALM_XS_TC_2 n) = (t96Of (s.clock n).t).2.2 ∧
        t.reg ALM_XS_PTC0 = word s.ptc ∧ t.reg ALM_XS_PTC1 = word (s.ptc / 2 ^ 32) ∧ t.reg ALM_XS_SEQ = s.reg ALM_XS_SEQ + 1 ∧
        { t with regs := s.regs, resp := s.resp } = s) ∧
    (s.regShut i ALM_CAP_SW = false → s.flag ALM_CAP_CTL ALM_CAP_CTL_EN = true → s.unread < 256 →
      ∃ t, exec (.softwareCapture i v) s = .next t ∧ t.resp = .ok ∧
        t.reg (ALM_CAPLOG k 0) = word (2048 + v.toNat % 256 * 2 ^ 24) ∧ t.reg (ALM_CAPLOG k 1) = s.t32 0 ∧
        t.reg (ALM_CAPLOG k 2) = word (unitsSec (s.clock 0).t) ∧ t.reg (ALM_CAPLOG k 3) = 0 ∧
        t.reg ALM_CAP_WR = word (((s.reg ALM_CAP_WR).toNat + 1) % 512) ∧ t.mem = s.mem ∧ t.engines = s.engines) ∧
    (s.regShut i ALM_CAP_RD = false → ahead ≤ s.unread →
      exec (.captureRdWrite i v) s = .next ((s.setReg ALM_CAP_RD (word (v.toNat % 512))).answer .ok)) ∧
    (s.regShut i ALM_CAP_RD = false → s.unread < ahead →
      exec (.captureRdWrite i v) s = .next ((s.answer .busError).reported i ALM_CAP_RD))


/-! ### Ethernet -/

/-- Port control (R269, R270, R272-R275, R290, R291, R303-R305): what mode writes, resets, link changes, MDIO, gates, PAUSE, preemption
verification, low-power idle and the service-port speed do to a port. -/
def Obligations.EthernetPortControl : Prop :=
  ∀ (s : State) (i : Init) (p : Fin 6) (v : Word),
    let c := ETH_CTL p
    let st := ETH_STAT p
    let mode := s.fld c ETH_CTL_MODE
    (s.regShut i c = false → s.portQuiet p = true → modeOk p (ETH_CTL_MODE.get v) = true → v.getLsbD 1 = false →
      ∃ t, exec (.portModeWrite i p v) s = .next t ∧ t.resp = .ok ∧ t.fld c ETH_CTL_MODE = ETH_CTL_MODE.get v ∧
        t.flag c ETH_CTL_EN = v.getLsbD 0 ∧ (∀ k, k < 4 → t.reg (ETH_CORR p k) = modeCorr (ETH_CTL_MODE.get v) k) ∧
        t.ports = s.ports ∧ t.mem = s.mem ∧ t.engines = s.engines) ∧
    (s.regShut i c = false →
      ∃ t, exec (.portReset i p) s = .next t ∧ t.resp = .ok ∧ t.flag c ETH_CTL_EN = false ∧ t.fld c ETH_CTL_MODE = mode ∧
        (t.port p).txq = [] ∧ (t.port p).wire = none ∧ (t.port p).frag = none ∧ (t.port p).gates = [] ∧
        (∀ a, ETH_RXOK p ≤ a → a ≤ ETH_TXDESC p → t.reg a = 0) ∧
        (∀ k, k < 12 → t.reg (queueBase p k + 0xC) = 0 ∧ t.reg (queueBase p k + 0x10) = 0) ∧ t.mem = s.mem) ∧
    (s.regShut i ETH_COM_CTL = false →
      ∃ t, exec (.ethBlkrst i) s = .next t ∧ t.resp = .ok ∧ (∀ n, n < 6 → t.flag (ETH_CTL n) ETH_CTL_EN = false ∧
        (t.port n).wire = none ∧ t.flag (ETH_LANE_CTL n) ETH_LANE_CTL_PRIEN = false ∧
        t.flag (ETH_LANE_CTL n) ETH_LANE_CTL_SHDEN = false) ∧ t.flag ETH_COM_MDIO_CTL ETH_COM_MDIO_CTL_GO = false ∧
        t.mem = s.mem) ∧
    (∀ (up hdx : Bool) (sp : Fin 4), ¬(mode = 1 ∧ s.flag c ETH_CTL_LSRC = true) → speedOk mode sp = true →
      ∃ t, exec (.linkChange p up sp hdx) s = .next t ∧ t.flag st ETH_STAT_LINK = (up && !hdx) ∧
        t.flag st ETH_STAT_HDX = (up && hdx) ∧ t.fld st ETH_STAT_SPEED = sp ∧ t.mem = s.mem) ∧
    (∀ (r1 r4 r5 r9 r10 : BitVec 16) (sp : Nat) (h : Bool), mode = 1 → s.flag c ETH_CTL_LSRC = true →
      resolve28 r4.toNat r5.toNat r9.toNat r10.toNat = some (sp, h) →
      ∃ t, exec (.phyPoll p r1 r4 r5 r9 r10) s = .next t ∧ t.flag st ETH_STAT_LINK = (r1.getLsbD 2 && !h) ∧
        t.flag st ETH_STAT_HDX = (r1.getLsbD 2 && h) ∧ t.fld st ETH_STAT_SPEED = sp ∧ t.mem = s.mem) ∧
    (let m := ETH_COM_MDIO_CTL
     (s.regShut i m = false → s.flag m ETH_COM_MDIO_CTL_GO = false →
       ∃ t, exec (.mdioTransaction i v) s = .next t ∧ t.resp = .ok ∧ t.flag m ETH_COM_MDIO_CTL_GO = true ∧
         t.fld m ETH_COM_MDIO_CTL_PHYAD = v.toNat % 32 ∧ t.fld m ETH_COM_MDIO_CTL_REGAD = v.toNat / 32 % 32 ∧
         t.fld m ETH_COM_MDIO_CTL_OP = v.toNat / 1024 % 4 ∧ (∀ a, a ≠ m → t.reg a = s.reg a) ∧ t.mem = s.mem) ∧
     (s.regShut i m = false → s.flag m ETH_COM_MDIO_CTL_GO = true →
       exec (.mdioTransaction i v) s = .next ((s.answer .busError).reported i m)) ∧
     (∀ d : BitVec 16, s.flag m ETH_COM_MDIO_CTL_GO = true → s.fld m ETH_COM_MDIO_CTL_OP = 2 →
       exec (.mdioComplete (some d)) s = .next (((s.setFlag m ETH_COM_MDIO_CTL_GO false).setReg ETH_COM_MDIO_DATA
         (d.zeroExtend 32)).setFlag m ETH_COM_MDIO_CTL_NOACK false) ∧
       exec (.mdioComplete none) s = .next (((s.setFlag m ETH_COM_MDIO_CTL_GO false).setReg ETH_COM_MDIO_DATA 0xFFFF).setFlag m
         ETH_COM_MDIO_CTL_NOACK true)) ∧
     (∀ a, s.flag m ETH_COM_MDIO_CTL_GO = true → s.fld m ETH_COM_MDIO_CTL_OP = 1 →
       exec (.mdioComplete a) s = .next (s.setFlag m ETH_COM_MDIO_CTL_GO false))) ∧
    (s.regShut i (ETH_GATE p) = false → (s.port p).wire = none →
      exec (.gateWrite i p v) s = .next ((s.setFld (ETH_GATE p) ETH_GATE_STATES (v.toNat % 256)).answer .ok)) ∧
    (∀ q l, s.regShut i (ETH_GATE p) = false → (s.port p).wire = some (q, l) → q < 8 → v.getLsbD q = false →
      s.gateOpen p q = true → s.preemptable p q = false →
      exec (.gateWrite i p v) s =
        .next (((s.setFld (ETH_GATE p) ETH_GATE_STATES (v.toNat % 256)).countSat (ETH_TXOVRUN p) 1).answer .ok)) ∧
    (∀ (h : Handed) (s' : State), s.takeHanded p 2 = some (h, s') → (s'.port p).gates.length < 16 →
      exec (.gateActionHandover p) s = .next ((s'.updPort p fun x =>
        { x with gates := x.gates ++ [(h.clk, h.time, h.arg)] }).setFld (ETH_GATE p) ETH_GATE_NPEND
          ((s'.port p).gates.length + 1))) ∧
    (∀ (h : Handed) (s' : State), s.takeHanded p 2 = some (h, s') → 16 ≤ (s'.port p).gates.length →
      exec (.gateActionHandover p) s = .next (s'.countSat (ETH_CALMISS p) 1)) ∧
    (∀ (k : Nat) (x : Int) (w : Word) (r : List (Nat × Int × Word)), (s.port p).gates = (k, x, w) :: r → x ≤ s.clockNs k →
      ∃ t, exec (.gateActionApply p) s = .next t ∧ (t.port p).gates = r ∧
        t.fld (ETH_GATE p) ETH_GATE_STATES = bitsOf w.toNat 8 8 ∧
        t.flag (ETH_GATE p) ETH_GATE_HOLD = (if w.toNat / 65536 = 1 then true else if w.toNat / 65536 = 2 then false
          else s.flag (ETH_GATE p) ETH_GATE_HOLD) ∧ t.mem = s.mem ∧ t.engines = s.engines) ∧
    exec (.pauseExpiry p) s =
      .next ((s.setFlag (ETH_PAUSE p) ETH_PAUSE_ACTIVE false).setFld (ETH_PAUSE p) ETH_PAUSE_QREM 0) ∧
    (s.flag (ETH_PRE_CFG p) ETH_PRE_CFG_EN = true → s.flag st ETH_STAT_LINK = true →
      (s.fld (ETH_PRE_STAT p) ETH_PRE_STAT_VSTAT = 1 ∨ s.fld (ETH_PRE_STAT p) ETH_PRE_STAT_VSTAT = 2) →
      ((s.port p).vtry < max 1 (s.fld (ETH_PRE_CFG p) ETH_PRE_CFG_VLIMIT) →
        exec (.preemptVerify p) s =
          .next ((s.setFld (ETH_PRE_STAT p) ETH_PRE_STAT_VSTAT 2).updPort p fun x => { x with vtry := x.vtry + 1 })) ∧
      (max 1 (s.fld (ETH_PRE_CFG p) ETH_PRE_CFG_VLIMIT) ≤ (s.port p).vtry →
        exec (.preemptVerify p) s = .next ((s.setFld (ETH_PRE_STAT p) ETH_PRE_STAT_VSTAT 4).countSat (ETH_VERFAIL p) 1))) ∧
    (s.flag (ETH_EEE p) ETH_EEE_EN = true → s.flag c ETH_CTL_EN = true → (mode = 1 ∨ mode = 2) →
      (s.fld st ETH_STAT_SPEED = 1 ∨ s.fld st ETH_STAT_SPEED = 2) → s.flag st ETH_STAT_LINK = true →
      s.flag st ETH_STAT_LPITX = false → (s.port p).wire = none → (s.port p).frag = none → (s.port p).gates = [] →
      (s.lane (egressLane p)).tx = [] → (∀ q, q < 8 → (s.txq p q).frames = []) →
      exec (.lpiEntry p) s = .next ((s.setFlag st ETH_STAT_LPITX true).countSat (ETH_LPIENT p) 1)) ∧
    (s.wakeSoon p = true → exec (.lpiWake p) s = .next (s.setFlag st ETH_STAT_LPITX false)) ∧
    (∀ on, exec (.lpiReceived p on) s = .next (s.setFlag st ETH_STAT_LPIRX on)) ∧
    (s.mayShift p = true → s.fld st ETH_STAT_SPEED = 2 →
      ∃ t, exec (.downshift p) s = .next t ∧ t.flag st ETH_STAT_LINK = false ∧ t.flag st ETH_STAT_DSHIFT = true ∧
        t.reg (ETH_DSHIFT p) = word (satAdd 32 (s.reg (ETH_DSHIFT p)).toNat 1) ∧ (t.port p).adv1000 = false ∧ t.mem = s.mem) ∧
    (s.mayShift p = true → s.fld st ETH_STAT_SPEED = 1 → s.flag st ETH_STAT_DSHIFT = true →
      ∃ t, exec (.upshift p) s = .next t ∧ t.flag st ETH_STAT_LINK = false ∧ (t.port p).adv1000 = true ∧
        (t.port p).upshift = true ∧ t.mem = s.mem)

/-- Rings and transmission (R276-R279, R282, R287, R288, R292-R297): how frames are fetched, chosen, started, cut, launched, ended and
cancelled. -/
def Obligations.EthernetTransmission : Prop :=
  ∀ (s : State) (i : Init) (p : Fin 6) (q : Fin 8) (k : Fin 12) (v : Word),
    let b := queueBase p k
    let tq := ETH_TXQ_CFG p q
    (∀ len, s.regShut i (b + if len then 8 else 4) = false →
      (if k.val < 8 then s.txQuiet p k else s.rxQuiet p (k.val - 8)) = true →
      ∃ t, exec (.ringConfigWrite i p k len v) s = .next t ∧ t.resp = .ok ∧ t.reg (b + 0xC) = 0 ∧ t.reg (b + 0x10) = 0 ∧
        t.flag (b + 0x14) ETH_TXQ_STAT_ERR = false ∧
        (len = true → 2 ≤ ETH_TXQ_LEN_LEN.get v → ETH_TXQ_LEN_LEN.get v ≤ 4096 →
          t.fld (b + 8) ETH_TXQ_LEN_LEN = ETH_TXQ_LEN_LEN.get v) ∧ t.mem = s.mem ∧ t.engines = s.engines) ∧
    (s.regShut i (b + 0x10) = false → v.toNat % 4096 < s.ringLen b →
      exec (.tailWrite i p k v) s = .next ((s.setReg (b + 0x10) (v &&& 0xFFF)).answer .ok)) ∧
    (s.regShut i (b + 0x10) = false → s.ringLen b ≤ v.toNat % 4096 →
      exec (.tailWrite i p k v) s = .next ((s.answer .busError).reported i (b + 0x10))) ∧
    (∀ (ds : List (List Byte)) (s' : State), s.flag (ETH_CTL p) ETH_CTL_EN = true → s.flag tq ETH_TXQ_CFG_EN = true →
      s.flag (tq + 0x14) ETH_TXQ_STAT_ERR = false → s.collect p q 16 (s.fetchIdx p q) [] = (ds, .whole, s') →
      (descWord (ds.headD []) 3).toNat % 4 = 0 → descsOk ds = true → bitsOf (descWord (ds.headD []) 1).toNat 16 14 ≤ 9212 →
      (s'.txq p q).cancels = [] →
      exec (.descriptorFetch p q) s = .next (s'.updTxq p q fun x => { x with cancels := [], frames := x.frames ++
        [⟨s.fetchIdx p q, ds.length, bitsOf (descWord (ds.headD []) 1).toNat 16 14, descWord (ds.headD []) 2,
          descWord (ds.headD []) 3, descWord (ds.headD []) 4,
          ds.map fun d => ((descWord d 0).toNat, bitsOf (descWord d 1).toNat 0 14), none, none, 0, 0, 0⟩] })) ∧
    (∀ (ds : List (List Byte)) (s' : State), s.flag (ETH_CTL p) ETH_CTL_EN = true → s.flag tq ETH_TXQ_CFG_EN = true →
      s.flag (tq + 0x14) ETH_TXQ_STAT_ERR = false → s.collect p q 16 (s.fetchIdx p q) [] = (ds, .notOwned, s') →
      exec (.descriptorFetch p q) s =
        .next ((s'.setFlag (tq + 0x14) ETH_TXQ_STAT_ERR true).setFld (tq + 0x14) ETH_TXQ_STAT_ERRC 3)) ∧
    (∀ (f : TxFrame) (r : List TxFrame) (n : Nat) (x : Int) (d : List Byte) (s' : State), (s.txq p q).frames = f :: r →
      f.timedWaiting = true → f.launch = some (n, x) → f.data = none → s.fifoBytes p + f.flen ≤ 16384 →
      2 ≤ s.fld (ETH_TXCFG p) ETH_TXCFG_TLEAD → s.fld (ETH_TXCFG p) ETH_TXCFG_TLEAD ≤ 1000 →
      x ≤ s.clockNs n + 1000 * (s.fld (ETH_TXCFG p) ETH_TXCFG_TLEAD : Int) → s.readBufs p f.bufs = (d, none, s') →
      exec (.timedFrameFetch p q) s = .next (s'.updHead p q fun f => { f with data := some d })) ∧
    (s.txFree p = true → s.preActive p = false → (s.port p).frag = none →
      (∀ n : Nat, q.val < n → n < 8 → s.queueCands p n = []) → s.queueCands p q ≠ [] →
      s.txChoice p = (s.queueCands p q).head?) ∧
    (∀ (f : TxFrame) (r : List TxFrame) (d : List Byte), s.txFree p = true → s.txChoice p = some (.ring q) →
      (s.txq p q).frames = f :: r → f.data = some d →
      ∃ t ts, exec (.txFrameSelect p) s = .next t ∧ (t.port p).wire = some (q.val, false) ∧
        (t.txq p q).frames = { f with
          data := some (insertCs d f.w2).1, st := 1, ts := t32Of (ts * 65536)
          status := word (s.stampClk p * 16 + bit (insertCs d f.w2).2 * 256) } :: r ∧ t.mem = s.mem ∧ t.engines = s.engines) ∧
    (s.txFree p = true → s.txChoice p = none → exec (.txFrameSelect p) s = .next s) ∧
    (∀ (f : TxFrame) (r : List TxFrame) (d : List Byte) (n : Nat) (x : Int), s.txFree p = true → s.ringEligible p q = true →
      (s.port p).frag = none → (∀ k : Nat, q.val < k → k < 8 → s.queueCands p k = []) → (s.txq p q).frames = f :: r →
      f.data = some d → f.w3.toNat % 4 ≠ 0 → f.launch = some (n, x) → s.clockNs n ≤ x →
      ∃ t, ∃ e : Int, exec (.timedLaunch p q) s = .next t ∧ (t.port p).wire = some (q.val, false) ∧ -4 ≤ e ∧ e ≤ 4 ∧
        ((t.txq p q).frames.headD f).ts = t32Of ((x - s.clockNs n + s.clockNs (s.stampClk p) + e).toNat * 65536) ∧
        t.mem = s.mem) ∧
    (∀ (sent remain : Nat) (f : TxFrame) (r : List TxFrame), (s.port p).wire = some (q.val, false) → (s.port p).frag = none →
      s.preemptable p q = true → s.flag (ETH_GATE p) ETH_GATE_HOLD = true → (s.txq p q).frames = f :: r →
      sent + remain ≤ max 60 f.flen + 4 → 64 * (1 + s.fld (ETH_PRE_CFG p) ETH_PRE_CFG_ADDFRAG) ≤ sent → 64 ≤ remain →
      exec (.preemption p sent remain) s = .next (((s.updHead p q fun f => { f with status := f.status ||| 64 }).updPort p fun x =>
        { x with wire := none, frag := some (q.val, false) }).countSat (ETH_TXFRAG p) 1)) ∧
    (∀ (sent : Nat) (f : TxFrame) (r : List TxFrame), (s.port p).wire = some (q.val, false) → (s.txq p q).frames = f :: r →
      s.cutThrough p q f = true →
      ∃ t, exec (.txUnderrun p sent) s = .next t ∧ (t.port p).wire = none ∧
        (t.port p).last = withFcs ((f.data.getD []).take sent) true ∧
        (t.txq p q).frames = { f with st := 2, status := f.status ||| word (2 + 128) } :: r ∧
        t.fld tq ETH_TXQ_CFG_THR = min 144 (s.fld tq ETH_TXQ_CFG_THR + 1) ∧
        t.reg (ETH_TXUNDR p) = word (satAdd 32 (s.reg (ETH_TXUNDR p)).toNat 1) ∧ t.mem = s.mem) ∧
    (∀ (f : TxFrame) (r : List TxFrame), (s.port p).wire = some (q.val, false) → (s.txq p q).frames = f :: r → f.st = 1 →
      (s.txq p q).held = none →
      ∃ t, exec (.txWriteback p q) s = .next t ∧ (t.port p).wire = none ∧ (t.txq p q).frames = r ∧
        (t.port p).last = withFcs (f.data.getD []) false ∧ t.reg (ETH_TXOK p) = s.reg (ETH_TXOK p) + 1 ∧
        t.reg (tq + 0xC) = word ((s.ringHead tq + f.n) % s.ringLen tq)) ∧
    (∀ (h : Handed) (s' : State), s.takeHanded p 1 = some (h, s') → bitsOf h.arg.toNat 4 3 = q.val → (s'.txq p q).held = none →
      (s'.txq p q).frames = [] →
      exec (.launchHandover p) s = .next (s'.updTxq p q fun x => { x with held := some (h.k, h.clk, h.time) })) ∧
    (∀ (f : TxFrame) (r : List TxFrame) (n : Nat) (x : Int), (s.txq p q).frames = f :: r → f.timedWaiting = true →
      f.launch = some (n, x) → x + ((s.reg (ETH_TXQ_LTOL p q)).toNat : Int) < s.clockNs n →
      ∃ t, exec (.launchLate p q) s = .next t ∧
        (t.txq p q).frames = { f with st := 2, status := word (1 + s.stampClk p * 16), ts := 0 } :: r ∧
        t.reg (ETH_TXLATE p) = word (satAdd 32 (s.reg (ETH_TXLATE p)).toNat 1) ∧ t.mem = s.mem ∧ t.engines = s.engines) ∧
    (∀ (f : TxFrame) (r : List TxFrame), s.regShut i (ETH_TXQ_CANCEL p q) = false → v.getLsbD 31 = true →
      s.inRing tq (v.toNat % 4096) = true → (s.txq p q).frames = f :: r → f.sof = v.toNat % 4096 → 0 < f.n → f.st ≤ 2 →
      (∀ g, g ∈ r → g.sof ≠ f.sof) →
      ∃ t, exec (.txCancel i p q v) s = .next t ∧ t.resp = .ok ∧ t.reg (ETH_TXQ_CSTAT p q) = (if f.st = 0 then 1 else 2) ∧
        (t.txq p q).frames = (if f.st = 0 then { f with st := 2, status := word (3 + s.stampClk p * 16), ts := 0 } else f) :: r ∧
        t.mem = s.mem)

/-- Reception (R280, R281, R303, R306-R308): a frame is dropped and counted for what is wrong with it, honoured as PAUSE, or written to the
receive queue that its rule or the default names. -/
def Obligations.EthernetReception : Prop :=
  ∀ (s : State) (p : Fin 6) (kind : Fin 5) (bs : List Byte) (aln full : Bool) (sfd : Int),
    let run := exec (.rxFrame p kind bs aln full sfd) s
    let way := s.rxWay p (s.rxRule p bs)
    let data := s.flag (ETH_CTL p) ETH_CTL_EN = true ∧ s.flag (ETH_STAT p) ETH_STAT_LINK = true ∧ kind.val < 2 ∧ be16 bs 12 ≠ 0x8808
    let counted := (s.count (ETH_RXOK p) 1).count (ETH_RXOCT p) bs.length
    let limit := s.fld (ETH_RXCFG p) ETH_RXCFG_MAXFRM
    (s.flag (ETH_CTL p) ETH_CTL_EN = false ∨ s.flag (ETH_STAT p) ETH_STAT_LINK = false → run = .next s) ∧
    (s.flag (ETH_CTL p) ETH_CTL_EN = true → s.flag (ETH_STAT p) ETH_STAT_LINK = true → kind.val < 2 → be16 bs 12 = 0x8808 →
      be16 bs 0 = 0x0180 → be16 bs 2 = 0xC200 → be16 bs 4 = 0x0001 → be16 bs 14 = 1 → fcsGood bs = true → aln = false →
      run = .next (((s.setFlag (ETH_PAUSE p) ETH_PAUSE_ACTIVE (be16 bs 16 != 0)).setFld (ETH_PAUSE p) ETH_PAUSE_QREM
        (be16 bs 16)).countSat (ETH_RXPAUSE p) 1)) ∧
    (data → way ≠ .lane → aln = true → run = .next (s.countSat (ETH_RXALN p) 1)) ∧
    (data → way ≠ .lane → aln = false → fcsGood bs = false → run = .next (s.countSat (ETH_RXFCS p) 1)) ∧
    (data → way ≠ .lane → aln = false → fcsGood bs = true → bs.length < 64 → run = .next (s.countSat (ETH_RXRUNT p) 1)) ∧
    (data → way = .drop → aln = false → full = false → fcsGood bs = true → 64 ≤ bs.length → bs.length ≤ limit → limit ≤ 9216 →
      run = .next (counted.countSat (ETH_RXCLSD p) 1)) ∧
    (∀ (r : Fin 4) (ds : List (Nat × Nat × Nat)) (s1 s2 s3 : State), data → way = .queue r → aln = false → full = false →
      fcsGood bs = true → 64 ≤ bs.length → bs.length ≤ limit → limit ≤ 9216 →
      s.flag (ETH_RXQ_CFG p r) ETH_TXQ_CFG_EN = true → s.flag (ETH_RXQ_CFG p r + 0x14) ETH_TXQ_STAT_ERR = false →
      counted.takeRx p (ETH_RXQ_CFG p r) 40 (s.ringHead (ETH_RXQ_CFG p r)) bs.length [] = (ds, .whole, s1) →
      s1.storeRx p ds bs = (none, s2) →
      s2.backRx p (ETH_RXQ_CFG p r) (s.rxMeta p bs sfd (kind == 1) (s.rxRule p bs)) bs.length true bs.length ds = (none, s3) →
      run = .next ((s3.setReg (ETH_RXQ_CFG p r + 0xC)
        (word ((s3.ringHead (ETH_RXQ_CFG p r) + ds.length) % s3.ringLen (ETH_RXQ_CFG p r)))).queueEvent (ETH_RXQ_CFG p r)))

/-! ### Campanile, Belfry, CAN FD -/

/-- The Campanile node (R311, R313, R321, R323-R343, R348): its states and what moves it between them, table validation and switch, what it
sends and receives in a slot, and the correction at a cycle's end. -/
def Obligations.CampanileNode : Prop :=
  ∀ (s : State) (i : Init) (k : Fin 1024),
    let st := CTB_STAT
    let sel := s.fld CTB_NODE CTB_NODE_TBLSEL
    let e := s.entry s.ctbTbl k
    let open' := s.regShut i CTB_CTL = false
    let running := s.ctb = 2 ∨ s.ctb = 3 ∨ s.ctb = 4
    (open' → s.ctb = 0 → s.timingOk = true → (s.flag CTB_NODE CTB_NODE_CSN = true → s.flag CTB_NODE CTB_NODE_SYNCN = true) →
      validOf s.camp.valid sel = true →
      ∃ t, exec (.ctbStart i) s = .next t ∧ t.resp = .ok ∧ t.ctb = 1 ∧ t.ctbTbl = sel ∧ t.flag st CTB_STAT_CFGERR = false ∧
        t.reg CTB_STARTS = s.reg CTB_STARTS + 1 ∧ t.camp.sync = Sync.init ∧ t.mem = s.mem) ∧
    (open' → s.ctb ≠ 0 → exec (.ctbStart i) s = .next (s.answer .ok)) ∧
    (open' → s.ctb ≠ 0 → exec (.ctbHalt i) s =
      .next (((s.updCamp fun x => { x with halt := true }).setFlag CTB_CTL CTB_CTL_HALT true).answer .ok)) ∧
    (s.camp.halt = true →
      ∃ t, exec .ctbHaltComplete s = .next t ∧ t.ctb = 0 ∧ t.camp.halt = false ∧ t.camp.jobs = [] ∧
        t.flag CTB_CTL CTB_CTL_HALT = false ∧ t.flag st CTB_STAT_ARMED = false ∧ t.mem = s.mem) ∧
    (open' → s.ctb = 5 →
      ∃ t, exec (.ctbRestart i) s = .next t ∧ t.resp = .ok ∧ t.ctb = 1 ∧ t.fld st CTB_STAT_ATTEMPT = 0 ∧
        t.reg CTB_STARTS = s.reg CTB_STARTS + 1 ∧ t.mem = s.mem) ∧
    (open' →
      ∃ t, exec (.ctbBlkrst i) s = .next t ∧ t.resp = .ok ∧ t.ctb = 0 ∧ t.camp = { Camp.init with valid := s.camp.valid } ∧
        (∀ a, ctbCounter a = true → t.reg a = 0) ∧ t.mem = s.mem) ∧
    (∀ n : Fin 2, s.camp.jobs = [(n.val, 1)] → s.ctb = 0 → s.validateNode n = none →
      ∃ t, exec (.tableValidationComplete false n) s = .next t ∧ t.ctb = 1 ∧ t.camp.valid = setValid s.camp.valid n true ∧
        t.camp.jobs = [] ∧ t.mem = s.mem) ∧
    (∀ (n : Fin 2) (v : Violation), s.camp.jobs = [(n.val, 1)] → s.validateNode n = some v →
      exec (.tableValidationComplete false n) s = .next
        (((s.updCamp fun x => { x with jobs := [], valid := setValid x.valid n false }).setReg CTB_CFGERR (cfgErrWord n v)).setFlag
          st CTB_STAT_CFGERR true)) ∧
    (∀ v : Word, s.regShut i CTB_SWITCH = false → s.ctb ≠ 0 → validOf s.camp.valid (v.toNat % 2) = true →
      s.flag BFY_CTL BFY_CTL_SWFOLLOW = false → v.getLsbD 17 = false →
      ∃ t, exec (.switchArm i v) s = .next t ∧ t.resp = .ok ∧ t.flag st CTB_STAT_ARMED = true ∧
        t.fld CTB_SWITCH CTB_SWITCH_TBL = v.toNat % 2 ∧ t.fld CTB_SWITCH CTB_SWITCH_CYC = bitsOf v.toNat 8 6 ∧ t.ctb = s.ctb ∧
        t.mem = s.mem) ∧
    (s.regShut i CTB_SWITCH = false → s.flag st CTB_STAT_ARMED = true →
      ∃ t, exec (.switchCancel i) s = .next t ∧ t.resp = .ok ∧ t.flag st CTB_STAT_ARMED = false ∧ t.ctb = s.ctb ∧
        t.ctbTbl = s.ctbTbl ∧ t.mem = s.mem) ∧
    (s.ctb = 4 → s.camp.sentCyc = false → s.flag st CTB_STAT_ARMED = false →
      ∃ t, exec .cycleStart s = .next t ∧ t.ctb = 4 ∧ t.reg CTB_CYCNUM = s.reg CTB_CYCNUM + 1 ∧ t.camp.start = s.ticks ∧
        t.camp.wins = [] ∧ t.camp.sync.vals = [] ∧ t.camp.sync.prev = s.camp.sync.vals ∧ t.mem = s.mem) ∧
    (s.ctb = 2 → s.camp.resp = false → s.fld st CTB_STAT_ATTEMPT + 1 < 32 →
      max 1 (s.fld CTB_STARTUP CTB_STARTUP_CSMAX) ≤ s.fld st CTB_STAT_ATTEMPT + 1 →
      ∃ t, exec .cycleStart s = .next t ∧ t.ctb = 5 ∧ t.flag st CTB_STAT_ALONE = true ∧ t.mem = s.mem) ∧
    (s.ctb = 1 → s.flag CTB_NODE CTB_NODE_CSN = true →
      ∃ t, exec .listenTimeout s = .next t ∧ t.ctb = 2 ∧ t.reg CTB_CYCNUM = 0 ∧ t.ctbTbl = sel ∧ t.mem = s.mem) ∧
    (∀ (c : Option Nat) (g : Word) (d : List Byte) (s1 s2 : State), s.sends k = some c →
      s.moverWord .campMover e.buf = (g, none, s1) → s1.moverRead .campMover (e.buf + 16) e.plen = (d, none, s2) →
      g.toNat % 2 = 0 → g ≠ 0 →
      exec (.txBufferFetch k) s =
        .next (s2.updCamp fun x => { x with fetched := (k.val, g, d, false) :: x.fetched.filter fun y => y.1 != k.val })) ∧
    (∀ (g : Word) (d : List Byte) (r : List (Nat × Word × List Byte × Bool)), s.sends k = some none → (s.win k).sent = none →
      s.camp.fetched = (k.val, g, d, false) :: r → g ≠ 0 →
      ∃ t, exec (.slotTransmit k) s = .next t ∧ t.camp.sentCyc = true ∧
        t.camp.last = campFrame ⟨e.slotid, s.cyc, e.plen, e.sync, s.ctb == 2, e.type == 3, false, s.nodeId, s.ctbTbl⟩ d ∧
        (∀ c, c < 2 → t.reg (CTB_CH_TXOK c) = s.reg (CTB_CH_TXOK c) + (if s.effective e c then 1 else 0)) ∧
        ∀ a, a < e.buf + 4 ∨ e.buf + 16 ≤ a → t.byte a = s.byte a) ∧
    (∀ (c : Fin 2) (bs : List Byte) (code : Bool) (start stop : Int), s.ctb = 4 → (s.reg CTB_NODE).getLsbD (6 + c) = true →
      e.applies s.cyc = true → s.effective e c = true → e.type = 1 →
      (code = true →
        ∃ t, exec (.ctbFrameReceive c k bs code start stop) s = .next t ∧
          t.reg (CTB_CH_RXCODE c) = word (satAdd 32 (s.reg (CTB_CH_RXCODE c)).toNat 1) ∧ t.mem = s.mem) ∧
      (code = false → frameCheck bs = 0 → (hdrOf bs).tbl = s.ctbTbl → s.slotCheck e (hdrOf bs) start stop = true →
        (s.win k).taken = none →
        ∃ t, exec (.ctbFrameReceive c k bs code start stop) s = .next t ∧
          t.reg (CTB_CH_RXOK c) = s.reg (CTB_CH_RXOK c) + 1 ∧ (t.win k).taken = some (c.val, bs.take (bs.length - 4)) ∧
          (t.win k).committed = !(hdrOf bs).nul ∧
          ∀ a, a < e.buf ∨ e.buf + 16 + (hdrOf bs).len ≤ a → t.byte a = s.byte a)) ∧
    (s.ctb = 4 → e.applies s.cyc = true → e.type = 2 → (s.win k).sent ≠ none →
      ∃ t, exec (.slotWindowEnd k) s = .next t ∧ (∀ w, w ∈ t.camp.wins → w.k ≠ k.val) ∧
        t.reg (CTB_CH_ECHOMISS 0) = (if s.effective e 0 && !(s.win k).echoA then
          word (satAdd 32 (s.reg (CTB_CH_ECHOMISS 0)).toNat 1) else s.reg (CTB_CH_ECHOMISS 0)) ∧ t.mem = s.mem) ∧
    (running → s.syncLost (s.correct s.camp.sync s.cyc (some s.nodeId)).sync = false →
      ∃ t, exec .offsetCorrection s = .next t ∧ t.ctb = s.ctb ∧
        t.reg CTB_OFSCORR = wordOfInt (clampTo s.oclim ((fta 1 (s.camp.sync.vals.map (·.d))).getD 0)) ∧
        t.camp.sync = (s.correct s.camp.sync s.cyc (some s.nodeId)).sync ∧ t.mem = s.mem ∧ t.engines = s.engines) ∧
    (s.regShut i CTB_LEAPCFG = false → s.flag CTB_LEAPCFG CTB_LEAPCFG_EN = true →
      ∃ t, exec (.leapRelease i) s = .next t ∧ t.resp = .ok ∧ t.flag CTB_LEAPCFG CTB_LEAPCFG_EN = false ∧ t.camp.leap = none ∧
        t.flag st CTB_STAT_LEAPOWN = false ∧ t.mem = s.mem) ∧
    (∀ (n : Fin 17) (on : Bool), exec (.codeGroupAlignment true n on) s = .next (s.setFlag (BFY_BR_STAT n) BFY_BR_STAT_SYNC on)) ∧
    (∀ on, exec (.codeGroupAlignment false 0 on) s = .next (s.setFlag st CTB_STAT_SYNCA on) ∧
      exec (.codeGroupAlignment false 1 on) s = .next (s.setFlag st CTB_STAT_SYNCB on))

/-- The Belfry star (R356-R370): enabling and disabling, what is relayed, blocked and cut, how a relay ends, leap locks, the cycle's end,
branch release, the switch of its table, and its partial reset. -/
def Obligations.BelfryStar : Prop :=
  ∀ (s : State) (i : Init) (c : Fin 2) (b : Fin 17) (v : Word),
    let a := BFY_CTL
    let st := BFY_STAT
    let open' := s.regShut i a = false
    let started := s.updStar fun x => { x with started := x.started ||| BitVec.ofNat 17 (2 ^ b.val) }
    (∀ s1 : State, open' → s.bfy = 0 → s.ctb = 0 → s.reg a &&& 3 = 0 → v &&& 3 ≠ 0 →
      s1 = ((s.setFlag a BFY_CTL_SWFOLLOW ((s.reg a ||| v).getLsbD 2)).setFlag a BFY_CTL_TBLSEL (v.getLsbD 4)).setReg a
        ((((s.setFlag a BFY_CTL_SWFOLLOW ((s.reg a ||| v).getLsbD 2)).setFlag a BFY_CTL_TBLSEL (v.getLsbD 4)).reg a &&&
          ~~~(3 : Word)) ||| (v &&& 3)) →
      s1.validateStar (bit (v.getLsbD 4)) = none →
      ∃ t, exec (.starEnable i v) s = .next t ∧ t.resp = .ok ∧ t.bfy = 1 ∧ t.bfyTbl = bit (v.getLsbD 4) ∧
        t.star.sync = Sync.init ∧ t.star.relayA = none ∧ t.star.relayB = none ∧ t.mem = s.mem) ∧
    (open' → s.ctb = 0 →
      ∃ t, exec (.starDisable i) s = .next t ∧ t.resp = .ok ∧ t.bfy = 0 ∧ t.reg a &&& 3 = 0 ∧ t.star.relayA = none ∧
        t.star.relayB = none ∧ t.mem = s.mem) ∧
    (open' →
      ∃ t, exec (.bfyBlkrst i) s = .next t ∧ t.resp = .ok ∧ t.bfy = 0 ∧ t.reg a &&& 3 = 0 ∧
        t.star = { Star.init with valid := s.star.valid } ∧ t.reg BFY_ISO = 0 ∧ t.mem = s.mem) ∧
    (∀ pos : Int,
      (s.bfy = 0 → exec (.starStartSequence c b pos) s = .next s) ∧
      (s.bfy ≠ 0 → s.onChannel b c = true → s.isolated b = true →
        exec (.starStartSequence c b pos) s = .next (started.countSat (BFY_BR_CUT b) 1)) ∧
      (s.bfy = 1 → s.onChannel b c = true → s.isolated b = false → s.relay c = none →
        exec (.starStartSequence c b pos) s = .next ((started.setRelay c (some ⟨b, none⟩)).count (BFY_BR_RELAY b) 1)) ∧
      (s.bfy = 1 → s.onChannel b c = true → s.isolated b = false → s.relay c ≠ none →
        exec (.starStartSequence c b pos) s = .next (started.countSat (BFY_BR_BLOCK b) 1)) ∧
      (s.bfy = 2 → s.onChannel b c = true → s.isolated b = false → s.ownWindow b c pos = none →
        exec (.starStartSequence c b pos) s =
          .next ((started.updStar fun x => { x with viol := x.viol ||| BitVec.ofNat 17 (2 ^ b.val) }).countSat (BFY_BR_CUT b) 1)) ∧
      (∀ k, s.bfy = 2 → s.onChannel b c = true → s.isolated b = false → s.ownWindow b c pos = some k → s.relay c = none →
        (s.starEntry s.bfyTbl k).type = 1 →
        exec (.starStartSequence c b pos) s = .next ((started.setRelay c (some ⟨b, some k⟩)).count (BFY_BR_RELAY b) 1))) ∧
    (∀ (r : Relay) (bs : List Byte) (start stop : Int), s.relay c = some r →
      exec (.starRelayEnd c .codeError bs start stop) s = .next ((s.setRelay c none).countSat (BFY_BR_BRCODE r.branch) 1) ∧
      exec (.starRelayEnd c .tooLong bs start stop) s = .next ((s.setRelay c none).countSat (BFY_BR_TRUNC r.branch) 1) ∧
      exec (.starRelayEnd c .windowEnd bs start stop) s = .next (((s.setRelay c none).updStar fun x =>
        { x with viol := x.viol ||| BitVec.ofNat 17 (2 ^ r.branch) }).countSat (BFY_BR_TRUNC r.branch) 1) ∧
      (frameCheck bs ≠ 0 → exec (.starRelayEnd c .endSeq bs start stop) s = .next (s.setRelay c none)) ∧
      (∀ k, frameCheck bs = 0 → s.bfy = 2 → r.entry = some k → (s.starEntry s.bfyTbl k).type = 2 →
        s.lockOf s.bfyTbl k c = none →
        exec (.starRelayEnd c .endSeq bs start stop) s =
          .next ((((s.setRelay c none).updStar fun x => { x with good := (k, c.val) :: x.good }).setLock s.bfyTbl k c
            (some r.branch) 0).ringBfy))) ∧
    (s.bfy = 2 → s.flag st BFY_STAT_ARMED = false →
      ∃ t, exec .starCycleEnd s = .next t ∧ t.bfy = 2 ∧ t.bfyCyc = (s.bfyCyc + 1) % 64 ∧ t.star.cycnum = s.star.cycnum + 1 ∧
        t.star.started = 0 ∧ t.star.viol = 0 ∧ t.star.start = s.ticks ∧ t.mem = s.mem) ∧
    (s.bfy = 2 → s.syncLost (s.correct s.star.sync s.bfyCyc none).sync = false →
      exec .starOffsetCorrection s = .next (((s.setReg BFY_OFSCORR (wordOfInt (s.correct s.star.sync s.bfyCyc none).sync.oc)).setReg
        BFY_RATECORR (wordOfInt (s.correct s.star.sync s.bfyCyc none).sync.rho)).updStar fun x =>
          { x with sync := (s.correct s.star.sync s.bfyCyc none).sync })) ∧
    (s.regShut i BFY_REL = false →
      ∃ t, exec (.branchRelease i v) s = .next t ∧ t.resp = .ok ∧
        (∀ n, n < 17 → t.isolated n = (s.isolated n && !v.getLsbD n)) ∧ t.mem = s.mem ∧ t.star = s.star) ∧
    (s.regShut i BFY_SWITCH = false → s.bfy ≠ 0 → validOf s.star.valid (v.toNat % 2) = true → v.getLsbD 17 = false →
      ∃ t, exec (.starSwitchArm i v) s = .next t ∧ t.resp = .ok ∧ t.flag st BFY_STAT_ARMED = true ∧
        t.fld BFY_SWITCH BFY_SWITCH_TBL = v.toNat % 2 ∧ t.fld BFY_SWITCH BFY_SWITCH_CYC = bitsOf v.toNat 8 6 ∧ t.bfy = s.bfy ∧
        t.mem = s.mem) ∧
    (s.regShut i BFY_SWITCH = false → s.flag st BFY_STAT_ARMED = true →
      ∃ t, exec (.starSwitchCancel i) s = .next t ∧ t.resp = .ok ∧ t.flag st BFY_STAT_ARMED = false ∧ t.bfyTbl = s.bfyTbl ∧
        t.mem = s.mem)

/-- The CAN FD controllers, on the bus (R382-R384, R388-R391, R395-R398): receive storage, transmit requests, cancels, attempts and their
ends, the error counters and states. -/
def Sys2Proof.Claims.CanBus : Prop :=
  ∀ (s : State) (i : Init) (n : Fin 4) (v : Word),
    let er := CAN_ERR n
    let go := CAN_TXGO n
    let gone := ((s.updCan n fun x => { x with attempt := none }).setFlag (CAN_STAT n) CAN_STAT_BUSY false).setFlag (CAN_STAT n)
      CAN_STAT_TXING false
    (∀ (f : CanFrame) (ago : Nat), s.onBus n = true → s.canCtl n CAN_CTL_LOOP = false → f.ext = false → f.rmt = false →
      s.fld (CAN_ACC n) CAN_ACC_NSHORT = 0 → s.fld er CAN_ERR_REC < 128 →
      let route := CAN_ROUTE n (s.fld (CAN_ACC n) CAN_ACC_MISSS)
      let q := CAN_QAST n
      (s.fld route CAN_ROUTE_TARGET = 0 → s.flag route CAN_ROUTE_MARK = false → s.fld q CAN_QAST_LEVEL < s.qaLen n →
        ∃ t, exec (.canFrameReceived n f ago) s = .next t ∧ t.fld er CAN_ERR_REC = s.fld er CAN_ERR_REC - 1 ∧
          t.reg q = queueWord (s.fld q CAN_QAST_RPOS) ((s.fld q CAN_QAST_WPOS + 1) % s.qaLen n) (s.fld q CAN_QAST_LEVEL + 1)
            (s.qaLen n) ∧
          t.reg (CAN_RXOK n) = s.reg (CAN_RXOK n) + 1 ∧ t.flag (CAN_EVS n) CAN_EVS_QA = true ∧
          ∀ a, a < s.rxElem n (s.fld q CAN_QAST_WPOS) ∨ s.rxElem n (s.fld q CAN_QAST_WPOS) + 80 ≤ a → t.byte a = s.byte a) ∧
      (4 < s.fld route CAN_ROUTE_TARGET ∨ s.fld route CAN_ROUTE_TARGET = 4 →
        ∃ t, exec (.canFrameReceived n f ago) s = .next t ∧
          t.reg (CAN_RXDROP n) = word (satAdd 32 (s.reg (CAN_RXDROP n)).toNat 1) ∧ t.mem = s.mem)) ∧
    (∀ b : Bool, let q := queueReg b n
      let k := v.toNat % 128
      let a := if b then CAN_QBRET n else CAN_QARET n
      (s.regShut i a = false → 0 < k → k ≤ s.fld q CAN_QAST_LEVEL →
        exec (.queueReturn i n b v) s = .next ((s.setReg q (queueWord ((s.fld q CAN_QAST_RPOS + k) % s.queueLen b n)
          (s.fld q CAN_QAST_WPOS) (s.fld q CAN_QAST_LEVEL - k) (s.queueLen b n))).answer .ok)) ∧
      (s.regShut i a = false → (k = 0 ∨ s.fld q CAN_QAST_LEVEL < k) →
        exec (.queueReturn i n b v) s = .next ((s.answer .busError).reported i a))) ∧
    (∀ (j : Fin 32) (s1 s2 s3 : State) (w0 w1 : Nat), s.regShut i go = false → v = word (2 ^ j.val) →
      (s.reg go).getLsbD j = false →
      s1 = (s.setReg go (s.reg go ||| v)).txResult n j 0 false 0 (s.txClk n j) → s1.canRead n (s1.txBuf n j) = (some w0, s2) →
      s2.canRead n (s2.txBuf n j + 4) = (some w1, s3) →
      (s3.txBad n w0 w1 = false → exec (.canTxRequest i n v) s = .next (s3.answer .ok)) ∧
      (s3.txBad n w0 w1 = true → exec (.canTxRequest i n v) s = .next ((s3.txFail n j 5).answer .ok))) ∧
    (∀ j : Fin 32, s.regShut i (CAN_TXSTOP n) = false → v = word (2 ^ j.val) →
      ((s.reg go).getLsbD j = false → exec (.canTxCancel i n v) s = .next (s.answer .ok)) ∧
      ((s.reg go).getLsbD j = true → (s.can n).attempt = none →
        exec (.canTxCancel i n v) s = .next ((s.txFail n j 2).answer .ok)) ∧
      (∀ x : CanAttempt, (s.reg go).getLsbD j = true → (s.can n).attempt = some x → x.buf = j.val →
        exec (.canTxCancel i n v) s = .next ((s.setReg (CAN_TXSTOP n) (s.reg (CAN_TXSTOP n) ||| v)).answer .ok))) ∧
    (∀ (l : List (Nat × Nat)) (j : Nat) (s1 s2 s3 : State) (d d' : List Byte), s.onBus n = true →
      s.canCtl n CAN_CTL_LISTEN = false → s.canCtl n CAN_CTL_HALT = false → (s.can n).attempt = none →
      s.txPending n (List.range 32) = (l, s1) → lowest l = some j → s1.moverRead .canMover (s1.txBuf n j) 8 = (d, none, s2) →
      let w0 := ofBytes (d.take 4)
      let w1 := ofBytes (d.drop 4)
      s2.moverRead .canMover (s2.txBuf n j + 16) (if w0.testBit 30 then 0 else dlcLen (w1.testBit 4) (w1 % 16)) = (d', none, s3) →
      s3.txBad n w0 w1 = false →
      ∃ t x, exec (.canTxSelect n) s = .next t ∧ (t.can n).attempt = some x ∧ x.buf = j ∧ x.frame.data = d' ∧
        x.frame.dlc.val = w1 % 16 ∧ x.frame.fd = w1.testBit 4 ∧
        x.frame.id = (if w0.testBit 29 then bitsOf w0 0 29 else bitsOf w0 0 11) ∧ t.flag (CAN_STAT n) CAN_STAT_BUSY = true ∧
        t.flag (CAN_STAT n) CAN_STAT_TXING = true) ∧
    (∀ (x : CanAttempt) (m : Nat), (s.can n).attempt = some x → x.buf < 32 → s.canCtl n CAN_CTL_LOOP = false →
      ∃ t, exec (.canTxSuccess n m) s = .next t ∧ (t.can n).attempt = none ∧ t.flag (CAN_STAT n) CAN_STAT_BUSY = false ∧
        (t.reg go).getLsbD x.buf = false ∧ (t.reg (CAN_TXDONE n)).getLsbD x.buf = true ∧
        t.reg (CAN_TXFRM n) = s.reg (CAN_TXFRM n) + 1 ∧ t.fld er CAN_ERR_TEC = s.fld er CAN_ERR_TEC - 1 ∧
        ∀ a, a < s.txBuf n x.buf + 8 ∨ s.txBuf n x.buf + 16 ≤ a → t.byte a = s.byte a) ∧
    (∀ (x : CanAttempt) (lost : Bool), (s.can n).attempt = some x → (s.reg (CAN_TXSTOP n)).getLsbD x.buf = false →
      (s.canCtl n CAN_CTL_ONCE = false → exec (.canTxAttemptFailed n lost) s = .next gone) ∧
      (s.canCtl n CAN_CTL_ONCE = true →
        exec (.canTxAttemptFailed n lost) s = .next (gone.txFail n x.buf (if lost then 3 else 4)))) ∧
    (∀ (code : Fin 7) (fast : Bool), s.onBus n = true →
      (s.fld er CAN_ERR_TEC + 8 < 256 → ¬(code = 6 ∧ s.canErr n = 1) →
        ∃ t, exec (.canBusError n true code fast .frame) s = .next t ∧ t.fld er CAN_ERR_TEC = s.fld er CAN_ERR_TEC + 8 ∧
          t.fld er CAN_ERR_STATE = bit (decide (127 < s.fld er CAN_ERR_TEC + 8 ∨ 127 < s.fld er CAN_ERR_REC)) ∧
          t.reg (CAN_ERRCNT n) = word (satAdd 32 (s.reg (CAN_ERRCNT n)).toNat 1) ∧ t.mem = s.mem) ∧
      (256 ≤ s.fld er CAN_ERR_TEC + 8 → ¬(code = 6 ∧ s.canErr n = 1) → (s.can n).attempt = none →
        ∃ t, exec (.canBusError n true code fast .frame) s = .next t ∧ t.fld er CAN_ERR_STATE = 2 ∧
          t.reg (CAN_BOCNT n) = word (satAdd 32 (s.reg (CAN_BOCNT n)).toNat 1) ∧ t.flag (CAN_EVS n) CAN_EVS_BO = true ∧
          t.mem = s.mem) ∧
      (∃ t, exec (.canBusError n false code fast .frame) s = .next t ∧
        t.fld er CAN_ERR_REC = min 255 (s.fld er CAN_ERR_REC + 1) ∧ t.fld er CAN_ERR_TEC = s.fld er CAN_ERR_TEC ∧
        t.mem = s.mem)) ∧
    (s.onBus n = true → s.canCtl n CAN_CTL_PXFORM = false →
      exec (.canProtocolException n) s =
        .next (((s.countSat (CAN_PXCNT n) 1).canEvs n CAN_EVS_PXE).updCan n fun x => { x with integrating := true })) ∧
    (s.flag (CAN_STAT n) CAN_STAT_BOREC = true →
      exec (.busoffRecoveryComplete n) s =
        .next (((s.setReg er 0).setFlag (CAN_STAT n) CAN_STAT_BOREC false).canEvs n CAN_EVS_BO))

/-- The CAN FD controllers, halting and layout (R397, R400-R402): a halt takes the controller off the bus when its frame has ended, leaving
it validates the configuration and integrates, a layout write empties the queues, and a partial reset leaves it halted. -/
def Sys2Proof.Claims.CanHalting : Prop :=
  ∀ (s : State) (i : Init) (n : Fin 4) (v : Word),
    let c := CAN_CTL n
    let st := CAN_STAT n
    let er := CAN_ERR n
    let halted (t : State) : Prop := t.flag c CAN_CTL_HALT = true ∧ t.flag st CAN_STAT_HALTED = true ∧
      t.fld er CAN_ERR_STATE = (if s.canErr n = 2 then 2 else 3) ∧ (t.can n).integrating = false ∧ t.mem = s.mem
    (s.regShut i c = false → s.flag st CAN_STAT_HALTED = false → (s.reg c ^^^ v) &&& 0xFE = 0 →
      (s.flag st CAN_STAT_BUSY = false → ∃ t, exec (.canHalt i n v) s = .next t ∧ t.resp = .ok ∧ halted t) ∧
      (s.flag st CAN_STAT_BUSY = true → exec (.canHalt i n v) s = .next ((s.setFlag c CAN_CTL_HALT true).answer .ok))) ∧
    (s.canCtl n CAN_CTL_HALT = true → (s.can n).attempt = none → ∃ t, exec (.canHalted n) s = .next t ∧ halted t) ∧
    (s.regShut i c = false → s.flag st CAN_STAT_HALTED = true →
      let s1 := s.setReg c ((s.reg c &&& ~~~(0xFE : Word)) ||| (v &&& 0xFE))
      (s1.canValidate n = none →
        ∃ t, exec (.canLeaveHalt i n v) s = .next t ∧ t.resp = .ok ∧ t.flag c CAN_CTL_HALT = false ∧
          t.flag st CAN_STAT_HALTED = false ∧ t.flag st CAN_STAT_CFGERR = false ∧
          (if s.canErr n = 2 then t.flag st CAN_STAT_BOREC = true else (t.can n).integrating = true) ∧ t.mem = s.mem) ∧
      (∀ k, s1.canValidate n = some k → k < 8 →
        ∃ t, exec (.canLeaveHalt i n v) s = .next t ∧ t.flag c CAN_CTL_HALT = true ∧ t.flag st CAN_STAT_HALTED = true ∧
          t.flag st CAN_STAT_CFGERR = true ∧ t.fld st CAN_STAT_CFGC = k ∧ t.mem = s.mem)) ∧
    ((s.can n).integrating = true → s.canErr n = 3 → s.fld er CAN_ERR_TEC ≤ 127 → s.fld er CAN_ERR_REC ≤ 127 →
      exec (.canBusIntegrated n) s = .next ((s.updCan n fun x => { x with integrating := false }).setFld er CAN_ERR_STATE 0)) ∧
    (s.regShut i (CAN_RXL n) = false → s.flag st CAN_STAT_HALTED = true →
      ∃ t, exec (.rxLayoutWrite i n v) s = .next t ∧ t.resp = .ok ∧ t.fld (CAN_RXL n) CAN_RXL_SIZE = CAN_RXL_SIZE.get v ∧
        t.qaLen n = CAN_RXL_QALEN.get v ∧ t.qbLen n = CAN_RXL_QBLEN.get v ∧ t.cells n = CAN_RXL_CELLS.get v ∧
        t.reg (CAN_CELLNEW0 n) = 0 ∧ t.reg (CAN_CELLNEW1 n) = 0 ∧ t.reg (CAN_QAST n) = queueWord 0 0 0 (t.qaLen n) ∧
        t.reg (CAN_QBST n) = queueWord 0 0 0 (t.qbLen n) ∧ t.mem = s.mem ∧ t.engines = s.engines) ∧
    (s.regShut i c = false →
      ∃ t, exec (.canBlkrst i n) s = .next t ∧ t.resp = .ok ∧ t.flag st CAN_STAT_HALTED = true ∧ t.flag c CAN_CTL_HALT = true ∧
        t.fld er CAN_ERR_STATE = 3 ∧ t.fld er CAN_ERR_TEC = 0 ∧ t.fld er CAN_ERR_REC = 0 ∧ t.reg (CAN_TXGO n) = 0 ∧
        t.can n = CanCtl.init ∧ t.reg (CAN_RXOK n) = 0 ∧ t.mem = s.mem ∧ t.engines = s.engines)

/-! ### Carillon, Signal Mapper, exchange region -/

/-- The Carillon instructions (R412-R422): what the word at the PC of a running sequencer does, and how its stalls end. -/
def Obligations.CarillonInstructions : Prop :=
  ∀ (s : State) (c : Fin 8) (q : Fin 4) (prev gp : BitVec 64),
    let ptr := CAR_SEQ_PTR c q
    let stat := CAR_SEQ_STAT c q
    let txw := CAR_SEQ_TXW c q
    let rxw := CAR_SEQ_RXW c q
    let z : State := { s with gp := gp }
    let x := s.seq c q
    let runs (o : CarOp) : Prop := s.seqState c q = 1 ∧ decodeCar (s.carWord c q) = o
    let goes (t : State) (pc : Nat) : Host.Outcome State Fault Refusal := .next ((t.seqGo c q pc).movers c q)
    let next := nextPc (s.seqPc c q)
    let stalls (t : State) (k : Nat) : Host.Outcome State Fault Refusal :=
      .next ((((t.updSeq c q fun x => { x with cur := some (s.carWord c q, false) }).setFld stat CAR_SEQ_STAT_STATE 2).setFld stat
        CAR_SEQ_STAT_CAUSE k).movers c q)
    let halts (k : Nat) : Host.Outcome State Fault Refusal :=
      let t := (((s.updSeq c q fun x => { x with cur := none }).setFld stat CAR_SEQ_STAT_STATE 3).setFld stat CAR_SEQ_STAT_CAUSE
        0).setFld stat CAR_SEQ_STAT_ERRC k
      .next (((t.setReg (CAR_CTL c) (t.reg (CAR_CTL c) &&& ~~~word (2 ^ q.val))).ringSeq c q).movers c q)
    let pcTo (b : Bool) (a : Nat) : Nat := if b then a else next
    (∀ t w n, runs (.out t w n) →
      let v := outValue (s.reg txw).toNat (s.fld ptr fTxp) n (s.seqCfg c q CAR_SEQ_CFG_TXMSB == 1)
      let u := s.setFld ptr fTxp (min 32 (s.fld ptr fTxp + n))
      (t = 2 → exec (.carOut c q) s = goes (u.setReg (wReg c q w) (word v)) next) ∧
      (t < 2 → exec (.carOut c q) s = goes (u.writePins c t (s.maskPins c (s.reg (CAR_SEQ_OMASK c q))) n v) next) ∧
      (t = 3 → exec (.carOut c q) s = goes u next)) ∧
    (∀ w n, runs (.inp 1 w n) →
      exec (.carIn c q gp) s = goes ((z.setReg rxw (inPlace (s.reg rxw) (s.fld ptr fRxp) n ((s.reg (wReg c q w)).toNat % 2 ^ n)
        (s.seqCfg c q CAR_SEQ_CFG_RXMSB == 1))).setFld ptr fRxp (min 32 (s.fld ptr fRxp + n))) next) ∧
    (∀ w n, runs (.inp 0 w n) →
      exec (.carIn c q gp) s = goes ((z.setReg rxw (inPlace (s.reg rxw) (s.fld ptr fRxp) n
        (bitsWord n fun k => ((s.maskPins c (s.reg (CAR_SEQ_IMASK c q)))[k]?).any fun p => z.windowPin gp c p)
        (s.seqCfg c q CAR_SEQ_CFG_RXMSB == 1))).setFld ptr fRxp (min 32 (s.fld ptr fRxp + n))) next) ∧
    (∀ w n, runs (.set 2 w n) → exec (.carSet c q) s = goes (s.setReg (wReg c q w) (word n)) next) ∧
    (∀ t w n, t < 2 → runs (.set t w n) →
      exec (.carSet c q) s = goes (s.writePins c t (s.maskPins c (s.reg (CAR_SEQ_SMASK c q))) 8 n) next) ∧
    (∀ pol src idx, runs (.wait pol src idx) →
      (z.waitHolds c q prev gp pol src idx = true →
        exec (.carWait c q prev gp) s = goes (z.waitTakes c q pol src idx) next) ∧
      (z.waitHolds c q prev gp pol src idx = false → exec (.carWait c q prev gp) s = stalls z 3)) ∧
    (∀ w, runs (.at 2 w) →
      let t := s.extendPtc (s.reg (wReg c q w)).toNat
      let goal := t - s.seqCfg c q CAR_SEQ_CFG_ATLEAD
      let u := s.updSeq c q fun x => { x with att := (t.emod (2 ^ 64)).toNat }
      ((s.ptc : Int) < goal → exec (.carAt c q) s = stalls u 4) ∧
      ((s.ptc : Int) = goal → exec (.carAt c q) s = goes u next) ∧
      (goal < (s.ptc : Int) →
        exec (.carAt c q) s = goes ((u.setFlag stat CAR_SEQ_STAT_LATE true).countSat (CAR_SEQ_ATLATE c q) 1) next)) ∧
    (∀ k a, runs (.jmp k a) → a < 48 →
      let w0 := s.reg (wReg c q 0)
      let dec (r : Nat) : Prop := exec (.carJmp c q gp) s =
        goes (z.setReg (wReg c q r) (s.reg (wReg c q r) - 1)) (pcTo (s.reg (wReg c q r) - 1 != 0) a)
      let plain (b : Bool) : Prop := exec (.carJmp c q gp) s = goes z (pcTo b a)
      (k = 0 → plain true) ∧ (k = 1 → plain (w0 == 0)) ∧ (k = 2 → plain (w0 != 0)) ∧ (k = 3 → dec 0) ∧ (k = 4 → dec 1) ∧
        (k = 5 → plain (decide (w0.toNat < (s.reg (wReg c q 1)).toNat))) ∧
        (k = 6 → plain (z.windowPin gp c (s.seqCfg c q CAR_SEQ_CFG_JPIN))) ∧ (k = 7 → plain (s.fld ptr fTxp == 32))) ∧
    (∀ k a, runs (.jmp k a) → 48 ≤ a → gp = s.gp → exec (.carJmp c q gp) s = halts 2) ∧
    (∀ v r, runs .pull → s.txCap c q ≠ 0 → x.tx = v :: r →
      exec (.carPull c q) s = goes (((s.setTx c q r).setReg txw v).setFld ptr fTxp 0) next) ∧
    (runs .pull → s.txCap c q ≠ 0 → x.tx = [] → exec (.carPull c q) s = stalls s 1) ∧
    (runs .push → x.rx.length < s.rxCap c q →
      exec (.carPush c q) s = goes (((s.setRx c q (x.rx ++ [s.reg rxw])).setReg rxw 0).setFld ptr fRxp 0) next) ∧
    (runs .push → s.rxCap c q ≠ 0 → s.rxCap c q ≤ x.rx.length → exec (.carPush c q) s = stalls s 2) ∧
    (∀ t o src d r, runs (.mov t o src d r) →
      let v := movOp o (z.movSource c q gp src r)
      (t = 2 → exec (.carMov c q gp) s = goes (z.setReg (wReg c q d) v) next) ∧
      (t = 3 → exec (.carMov c q gp) s = goes ((z.setReg txw v).setFld ptr fTxp 0) next) ∧
      (t = 4 → exec (.carMov c q gp) s = goes ((z.setReg rxw v).setFld ptr fRxp 0) next) ∧
      (t < 2 → exec (.carMov c q gp) s = goes (z.writePins c t (List.range (s.winCnt c)) 32 v.toNat) next)) ∧
    (∀ (ring : Bool) (o f : Nat), runs (.sig false ring o f) →
      let w := s.reg (CAR_HFLAG c)
      let m := word (2 ^ f)
      let fin (t : State) : State := if ring then t.ringSeq c q else t
      (o = 0 → exec (.carSig c q) s = goes (fin s) next) ∧
      (o = 1 → exec (.carSig c q) s = goes (fin (s.setReg (CAR_HFLAG c) (w ||| m))) next) ∧
      (o = 2 → exec (.carSig c q) s = goes (fin (s.setReg (CAR_HFLAG c) (w &&& ~~~m))) next) ∧
      (o = 3 → exec (.carSig c q) s = goes (fin (s.setReg (CAR_HFLAG c) (w ^^^ m))) next)) ∧
    (runs .invalid → exec (.invalidWord c q) s = halts 1) ∧
    (∀ (w k : Nat), x.cur = some (w, false) → s.seqState c q = 2 → s.fld stat CAR_SEQ_STAT_CAUSE = k → s.carWord c q = w →
      (∀ pol src idx, k = 3 → decodeCar w = .wait pol src idx → s.waitHolds c q prev gp pol src idx = true →
        exec (.carWaitComplete c q prev gp) s = goes (z.waitTakes c q pol src idx) next) ∧
      (k = 4 → (x.att : Int) - s.seqCfg c q CAR_SEQ_CFG_ATLEAD ≤ s.ptc →
        exec (.atTargetReached c q gp) s = .next (s.seqGo c q next)) ∧
      (∀ v r, k = 1 → decodeCar w = .pull → s.txCap c q ≠ 0 → x.tx = v :: r →
        exec (.pullComplete c q gp) s = goes (((z.setTx c q r).setReg txw v).setFld ptr fTxp 0) next) ∧
      (k = 2 → decodeCar w = .push → x.rx.length < s.rxCap c q →
        exec (.pushComplete c q gp) s = goes (((z.setRx c q (x.rx ++ [s.reg rxw])).setReg rxw 0).setFld ptr fRxp 0) next))

/-- Control of the Carillons (R405, R406, R422-R428, R605): run, stop, restart, reset, EXEC, the queue registers, the program store,
the pin map, the movers and the bank supplies. -/
def Obligations.CarillonControl : Prop :=
  ∀ (s : State) (i : Init) (c : Fin 8) (q : Fin 4) (v : Word) (gp : BitVec 64),
    let ctl := CAR_CTL c
    let stat := CAR_SEQ_STAT c q
    let mv := CAR_SEQ_MVCTL c q
    let x := s.seq c q
    let direct := s.seqCfg c q CAR_SEQ_CFG_DIRECT
    (s.regShut i ctl = false → s.seqQuiet c q = true →
      ∃ t, exec (.carRun i c q) s = .next t ∧ t.resp = .ok ∧ t.seqState c q = 1 ∧ t.fld stat CAR_SEQ_STAT_ERRC = 0 ∧
        (t.reg ctl).getLsbD q = true ∧ t.mem = s.mem ∧ t.engines = s.engines) ∧
    (s.regShut i ctl = false →
      ∃ t, exec (.carStop i c q) s = .next t ∧ t.resp = .ok ∧ t.seqQuiet c q = true ∧ (t.reg ctl).getLsbD q = false ∧
        t.mem = s.mem ∧ t.engines = s.engines) ∧
    (s.regShut i ctl = false → s.seqState c q = 1 → (s.reg ctl).getLsbD q = true →
      ∃ t, exec (.carRestart i c q) s = .next t ∧ t.resp = .ok ∧ t.seqPc c q = 0 ∧ t.seqState c q = 1 ∧ t.mem = s.mem ∧
        t.engines = s.engines) ∧
    (s.regShut i ctl = false →
      ∃ t, exec (.carBlkrst i c) s = .next t ∧ t.resp = .ok ∧ t.reg ctl = 0 ∧ t.reg (CAR_PINOUT c) = 0 ∧ t.reg (CAR_PINDIR c) = 0 ∧
        t.reg (CAR_HFLAG c) = 0 ∧ (∀ k, k < 4 → t.seqState c k = 0 ∧ t.seqPc c k = 0 ∧ t.seq c k = Seq.init) ∧ t.mem = s.mem ∧
        t.engines = s.engines) ∧
    (∀ w n, s.regShut i (CAR_SEQ_EXEC c q) = false → s.seqState c q = 0 → decodeCar (v.toNat % 2 ^ 20) = .set 2 w n →
      exec (.carExec i c q v gp) s = .next (((({ s with gp := gp }.setReg (wReg c q w) (word n)).seqGo c q
        (nextPc (s.seqPc c q))).movers c q).answer .ok)) ∧
    (s.regShut i (CAR_SEQ_EXEC c q) = false → s.seqState c q ≠ 0 →
      exec (.carExec i c q v gp) s = .next ((s.answer .busError).reported i (CAR_SEQ_EXEC c q))) ∧
    (s.regShut i (CAR_SEQ_TXF c q) = false → direct ≠ 1 → x.tx.length < s.txCap c q →
      exec (.txfWrite i c q v) s = .next ((s.setTx c q (x.tx ++ [v])).answer .ok)) ∧
    (s.regShut i (CAR_SEQ_TXF c q) = false → direct ≠ 1 → s.txCap c q ≤ x.tx.length →
      exec (.txfWrite i c q v) s = .next ((s.answer .busError).reported i (CAR_SEQ_TXF c q))) ∧
    (s.regShut i (CAR_SEQ_TXF c q) = false → direct = 1 → x.tx ≠ [] →
      exec (.txfWrite i c q v) s = .next (((s.setFlag stat CAR_SEQ_STAT_OVW true).setTx c q [v]).answer .ok)) ∧
    (∀ w r, s.regShut i (CAR_SEQ_RXF c q) = false → x.rx = w :: r →
      exec (.rxfRead i c q) s = .next ((s.setRx c q r).answerWord w)) ∧
    (s.regShut i (CAR_SEQ_RXF c q) = false → x.rx = [] →
      exec (.rxfRead i c q) s = .next ((s.answer .busError).reported i (CAR_SEQ_RXF c q))) ∧
    (∀ k : Fin 48, s.regShut i (CAR_PROG c k) = false →
      ∃ t, exec (.carProgramWrite i c k v) s = .next t ∧ t.resp = .ok ∧ (t.reg (CAR_PROG c k)).toNat % 2 ^ 20 = v.toNat % 2 ^ 20 ∧
        (∀ a, a ≠ CAR_PROG c k → t.reg a = s.reg a) ∧ { t with regs := s.regs, resp := s.resp } = s) ∧
    (let b := bitsOf v.toNat 0 6
     let n := bitsOf v.toNat 6 6
     let map := CAR_COM_MAP c
     s.regShut i map = false → n ≤ 32 → s.carQuiet c = true →
       (b + n ≤ 64 → (∀ d, d < 8 → d ≠ c.val → s.winCnt d ≠ 0 → n ≠ 0 → b + n ≤ s.winBase d ∨ s.winBase d + s.winCnt d ≤ b) →
         (v ^^^ s.reg map) &&& 0xFFF ≠ 0 →
         exec (.carillonMapWrite i c v) s = .next (((((s.setReg CAR_COM_STAT 0).setReg map (v &&& 0xFFF)).setReg (CAR_PINOUT c)
           0).setReg (CAR_PINDIR c) 0).answer .ok)) ∧
       (64 < b + n → exec (.carillonMapWrite i c v) s = .next ((s.setReg CAR_COM_STAT (word (1 + 2 * c.val))).answer .ok))) ∧
    (s.regShut i mv = false → v.getLsbD 0 = true → v.getLsbD 1 = false → s.flag mv CAR_SEQ_MVCTL_TXGO = false →
      s.flag mv CAR_SEQ_MVCTL_RXGO = false →
      ∃ t, exec (.moverGo i c q v) s = .next t ∧ t.resp = .ok ∧ t.flag mv CAR_SEQ_MVCTL_TXGO = true ∧
        t.flag mv CAR_SEQ_MVCTL_TXERR = false ∧ t.mem = s.mem) ∧
    (s.regShut i mv = false → v.getLsbD 2 = true → s.flag mv CAR_SEQ_MVCTL_TXGO = true → s.flag mv CAR_SEQ_MVCTL_RXGO = false →
      ∃ t, exec (.moverStop i c q v) s = .next t ∧ t.resp = .ok ∧ t.flag mv CAR_SEQ_MVCTL_TXGO = false ∧ t.mem = s.mem) ∧
    (s.flag mv CAR_SEQ_MVCTL_TXGO = true → x.errTx = false → x.mvTx = 0 → s.flag mv CAR_SEQ_MVCTL_TXRING = false →
      exec (.moverEnd c q false) s = .next ((s.setFlag mv CAR_SEQ_MVCTL_TXGO false).ringSeq c q)) ∧
    (∀ b : Fin 2, let off := s.reg CAR_COM_BANK &&& ~~~word (2 ^ b.val + 2 ^ (2 + b.val))
      exec (.gpBankSupplyChange b .v18) s = .next (s.setReg CAR_COM_BANK (off ||| word (2 ^ (2 + b.val)))) ∧
      exec (.gpBankSupplyChange b .v33) s = .next (s.setReg CAR_COM_BANK (off ||| word (2 ^ b.val + 2 ^ (2 + b.val)))) ∧
      exec (.gpBankSupplyChange b .absent) s = .next (s.setReg CAR_COM_BANK off))

/-- The Signal Mapper (R432, R439-R442, R445): triggers are queued once and merged, a swap changes the active set, a run works through its
list and counts, and a partial reset ends all of it. -/
def Obligations.SignalMapper : Prop :=
  ∀ (s : State) (i : Init) (v : Word),
    let list := v.toNat % 256
    let en := s.flag SGM_CTL SGM_CTL_EN
    let base := s.tbase (s.fld SGM_STAT SGM_STAT_SEL)
    (s.regShut i SGM_CTL = false →
      ∃ t, exec (.sgmSwap i) s = .next t ∧ t.resp = .ok ∧ t.flag SGM_STAT SGM_STAT_SWPEND = true ∧ t.flag SGM_CTL SGM_CTL_EN = en ∧
        t.flag SGM_CTL SGM_CTL_SWAP = true ∧ t.sgmOrder = s.sgmOrder ∧ t.mem = s.mem ∧ t.engines = s.engines) ∧
    (s.flag SGM_STAT SGM_STAT_SWPEND = true →
      exec .sgmSwapEffect s = .next ((((s.setFld SGM_STAT SGM_STAT_SEL (1 - s.fld SGM_STAT SGM_STAT_SEL)).setFlag SGM_STAT
        SGM_STAT_SWPEND false).setFlag SGM_CTL SGM_CTL_SWAP false).ringEvt SGM_EVT)) ∧
    (s.regShut i SGM_TRIG = false → en = true → list ∉ s.sgmOrder →
      exec (.sgmTrig i v) s = .next ({ s with sgmOrder := s.sgmOrder ++ [list] }.answer .ok)) ∧
    (s.regShut i SGM_TRIG = false → en = true → list ∈ s.sgmOrder →
      exec (.sgmTrig i v) s = .next ((s.countSat SGM_MERGE 1).answer .ok)) ∧
    (s.regShut i SGM_TRIG = false → en = false → exec (.sgmTrig i v) s = .next (s.answer .ok)) ∧
    (∀ (a : Nat) (d : List Byte), s.boot.held = false → s.mode ≠ 1 → 0x4C000000 ≤ a → a + 4 ≤ 0x4C040000 → a % 4 = 0 →
      d.length = 4 → s.mark a = none → (s.reg SGM_TWBASE).getLsbD 0 = true → (s.reg SGM_TWBASE).toNat / 1024 * 1024 ≤ a →
      a < (s.reg SGM_TWBASE).toNat / 1024 * 1024 + 1024 → en = true →
      (a - (s.reg SGM_TWBASE).toNat / 1024 * 1024) / 4 ∉ s.sgmOrder →
      ∃ t, exec (.triggerAreaWrite i a d) s = .next t ∧ t.resp = .ok ∧
        t.sgmOrder = s.sgmOrder ++ [(a - (s.reg SGM_TWBASE).toNat / 1024 * 1024) / 4] ∧
        (∀ c, t.byte c = if a ≤ c ∧ c < a + 4 then d.getD (c - a) 0 else s.byte c) ∧ t.regs = s.regs ∧ t.engines = s.engines) ∧
    (∀ (n : Nat) (r : List Nat) (l : List Byte) (s1 : State), s.sgmOrder = n :: r → en = true →
      s.flag SGM_STAT SGM_STAT_SWPEND = false → { s with sgmOrder := r }.sgmRead (base + 128 * n) 128 = (some l, s1) →
      ((listOf l).en = false → exec .listRun s = .next ((s1.countSat SGM_DISTRIG 1).count SGM_RUNS 1)) ∧
      (∀ (srcs sh sh' : List (List Byte)) (s2 s3 s4 s5 : State), (listOf l).en = true → s1.listValid l = true →
        s1.snapshots (listOf l).srcs = (.ok srcs, s2) → s2.shadows (listOf l).dsts = (some sh, s3) →
        s3.runEntries base n (listOf l) srcs (listOf l).first (listOf l).count sh = (.ok sh', s4) →
        s4.commits n ((listOf l).dsts.zip sh') = (true, s5) →
        let w := (listOf l).w1
        let s6 := (s5.count SGM_RUNS 1).ringIf (w.testBit 11) (bitsOf w 0 6) (bitsOf w 6 5)
        exec .listRun s = .next (if w.testBit 12 then s6.trigger (bitsOf w 13 8) else s6))) ∧
    (s.sgmOrder = [] → exec .listRun s = .next s) ∧
    (s.regShut i SGM_CTL = false →
      ∃ t, exec (.sgmBlkrst i) s = .next t ∧ t.resp = .ok ∧ t.flag SGM_CTL SGM_CTL_EN = false ∧ t.sgmOrder = [] ∧
        t.flag SGM_STAT SGM_STAT_SWPEND = false ∧ t.reg SGM_ERR = 0 ∧ t.reg SGM_RUNS = 0 ∧ t.reg SGM_DISTRIG = 0 ∧ t.mem = s.mem)

/-- The exchange objects (R451, R452, R454-R464): who may post, consume, acquire, release and ring, what it leaves in the object, and what
an epoch advance does. -/
def Obligations.ExchangeObjects : Prop :=
  ∀ (s : State) (i : Init) (p : Nat) (n : Fin 128) (m : Fin 64) (v ev : Word),
    let b := mbx n
    let l := lvs m
    let sem := XCH_SEM_STAT m
    let held := s.flag sem XCH_SEM_STAT_HELD
    let fails (c : Instr) (a : Nat) : Prop := exec c s = .next ((s.answer .busError).reported i a)
    (s.regShut i (XCH_A_MBX p n) = false →
      (pageOk i p = true → s.sender b = p → s.full b = false → n.val ≠ 0 →
        ∃ t, exec (.mailboxPost i p n v) s = .next t ∧ t.resp = .ok ∧ t.full b = true ∧ t.reg b.peek = v ∧
          t.flag b.stat XCH_MBX_STAT_STALE = false ∧ t.flag b.stat XCH_MBX_STAT_ORPHAN = false ∧ t.mem = s.mem ∧
          t.engines = s.engines) ∧
      (pageOk i p = true → s.sender b = p → s.full b = false → n.val = 0 → s.flag PLM_STAT PLM_STAT_READY = true →
        s.cmdq.length < 8 → s.rspq.length < 32 →
        ∃ t, exec (.mailboxPost i p n v) s = .next t ∧ t.resp = .ok ∧ t.full b = false ∧ t.cmdq = s.cmdq ++ [v] ∧ t.mem = s.mem ∧
          t.engines = s.engines) ∧
      (pageOk i p = true → s.sender b = p → s.full b = true →
        exec (.mailboxPost i p n v) s = .next (((s.countSat XCH_MBXREJ 1).answer .busError).reported i (XCH_A_MBX p n))) ∧
      (pageOk i p = false ∨ s.sender b ≠ p → fails (.mailboxPost i p n v) (XCH_A_MBX p n)) ∧
      (pageOk i p = true → s.receiver b = p → s.full b = true → n.val ≠ 0 → n.val ≠ 1 →
        ∃ t, exec (.mailboxConsume i p n) s = .next t ∧ t.resp = .data (toBytes (s.reg b.peek).toNat 4) ∧ t.full b = false ∧
          t.mem = s.mem ∧ t.engines = s.engines) ∧
      (pageOk i p = true → s.receiver b = p → s.full b = false → n.val ≠ 0 → n.val ≠ 1 →
        ∃ t, exec (.mailboxConsume i p n) s = .next t ∧ t.resp = .data (toBytes 0 4) ∧ t.mem = s.mem ∧ t.engines = s.engines) ∧
      (pageOk i p = false ∨ s.receiver b ≠ p → fails (.mailboxConsume i p n) (XCH_A_MBX p n))) ∧
    (s.regShut i (XCH_A_LVS p m) = false → pageOk i p = true →
      (s.sender l = p → s.full l = false → exec (.lvsPost i p m v) s = .next ((s.store l v).answer .ok)) ∧
      (s.sender l = p → s.full l = true →
        exec (.lvsPost i p m v) s = .next ((((s.setFlag l.stat XCH_MBX_STAT_COL true).countSat XCH_LVSCOL 1).store l v).answer .ok)) ∧
      (s.receiver l = p → s.full l = true →
        ∃ t, exec (.lvsConsume i p m) s = .next t ∧ t.resp = .data (toBytes (s.reg l.peek).toNat 4) ∧ t.full l = false ∧
          t.flag l.stat XCH_MBX_STAT_COL = false ∧ t.mem = s.mem ∧ t.engines = s.engines)) ∧
    (s.regShut i (XCH_A_SEM p m) = false → pageOk i p = true →
      (held = false →
        exec (.semaphoreTestAndSet i p m) s = .next ((s.setReg sem (word (1 + p * 2 ^ 8))).answerWord
          (if s.flag sem XCH_SEM_STAT_ABND then 2 else 0))) ∧
      (held = true →
        exec (.semaphoreTestAndSet i p m) s = .next (s.answerWord (word (1 + s.fld sem XCH_SEM_STAT_OWNER * 256)))) ∧
      (held = true → s.fld sem XCH_SEM_STAT_OWNER = p →
        exec (.semaphoreRelease i p m) s = .next ((s.setReg sem 0).answer .ok)) ∧
      (held = false ∨ s.fld sem XCH_SEM_STAT_OWNER ≠ p → fails (.semaphoreRelease i p m) (XCH_A_SEM p m))) ∧
    (s.regShut i XCH_SEM_FREL = false →
      (i = .keep → exec (.semaphoreForceRelease i m) s = .next ((s.setReg sem 0).answer .ok)) ∧
      (i ≠ .keep → fails (.semaphoreForceRelease i m) XCH_SEM_FREL)) ∧
    (let a := XCH_A_DB_RING_AGENT.get v
     let k := XCH_A_DB_RING_BIT.get v
     s.regShut i (XCH_A_DB_RING p) = false → doorOk i p = true →
       (a < 36 → a ≠ 0 → a ≠ 3 →
         exec (.doorbellRing i p v) s =
           .next ((s.setReg (XCH_A_DB_PEND a) (s.reg (XCH_A_DB_PEND a) ||| word (2 ^ (k % 32)))).answer .ok)) ∧
       (36 ≤ a → fails (.doorbellRing i p v) (XCH_A_DB_RING p))) ∧
    (s.regShut i (XCH_A_DB_PEND p) = false → doorOk i p = true → p ≠ 0 → p ≠ 3 →
      exec (.doorbellClear i p v ev) s = .next ((s.setReg (XCH_A_DB_PEND p) ((s.reg (XCH_A_DB_PEND p) &&& ~~~v) ||| ev)).answer .ok)) ∧
    (s.regShut i (XCH_A_DB_MASK p) = false → doorOk i p = true → p ≠ 0 → p ≠ 3 →
      exec (.doorbellMaskWrite i p v) s = .next ((s.setReg (XCH_A_DB_MASK p) v).answer .ok)) ∧
    (s.regShut i XCH_HOSTRST = false → commonOk i = true →
      ∃ t, exec (.hostEpochBump i) s = .next t ∧ t.resp = .ok ∧
        t.reg (XCH_EPOCH 0) = word (((s.reg (XCH_EPOCH 0)).toNat + 1) % 65536) ∧ t.reg (XCH_A_DB_PEND 0) = 0 ∧
        (∀ k, k < 128 → s.full (mbx k) = true → s.fld (mbx k).cfg XCH_MBX_CFG_RCV = 0 →
          t.flag (mbx k).stat XCH_MBX_STAT_STALE = true) ∧
        (∀ k, k < 128 → s.full (mbx k) = true → s.fld (mbx k).cfg XCH_MBX_CFG_SND = 0 →
          t.flag (mbx k).stat XCH_MBX_STAT_ORPHAN = true) ∧
        (∀ k, k < 64 → s.flag (XCH_SEM_STAT k) XCH_SEM_STAT_HELD = true → s.fld (XCH_SEM_STAT k) XCH_SEM_STAT_OWNER = 0 →
          t.reg (XCH_SEM_STAT k) = 2) ∧ t.mem = s.mem ∧ t.engines = s.engines)

/-! ### Memories, Vigil, modes, resets, boot, fuses, power, JTAG -/

/-- The memories' own commands (R470-R486): error queue, scrubber, bank power, test and retirement, MRAM and external DRAM. -/
def Obligations.MemoryCommands : Prop :=
  ∀ (s : State) (i : Init) (k : Fin 96) (n : Fin 16) (v : Word),
    let ctl := bankCtl k
    let p := MEM_TB_CTL_PWR.get v
    let asked := (s.setFld ctl MEM_TB_CTL_AUTORET (MEM_TB_CTL_AUTORET.get v)).setFld ctl MEM_TB_CTL_PWR p
    let st := s.bankState k
    let ds := MEM_DDR_STAT
    let fails (c : Instr) (a : Nat) : Prop := exec c s = .next ((s.answer .busError).reported i a)
    (s.regShut i MEM_ERRQ0 = false →
      (s.errq = [] → exec (.errorQueueRead i) s = .next (s.answerWord 0)) ∧
      (∀ e r, s.errq = e :: r → exec (.errorQueueRead i) s = .next ({ s with
        errq := r, errLatch := Tbl.set (fun _ => (0, 0)) s.errLatch i.rpn (e.addr, e.stamp) }.answerWord e.info))) ∧
    (∀ a, s.flag MEM_SCRUB_CTL MEM_SCRUB_CTL_EN = true → s.region a = .exchange →
      (s.mark (a / 4 * 4) = none → exec (.scrubRead a []) s = .next (s.setFld MEM_SCRUB_STAT MEM_SCRUB_STAT_AREA 2)) ∧
      (∀ b, s.mark (a / 4 * 4) = some (.single b) → s.errq.length < 16 →
        ∃ t, exec (.scrubRead a []) s = .next t ∧ t.mark (a / 4 * 4) = none ∧
          t.errq = s.errq ++ [⟨errInfo false true 2 47 b, word (a / 4 * 4), s.t32 0⟩] ∧ t.mem = s.mem ∧ t.engines = s.engines)) ∧
    (s.flag MEM_SCRUB_CTL MEM_SCRUB_CTL_EN = true →
      exec (.scrubPassEnd true) s = .next (s.count MEM_SCRUB_PASS 1) ∧
      exec (.scrubPassEnd false) s = .next (s.setFlag MEM_SCRUB_STAT MEM_SCRUB_STAT_LATE true)) ∧
    (s.regShut i ctl = false →
      (i = .keep → st = 0 → p = 1 → exec (.bankPowerRequest i k v) s = .next ((asked.setBankState k 1).answer .ok)) ∧
      (i = .keep → st = 0 → p = 2 →
        exec (.bankPowerRequest i k v) s = .next (((asked.setBankState k 3).eraseBank k).answer .ok)) ∧
      (i = .keep → st = 1 → p = 0 → exec (.bankPowerRequest i k v) s = .next ((asked.setBankState k 2).answer .ok)) ∧
      (i = .keep → st = 3 → p = 0 → exec (.bankPowerRequest i k v) s = .next ((asked.setBankState k 4).answer .ok)) ∧
      (i = .keep → st = 0 → exec (.bankTest i k) s =
        .next ((((s.setBankState k 5).setFlag ctl MEM_TB_CTL_TEST true).eraseBank k).answer .ok)) ∧
      (i = .keep → exec (.bankRetire i k) s =
        .next ((((s.setFlag ctl MEM_TB_CTL_RETIRE true).setBankState k 6).eraseBank k).answer .ok)) ∧
      (i ≠ .keep → fails (.bankPowerRequest i k v) ctl ∧ fails (.bankTest i k) ctl ∧ fails (.bankRetire i k) ctl)) ∧
    (st = 2 → exec (.bankWakeComplete k) s = .next (s.setBankState k 0)) ∧
    (st = 4 → exec (.bankInitComplete k) s = .next ((s.setBankState k 0).eraseBank k)) ∧
    (st = 0 → s.flag ctl MEM_TB_CTL_AUTORET = true → exec (.autoRetention k) s = .next (s.setBankState k 1)) ∧
    (st = 5 → s.plm.tests = [] →
      exec (.bankTestComplete k true) s = .next ((((s.setBankState k 0).setFlag ctl MEM_TB_CTL_TEST false).eraseBank k).setFld
        (bankStat k) MEM_TB_STAT_TESTRES 1)) ∧
    (∀ g d r, s.mramQ = (g, d) :: r → exec .mramWriteComplete s = .next ({ s with mramQ := r }.setBytes g d)) ∧
    (s.regShut i MEM_DDR_CTL = false →
      (i = .keep → s.flag MEM_DDR_CTL MEM_DDR_CTL_EN = true →
        exec (.ddrTrain i) s = .next ((s.setFlag MEM_DDR_CTL MEM_DDR_CTL_TRAIN true).answer .ok)) ∧
      (i = .keep → s.flag ds MEM_DDR_STAT_READY = true →
        exec (.ddrInit i) s = .next (((((s.setFlag MEM_DDR_CTL MEM_DDR_CTL_INIT true).setReg MEM_DDR_INITPTR 0).setFlag ds
          MEM_DDR_STAT_INITDONE false).eraseMem fun a => Nat.blt a 0x40000000).answer .ok)) ∧
      (i ≠ .keep → fails (.ddrTrain i) MEM_DDR_CTL ∧ fails (.ddrInit i) MEM_DDR_CTL)) ∧
    (s.flag MEM_DDR_CTL MEM_DDR_CTL_TRAIN = true →
      let done' (ok : Bool) := ((s.setFlag MEM_DDR_CTL MEM_DDR_CTL_TRAIN false).setFlag ds MEM_DDR_STAT_READY ok).setFlag ds
        MEM_DDR_STAT_TRAINERR !ok
      exec (.ddrTrainingComplete true) s = .next ((done' true).setFld ds MEM_DDR_STAT_SIZE (dramCode (s.reg MEM_DDR_CFG))) ∧
      exec (.ddrTrainingComplete false) s = .next (done' false)) ∧
    (s.flag MEM_DDR_CTL MEM_DDR_CTL_INIT = true →
      exec .ddrInitComplete s = .next (((s.setFlag MEM_DDR_CTL MEM_DDR_CTL_INIT false).setReg MEM_DDR_INITPTR
        (word s.dramSize)).setFlag ds MEM_DDR_STAT_INITDONE true)) ∧
    (s.flag ds MEM_DDR_STAT_READY = true →
      exec .ddrRefresh s = .next { s with ddrIssued := s.ddrIssued.set 0 (s.ddrIssued.get 0 + 1) } ∧
      exec .ddrZqCalibration s = .next { s with ddrIssued := s.ddrIssued.set 1 (s.ddrIssued.get 1 + 1) } ∧
      exec .ddrDqsTracking s = .next { s with ddrIssued := s.ddrIssued.set 2 (s.ddrIssued.get 2 + 1) }) ∧
    (s.regShut i (MEM_DDR_RSEG n) = false → i = .keep → s.flag (MEM_DDR_RSEG n) MEM_DDR_RSEG_VALID = false →
      (MEM_DDR_RSEG_SEG.get v * 0x100000 < s.dramSize →
        exec (.ddrSegmentRetire i n v) s =
          .next (((s.setReg (MEM_DDR_RSEG n) (v &&& 0x800003FF)).setFlag ds MEM_DDR_STAT_CFGERR false).answer .ok)) ∧
      (s.dramSize ≤ MEM_DDR_RSEG_SEG.get v * 0x100000 →
        exec (.ddrSegmentRetire i n v) s = .next ((s.setFlag ds MEM_DDR_STAT_CFGERR true).answer .ok)))

/-- Vigil (R563, R571, R573-R575): an event is queued, one without a resource is logged and leaves the queue, the Keep reads the queue, and
a resource is readmitted in COMMISSION only. -/
def Obligations.VigilCommands : Prop :=
  ∀ (s : State) (i : Init) (code : Fin 16) (res : BitVec 16) (addr det : Word) (e : VigEvent) (r : List VigEvent),
    (code.val ≠ 0 → (res = 0 ∨ namesResource res.toNat = true) →
      (s.vigil.queue.length < 64 →
        ∃ t x, exec (.vigilEvent code res addr det) s = .next t ∧ t.vigil.queue = s.vigil.queue ++ [x] ∧ x.res = res.toNat ∧
          x.ecode = code.val ∧ x.addr = addr ∧ x.detail = det ∧ x.stamp = s.t32 0 ∧ t.mem = s.mem ∧ t.engines = s.engines) ∧
      (64 ≤ s.vigil.queue.length →
        ∃ t, exec (.vigilEvent code res addr det) s = .next t ∧ t.vigil.queue = s.vigil.queue ∧
          t.reg VIG_EVQ_LOST = word (satAdd 32 (s.reg VIG_EVQ_LOST).toNat 1) ∧ t.mem = s.mem ∧ t.engines = s.engines)) ∧
    (s.flag PLM_STAT PLM_STAT_READY = true → s.vigil.taken = [] → s.vigil.queue = e :: r → e.res = 0 → e.ecode ≠ 13 →
      s.mramStop = false → s.mramQ = [] →
      let a := logBase + 32 * (s.vigil.logPos % 2048)
      let w := eventEntry [s.eventWord e, e.addr, e.detail, e.stamp, word e.sec, s.reg SYS_BOOTCNT, s.reg VIG_LOGSEQ + 1]
      ∃ t, exec .vigilClassify s = .next t ∧ t.vigil.queue = r ∧ t.reg VIG_LOGSEQ = s.reg VIG_LOGSEQ + 1 ∧
        t.vigil.logPos = (s.vigil.logPos + 1) % 2048 ∧
        (∀ c, t.byte c = if a ≤ c ∧ c < a + w.length then w.getD (c - a) 0 else s.byte c) ∧ t.engines = s.engines) ∧
    (s.regShut i VIG_EVQ0 = false → i = .keep →
      (s.vigil.queue = [] → exec (.evqRead i) s = .next (s.answerWord 0)) ∧
      (s.vigil.queue = e :: r → r.length < 64 →
        ∃ t, exec (.evqRead i) s = .next t ∧ t.resp = .data (toBytes (s.eventWord e).toNat 4) ∧ t.vigil.queue = r ∧
          t.vigil.taken = s.vigil.taken ++ [e] ∧ t.fld VIG_STAT VIG_STAT_QLEV = r.length ∧ t.mem = s.mem ∧
          t.engines = s.engines)) ∧
    (s.regShut i VIG_EVQ0 = false → i ≠ .keep → exec (.evqRead i) s = .next ((s.answer .busError).reported i VIG_EVQ0)) ∧
    (s.regShut i VIG_READMIT = false → hostOrKeep i = true →
      (s.mode ≠ 2 → exec (.readmit i res) s = .next ((s.setReg VIG_READMIT_STAT 3).answer .ok)) ∧
      (s.mode = 2 → (∀ q, q ∈ s.vigil.record → q.1 ≠ res.toNat) →
        exec (.readmit i res) s = .next ((s.setReg VIG_READMIT_STAT 2).answer .ok)) ∧
      (s.mode = 2 → (∃ q, q ∈ s.vigil.record ∧ q.1 = res.toNat) →
        ∃ t, exec (.readmit i res) s = .next t ∧ t.resp = .ok ∧ t.reg VIG_READMIT_STAT = 1 ∧
          t.vigil.record = s.vigil.record.filter (fun q => q.1 != res.toNat) ∧ t.mode = 2 ∧ t.engines = s.engines))

/-- Mode requests and boot (R579-R581, R584, R585, R588, R589): what they need and what they set. -/
def Obligations.ModesAndBoot : Prop :=
  ∀ (s : State) (i : Init) (us : Word) (slot : Fin 4) (w : BootWorld),
    let req := SYS_MODE_REQ
    let bs := SYS_BOOT_STAT
    let x := s.fuses.slots.getD slot ⟨none, false, false⟩
    let key := s.regShut i SYS_KEY_CTL = false ∧ hostOrKeep i = true ∧ s.mode = 2 ∧ s.boot.keyOp = none
    let busy (o : KeyOp) : Host.Outcome State Fault Refusal := .next ((s.updBoot fun b => { b with keyOp := some o }).answer .ok)
    let rfail (c : Instr) (a : Nat) : Prop := exec c s = .next ((s.answer .busError).reported i a)
    (s.regShut i req = false → hostOrKeep i = true →
      (s.mode = 3 ∨ s.mode = 4 →
        ∃ t, exec (.commissionRequest i 0xC3) s = .next t ∧ t.resp = .ok ∧ t.mode = 2 ∧ t.reg SYS_MODE_RES = 1 ∧
          t.fld SYS_MODE SYS_MODE_TCNT = (s.fld SYS_MODE SYS_MODE_TCNT + 1) % 256 ∧ t.fld SYS_MODE SYS_MODE_LASTEV = 3 ∧
          t.mem = s.mem ∧ t.engines = s.engines) ∧
      (s.mode = 2 → exec (.commissionRequest i 0xC3) s = .next ((s.setReg SYS_MODE_RES 1).answer .ok)) ∧
      (s.mode = 1 ∨ s.mode = 5 → exec (.commissionRequest i 0xC3) s = .next ((s.setReg SYS_MODE_RES 6).answer .ok)) ∧
      (s.mode = 2 → s.runBars = 0 →
        ∃ t, exec (.runRequest i 0xC3) s = .next t ∧ t.resp = .ok ∧ (t.mode = 3 ∨ t.mode = 4) ∧ t.reg SYS_MODE_RES = 1 ∧
          t.mem = s.mem ∧ t.engines = s.engines) ∧
      (s.mode = 2 → s.runBars ≠ 0 →
        exec (.runRequest i 0xC3) s = .next ((s.setReg SYS_MODE_RES (word (2 + s.runBars))).answer .ok))) ∧
    (s.regShut i req = false → (∀ k : BitVec 8, k ≠ 0xC3 → rfail (.runRequest i k) req ∧ rfail (.commissionRequest i k) req)) ∧
    (s.boot.held = false → s.mode = 1 → s.reg bs = 0 → w.slot0 = none → w.slot1 = none →
      ∃ t, exec (.bootStart w) s = .next t ∧ t.flag bs SYS_BOOT_STAT_FAIL = true ∧ t.fld bs SYS_BOOT_STAT_ERR0 = 1 ∧
        t.fld bs SYS_BOOT_STAT_ERR1 = 1) ∧
    (∀ (l : List Byte) (s1 s2 : State), s.boot.held = false → s.mode = 1 → s.reg bs = 0 → w.idGood = true → w.slot0 = some l →
      s1 = (((s.setReg PWR_CLK_STAT (s.reg PWR_CLK_STAT ||| 0x3F)).bootCount.findLog.applyRecord.setMailboxes).bootTests w).bootIsland
        w →
      ((s1.setFld bs SYS_BOOT_STAT_SRC 0).tryImage l 0x1000000 w.trained) = (0, s2) →
      exec (.bootStart w) s = .next (s2.setFld bs SYS_BOOT_STAT_ERR0 0)) ∧
    (s.mode = 1 → s.fld bs SYS_BOOT_STAT_STAGE = 5 → s.cup.link = 2 → s.holdStands = false →
      s.flag CUP_STAT CUP_STAT_RUNPERM = false →
      ∃ t, exec (.bootComplete us) s = .next t ∧ t.mode = 2 ∧ t.flag PLM_STAT PLM_STAT_READY = true ∧
        t.fld bs SYS_BOOT_STAT_STAGE = 6 ∧ t.reg SYS_BOOT_TIME = us) ∧
    (s.mode = 1 → s.cup.link ≠ 2 →
      exec .handshakeTimeout s = .next ((s.updBoot fun b => { b with hsOver := true }).holdCause 5)) ∧
    (∀ (n : BitVec 23) (tr : Bool) (s1 s2 : State), s.regShut i SYS_RECOV = false → (i = .pcie ∨ i = .keep) →
      s.flag bs SYS_BOOT_STAT_FAIL = true → s.fld bs SYS_BOOT_STAT_ERR0 ≠ 6 → s.fld bs SYS_BOOT_STAT_ERR1 ≠ 6 →
      s1 = (s.setReg SYS_RECOV (word (SYS_RECOV_LEN.get (word (n.toNat + 2 ^ 31))))).setFld bs SYS_BOOT_STAT_SRC 2 →
      s1.tryImage (s1.bytes 0x40000000 (min (SYS_RECOV_LEN.get (word (n.toNat + 2 ^ 31))) 0x3E0000))
        (min (SYS_RECOV_LEN.get (word (n.toNat + 2 ^ 31))) 0x3E0000) tr = (0, s2) →
      exec (.recoveryGo i n tr) s =
        .next (((s2.setFld bs SYS_BOOT_STAT_ERRR 0).setFlag bs SYS_BOOT_STAT_FAIL false).answer .ok)) ∧
    (key → 2 ≤ slot.val → x.programmed = false →
      exec (.keyProg i slot 0xC3) s = busy (.prog slot ((List.range 8).map fun j => s.reg (SYS_KEY_HASH j)))) ∧
    (key → x.revoked = false →
      (∃ j : Fin 4, j ≠ slot ∧ (s.fuses.slots.get j).programmed = true ∧ (s.fuses.slots.get j).revoked = false) →
      exec (.keyRevoke i slot 0xC3) s = busy (.revoke slot)) ∧
    (key → s.fuses.rollback < s.boot.svn → exec (.keyAdvance i 0xC3) s = busy .advance) ∧
    (s.regShut i SYS_KEY_CTL = false → s.mode ≠ 2 →
      rfail (.keyProg i slot 0xC3) SYS_KEY_CTL ∧ rfail (.keyRevoke i slot 0xC3) SYS_KEY_CTL ∧
        rfail (.keyAdvance i 0xC3) SYS_KEY_CTL) ∧
    (s.boot.keyOp = some (.revoke slot) →
      ∃ t, exec .keyOpComplete s = .next t ∧ t.boot.keyOp = none ∧ (t.fuses.slots.get slot).revoked = true ∧
        (∀ j : Fin 4, j ≠ slot → t.fuses.slots.get j = s.fuses.slots.get j) ∧ { t with fuses := s.fuses, boot := s.boot } = s) ∧
    (s.boot.keyOp = some .advance →
      exec .keyOpComplete s = .next ({ s with fuses := { s.fuses with rollback := max s.fuses.rollback s.boot.svn } }.updBoot fun b =>
        { b with keyOp := none }))

/-- Resets, clocks, power domains, JTAG (R149, R165, R482, R590-R596, R606, R614): what each clears, keeps and refuses. -/
def Obligations.ResetsAndPower : Prop :=
  ∀ (s : State) (i : Init) (d : Fin 6) (v : Word),
    let asOf (t : State) (cause : Nat) : Prop := t.mode = 1 ∧ t.reg SYS_RST_CAUSE = word cause ∧ t.pending = s.pending ∧
      t.die = s.die ∧ t.sealw = s.sealw ∧ (∀ a, inMram a = false → t.byte a = 0) ∧ t.engines = State.reset.engines ∧
      t.outst = [] ∧ t.cmdq = [] ∧ t.rspq = []
    let up (on : Bool) : Instr := if on then .domainOnRequest i d else .domainOffRequest i d
    (∃ t, exec .powerOnReset s = .next t ∧ asOf t 1 ∧
      (s.boot.keyOp = none → s.mramQ = [] → t.fuses = s.fuses ∧ ∀ a, inMram a = true → t.byte a = s.byte a)) ∧
    (∀ ns, s.boot.held = false → 1000 ≤ ns → ∃ t, exec (.systemReset (.pin ns)) s = .next t ∧ asOf t 2) ∧
    (∀ ns, ns < 200 → exec (.systemReset (.pin ns)) s = .next s) ∧
    (s.regShut i SYS_RST_CTL = false → hostOrKeep i = true → bitsOf v.toNat 8 8 = 0xC3 → v.getLsbD 0 = true →
      ∃ t, exec (.systemReset (.ctl i v)) s = .next t ∧ asOf t (if i = .keep then 4 else 3)) ∧
    (∀ rails : BitVec 8, rails ≠ 0 →
      ∃ t, exec (.supplyLoss rails) s = .next t ∧ t.boot.held = true ∧ t.mramStop = true ∧ t.sealw = s.sealw ∧ t.die = s.die) ∧
    (∃ t, exec .pcieReset s = .next t ∧ t.host.linkUp = false ∧ t.host.msixEn = false ∧ t.host.sent = s.host.sent ∧
      t.reg (XCH_EPOCH 0) = word (((s.reg (XCH_EPOCH 0)).toNat + 1) % 65536) ∧ t.mem = s.mem ∧ t.engines = s.engines) ∧
    (∃ t, exec (.keepReset .doubleFault) s = .next t ∧ (t.eng 32).st = .running ∧ (t.eng 32).run = true ∧
      t.reg (XCH_EPOCH 1) = word (((s.reg (XCH_EPOCH 1)).toNat + 1) % 65536) ∧ (∀ e, e ≠ 32 → t.eng e = s.eng e) ∧
      t.mem = s.mem ∧ t.plm = s.plm) ∧
    (s.ticks < s.boot.kwd + 1250000 → exec .keepWatchdogExpiry s = .next s) ∧
    (s.boot.kwd + 1250000 ≤ s.ticks →
      ∃ t, exec .keepWatchdogExpiry s = .next t ∧ (t.eng 32).st = .running ∧
        t.reg (XCH_EPOCH 1) = word (((s.reg (XCH_EPOCH 1)).toNat + 1) % 65536) ∧ t.mem = s.mem) ∧
    (s.regShut i SYS_KWD = false →
      (i = .keep → exec (.kwd i) s = .next ((s.updBoot fun b => { b with kwd := s.ticks }).answer .ok)) ∧
      (i ≠ .keep → exec (.kwd i) s = .next ((s.answer .busError).reported i SYS_KWD))) ∧
    (s.regShut i SYS_TW_RST = false →
      (∀ k : Fin 4, i = .keep → v = word (2 ^ k.val) → s.reg SYS_TW_RST = 0 → s.towerBusy k = false →
        ∃ t, exec (.towerReset i v) s = .next t ∧ t.resp = .ok ∧
          (∀ j, j < 8 → (s.eng (8 * k.val + j)).st ≠ .isolated → (t.eng (8 * k.val + j)).st = .reset) ∧ t.mem = s.mem) ∧
      (∀ k : Fin 4, i = .keep → v = word (2 ^ k.val) → s.reg SYS_TW_RST = 0 → s.towerBusy k = true →
        exec (.towerReset i v) s = .next ((s.answer .busError).reported i SYS_TW_RST)) ∧
      (i ≠ .keep → exec (.towerReset i v) s = .next ((s.answer .busError).reported i SYS_TW_RST))) ∧
    (∀ on, exec (.fieldDieReset on) s = .next { s with die := { Die.init with run := on } }) ∧
    (exec (.clockFailure .safe) s = .next ((s.setReg PWR_CLK_STAT (s.reg PWR_CLK_STAT &&& ~~~word 128)).holdCause 3) ∧
      exec (.clockFailure .field) s = .next (s.holdCause 10)) ∧
    (∀ on, s.regShut i PWR_PD_CTL = false → hostOrKeep i = true → s.boot.asks = [] → s.boot.serving = none →
      s.domain d = (if on then 1 else 0) → (on = false → s.offAllowed d = true) →
      ∃ t, exec (up on) s = .next t ∧ t.resp = .ok ∧ t.domain d = 2 ∧ t.boot.serving = some (d.val, on) ∧ t.boot.asks = [] ∧
        t.mem = s.mem ∧ t.engines = s.engines) ∧
    (s.regShut i PWR_PD_CTL = false → hostOrKeep i = true → s.boot.asks = [] → s.boot.serving = none → s.domain d = 0 →
      s.offAllowed d = false →
      ∃ t, exec (.domainOffRequest i d) s = .next t ∧ t.resp = .ok ∧ t.domain d = 0 ∧ t.fld PWR_PD_STAT ⟨16, 1⟩ = 1 ∧
        t.boot.serving = none ∧ t.mem = s.mem ∧ t.engines = s.engines) ∧
    (∀ on, s.boot.serving = some (d.val, on) → s.boot.asks = [] →
      ∃ t, exec (.domainSwitchComplete d) s = .next t ∧ t.domain d = (if on then 0 else 1) ∧ t.boot.serving = none) ∧
    (∀ (held : Bool) (cap upd : List Bool),
      exec .jtagBypass s = .next (s.jtagSet .bypass [false] .device) ∧
      exec .jtagIdcode s = .next (s.jtagSet .idcode (wordBits 0x232401E3) .device) ∧
      exec (.jtagSamplePreload cap upd) s = .next { s with jtag := ⟨.sample, cap, upd, .device⟩ } ∧
      exec (.jtagExtest true cap upd) s = .next { s with jtag := ⟨.extest, cap, upd, .boundary⟩ } ∧
      exec (.jtagHighz true) s = .next (s.jtagSet .highz [false] .floating) ∧
      exec (.jtagClamp true) s = .next (s.jtagSet .clamp [false] .boundary) ∧
      (held = false → exec (.jtagExtest held cap upd) s = exec .jtagBypass s ∧ exec (.jtagHighz held) s = exec .jtagBypass s ∧
        exec (.jtagClamp held) s = exec .jtagBypass s))

/-! ### Backplane bridge -/

/-- The bridge's outbound side (R491-R499, R504-R509): accesses are held in order, run while the bus is owned, end with their data, or are
logged with their cause; prefetch blocks, locked sequences, aborts and yields. -/
def Obligations.BridgeOutbound : Prop :=
  ∀ (s : State) (i : Init) (w : Fin 16) (a : Nat) (d : List Byte) (h : BbAcc),
    let b := s.bridge
    let op : Access := .write a d
    let acc : BbAcc := ⟨.access, i, w, op, s.flag (BPB_OB_ATTR w) BPB_OB_ATTR_POST⟩
    let may := s.boot.held = false ∧ s.mode ≠ 1 ∧ rights i .outbound = true
    let quiet := b.queue = [] ∧ b.due = [] ∧ b.lock = none
    let written := h.kind = .access ∧ h.posted = true ∧ h.op.isWrite = true
    let room := s.logLevel BPB_ELOG_WR BPB_ELOG_RD ≠ 16
    let wr := (s.reg BPB_ELOG_WR).toNat
    let fails (c : Instr) (cause : Nat) : Prop := ∃ t, exec c s = .next t ∧ t.bridge.head = none ∧ t.bridge.run = none ∧
      t.reg BPB_ELOG_WR = word ((wr + 1) % 32) ∧ bitsOf (t.reg (BPB_ELOG (wr % 16) 2)).toNat 16 4 = cause ∧
      bitsOf (t.reg (BPB_ELOG (wr % 16) 2)).toNat 4 6 = h.init.rpn % 64 ∧ t.mem = s.mem ∧ t.engines = s.engines
    (may → s.obDecode a = none → exec (.outboundAccess i op) s = .next ((s.answer .busError).reported i a)) ∧
    (may → s.obDecode a = some w.val → 64 ≤ s.bbHeld → exec (.outboundAccess i op) s = .next (s.answer .waiting)) ∧
    (may → s.obDecode a = some w.val → s.bbHeld < 64 → b.head = some h → b.pref = [] →
      ∃ t, exec (.outboundAccess i op) s = .next t ∧ t.bridge.queue = b.queue ++ [acc] ∧ t.bridge.head = some h ∧
        t.resp = (if acc.posted then .ok else .idle) ∧ t.mem = s.mem ∧ t.engines = s.engines) ∧
    (may → s.obDecode a = some w.val → quiet → b.head = none → b.pref = [] →
      ∃ t, exec (.outboundAccess i op) s = .next t ∧ t.bridge.queue = [] ∧ t.bridge.head = some acc ∧
        t.resp = (if acc.posted then .ok else .idle) ∧ t.mem = s.mem ∧ t.engines = s.engines) ∧
    (b.head = some h → s.bbEn = true → b.sysIn = false → b.run = none → s.bbProf = 0 →
      ∃ t, exec .busAcquired s = .next t ∧ t.flag BPB_STAT BPB_STAT_OWN = true ∧ t.bridge.head = some h ∧
        t.bridge.run = some ⟨s.bbCycles h, [], false, true⟩ ∧ t.mem = s.mem ∧ t.engines = s.engines) ∧
    (∀ (c : FarCyc) (e : List FarCyc) (got : List Byte) (ack : Bool), b.head = some h →
      b.run = some ⟨c :: e, got, ack, true⟩ →
      (e ≠ [] → h.op.isWrite = true → s.bbProf = 0 → s.bbEn = true →
        exec (.farAcknowledge d) s = .next (s.updBb fun x => { x with run := some ⟨e, got, true, s.bbMayRun⟩ })) ∧
      (e = [] → written → quiet →
        ∃ t, exec (.farAcknowledge d) s = .next t ∧ t.bridge.head = none ∧ t.bridge.run = none ∧
          t.reg BPB_OBCNT = s.reg BPB_OBCNT + 1 ∧ t.mem = s.mem ∧ t.engines = s.engines)) ∧
    (b.head = some h → written → quiet → room →
      (s.bbLive = true → s.bbProf = 0 → fails .farBerr 1) ∧ (s.bbLive = true → fails .ackTimeout 2) ∧
        (s.bbLive = false → fails .ownTimeout 3)) ∧
    (∀ l : BbLock, b.lock = some l → b.head = none → b.queue = [] → b.due = [] → room →
      ∃ t, exec .lockTimeout s = .next t ∧ t.bridge.lock = none ∧ t.bridge.head = none ∧
        bitsOf (t.reg (BPB_ELOG (wr % 16) 2)).toNat 16 4 = 5 ∧ t.reg BPB_ELOG_WR = word ((wr + 1) % 32) ∧ t.mem = s.mem) ∧
    (∀ x : PrefBlk, s.prefBlk w = some x → x.returned ≠ BitVec.allOnes 32 →
      exec (.prefetchExpiry w) s =
        .next (((s.setPref w none).countSat BPB_PFDISC 1).setReg BPB_PFADDR (word x.faddr))) ∧
    (s.prefBlk w = none → exec (.prefetchExpiry w) s = .next s) ∧
    (s.bbProf = 0 → s.flag BPB_STAT BPB_STAT_OWN = true → b.run = none → b.lock = none →
      ∃ t, exec (.busClearIn true) s = .next t ∧ t.flag BPB_STAT BPB_STAT_OWN = false ∧
        t.reg BPB_YIELD = s.reg BPB_YIELD + 1 ∧ t.bridge.queue = b.queue ∧ t.bridge.head = b.head ∧ t.mem = s.mem) ∧
    (s.bbProf ≠ 0 → s.bbEn = true → s.bbLive = false → b.lock = none → s.flag BPB_STAT BPB_STAT_YLD = false →
      ∃ t, exec .holdRequestIn s = .next t ∧ t.flag BPB_STAT BPB_STAT_YLD = true ∧ t.bridge.hold = true ∧
        t.reg BPB_YIELD = s.reg BPB_YIELD + 1 ∧ t.mem = s.mem) ∧
    (∃ t, exec .holdRequestEnd s = .next t ∧ t.flag BPB_STAT BPB_STAT_YLD = false ∧ t.bridge.hold = false ∧ t.mem = s.mem) ∧
    (s.regShut i BPB_ABORT = false → bpbWriter i = true →
      (b.head = none → b.queue = [] → exec (.bpbAbort i) s = .next ((s.setFld BPB_ABORT BPB_ABORT_RES 3).answer .ok)) ∧
      (∀ r : FarRun, b.head = some h → b.run = some r → r.acked = true →
        exec (.bpbAbort i) s = .next ((s.setFld BPB_ABORT BPB_ABORT_RES 2).answer .ok)) ∧
      (b.head = some h → b.run = none → written → quiet → room →
        ∃ t, exec (.bpbAbort i) s = .next t ∧ t.resp = .ok ∧ t.fld BPB_ABORT BPB_ABORT_RES = 1 ∧ t.bridge.head = none ∧
          bitsOf (t.reg (BPB_ELOG (wr % 16) 2)).toNat 16 4 = 4 ∧ t.mem = s.mem)) ∧
    (s.regShut i BPB_ABORT = false → bpbWriter i = false →
      exec (.bpbAbort i) s = .next ((s.answer .busError).reported i BPB_ABORT))

/-- The bridge's inbound side, system controller, polls, interrupts, enables, logs and partial reset (R500-R513). -/
def Obligations.BridgeInboundAndControl : Prop :=
  ∀ (s : State) (i : Init) (am : BitVec 6) (op : Access) (v : Word) (l : Fin 8) (k : Fin 64) (h : BbAcc) (w : Fin 8),
    let b := s.bridge
    let irq := BPB_IRQCTL
    let p0con := s.bbProf = 0 ∧ s.bbEn = true ∧ s.flag BPB_ARB BPB_ARB_SYSCON = true
    let in0 := s.bbEn = true ∧ s.flag BPB_CTL BPB_CTL_INEN = true ∧ s.bbProf = 0
    let at' := BPB_IB_ATTR w
    let u := swapUnit (s.fld at' BPB_IB_ATTR_SWAP)
    let tgt := swapAddr u (s.ibTgt w + (op.addr - s.ibFar w)) op.len
    (s.bbEn = false ∨ s.flag BPB_CTL BPB_CTL_INEN = false → exec (.inboundAccess am op) s = .next (s.answer .idle)) ∧
    (in0 → s.ibDecode op.addr am.toNat = none → exec (.inboundAccess am op) s = .next (s.answer .idle)) ∧
    (∀ d, op = .write op.addr d → in0 → s.ibDecode op.addr am.toNat = some w.val → s.flag at' BPB_IB_ATTR_WR = true →
      (b.inq.length < 16 → exec (.inboundAccess am op) s = .next ((s.updBb fun x =>
        { x with inq := x.inq ++ [(w.val, op.addr, .write tgt (swapBytes (min u op.len) d))] }).answer .ok)) ∧
      (16 ≤ b.inq.length → exec (.inboundAccess am op) s = .next (s.answer .waiting))) ∧
    (∀ n d (s1 : State), op = .read op.addr n → in0 → s.ibDecode op.addr am.toNat = some w.val →
      s.flag at' BPB_IB_ATTR_RD = true → (s.answer .idle).drainInbound.moverRead .bridge tgt n = (d, none, s1) →
      exec (.inboundAccess am op) s = .next ((s1.count BPB_INCNT 1).answer (.data (swapBytes (min u n) d)))) ∧
    (∀ f a d r (s1 : State), b.inq = (w.val, f, .write a d) :: r →
      (s.updBb fun x => { x with inq := r }).moverWrite .bridge a d = (none, s1) →
      exec .inboundWriteComplete s = .next ((s1.count BPB_INCNT 1).ringIf (s1.flag at' BPB_IB_ATTR_DBEN)
        (s1.fld at' BPB_IB_ATTR_DBAGENT) (s1.fld at' BPB_IB_ATTR_DBBIT))) ∧
    (∀ (req : BitVec 4) (n : Nat), p0con → arbitrate (s.fld BPB_ARB BPB_ARB_ARBMODE) b.lastLevel req = some n →
      exec (.busRequestIn req false) s = .next (s.updBb fun x => { x with grant := some n, lastLevel := n, bclrOut := false }) ∧
      exec (.busRequestIn req true) s =
        .next (s.updBb fun x => { x with
          bclrOut := x.bclrOut || (s.fld BPB_ARB BPB_ARB_ARBMODE == 0 && decide (x.lastLevel < n)) })) ∧
    (p0con → s.bbLive = false → exec .busTimerExpiry s = .next (s.updBb fun x => { x with berrs := x.berrs + 1 })) ∧
    (s.regShut i BPB_CTL = false → bpbWriter i = true → p0con →
      exec (.sysrst i) s = .next ((s.setFlag BPB_CTL BPB_CTL_SYSRST true).answer .ok)) ∧
    exec .sysresetPulseEnd s = .next (s.setFlag BPB_CTL BPB_CTL_SYSRST false) ∧
    (s.bbProf = 0 → s.bbLive = false →
      exec (.sysresetIn true) s = .next (((s.updBb fun x => { x with sysIn := true }).setFlag BPB_STAT BPB_STAT_OWN
        false).updBb fun x => { x with lock := none, asHeld := none }) ∧
      ∃ t, exec (.sysresetIn false) s = .next t ∧ t.bridge.sysIn = false ∧ t.mem = s.mem) ∧
    ((s.reg (BPB_POLL k 0)).getLsbD 0 = true → b.due = [] → b.head = some h → h.kind = .access →
      ∃ t, exec (.pollDue k) s = .next t ∧ t.bridge.due = [.poll k] ∧ t.bridge.head = some h ∧ t.mem = s.mem) ∧
    ((s.reg irq).getLsbD l = true → (s.reg irq).getLsbD (8 + l) = true →
      (s.bbProf = 0 → l.val ≠ 0 → b.due = [] → b.head = some h → h.kind = .access →
        ∃ t, exec (.irqLineAsserted l) s = .next t ∧ t.bridge.due = [.iack l] ∧ t.mem = s.mem) ∧
      (s.bbProf ≠ 0 → s.logLevel BPB_VLOG_WR BPB_VLOG_RD ≠ 16 →
        ∃ t, exec (.irqLineAsserted l) s = .next t ∧ (t.reg irq).getLsbD (8 + l) = false ∧
          t.reg BPB_VLOG_WR = word (((s.reg BPB_VLOG_WR).toNat + 1) % 32) ∧ t.mem = s.mem)) ∧
    (s.regShut i irq = false → bpbWriter i = true → BPB_IRQCTL_IACKW.get v ≠ 3 →
      exec (.irqRearm i v) s = .next ((s.setReg irq ((v &&& 0x300FF) ||| ((s.reg irq ||| v) &&& 0xFF00))).answer .ok)) ∧
    (s.bbProf = 0 → s.bbEn = true → l.val ≠ 0 → s.irqReq.getLsbD l = true →
      exec (.iackIn l) s = .next ({ s with irqReq := s.irqReq &&& ~~~BitVec.ofNat 8 (2 ^ l.val) }.answer
        (.data [BitVec.ofNat 8 (bitsOf (s.reg BPB_IRQVEC).toNat 3 5 * 8 + l)]))) ∧
    (s.irqReq.getLsbD l = false → exec (.iackIn l) s = .next (s.answer .idle)) ∧
    (s.regShut i at' = false → bpbWriter i = true → s.flag at' BPB_IB_ATTR_EN = false → v.getLsbD 0 = true →
      (s.ibCheck w v = 0 →
        ∃ t, exec (.windowEnable i (.ib w) v) s = .next t ∧ t.resp = .ok ∧ t.flag at' BPB_IB_ATTR_EN = true ∧
          t.flag BPB_STAT BPB_STAT_CFGERR = false ∧ t.mem = s.mem ∧ t.engines = s.engines) ∧
      (s.ibCheck w v ≠ 0 →
        ∃ t, exec (.windowEnable i (.ib w) v) s = .next t ∧ t.resp = .ok ∧ t.flag at' BPB_IB_ATTR_EN = false ∧
          t.flag BPB_STAT BPB_STAT_CFGERR = true ∧ t.fld BPB_STAT BPB_STAT_CFGC = s.ibCheck w v ∧ t.mem = s.mem ∧
          t.engines = s.engines)) ∧
    (let ahead := (v.toNat % 32 + 32 - (s.reg BPB_VLOG_RD).toNat) % 32
     s.regShut i BPB_VLOG_RD = false → bpbWriter i = true →
       (ahead ≤ s.logLevel BPB_VLOG_WR BPB_VLOG_RD →
         exec (.logRdWrite i true v) s = .next ((s.setReg BPB_VLOG_RD (word (v.toNat % 32))).answer .ok)) ∧
       (s.logLevel BPB_VLOG_WR BPB_VLOG_RD < ahead →
         exec (.logRdWrite i true v) s = .next ((s.answer .busError).reported i BPB_VLOG_RD))) ∧
    (s.regShut i BPB_CTL = false → bpbWriter i = true →
      ∃ t, exec (.bpbBlkrst i) s = .next t ∧ t.resp = .ok ∧ t.bridge = { Bridge.init with hold := b.hold, sysIn := b.sysIn } ∧ t.bbEn = false ∧
        t.reg (XCH_EPOCH 3) = word (((s.reg (XCH_EPOCH 3)).toNat + 1) % 65536) ∧ t.engines = s.engines)

/-! ### The placement manager and the Keep -/

namespace Sys2Proof.Claims

/-- The Keep's oldest held command word carries OP, TAG, OBJ and ARG (R191, R193). -/
def Asks (s : State) (op tag obj arg : Nat) : Prop :=
  ∃ w r, s.cmdq = w :: r ∧ cOp w = op ∧ cTag w = tag ∧ cObj w = obj ∧ cArg w = arg ∧ 1 ≤ op ∧ op ≤ 9

/-- Channel `c` is not bound to a lane (R202 word 3). -/
def NoLane (s : State) (c : Nat) : Prop := ((s.chan c).w 3).testBit 3 = false

/-- Nothing waits for a resource to be cleared: no test and no resource of Vigil is open. -/
def NoneOpen (s : State) : Prop := s.plm.tests = [] ∧ s.vigil.res = []

end Sys2Proof.Claims

/-- Host commands to the placement manager (R193, R197, R198, R203-R205, R209, R210, R212-R214, R223, R230, R231): each takes the oldest
held word, and what it answers, in which state, with what effect. `p` is the state without that word. -/
def Obligations.PlacementCommands : Prop :=
  ∀ (s : State) (tag c arg : Nat),
    let p := s.popCmd
    let x := p.chan c
    let runs (i : Instr) (t : State) : Prop := exec i s = .next t
    let tells (i : Instr) (res : Nat) : Prop := runs i (p.respond res tag c 0)
    (s.cmdq = [] → ∀ i ∈ [Instr.channelDeclare, .deferredCommit, .channelStart, .channelStop, .channelMigrate, .migrationAbort,
      .channelUpdate, .keepUpdate, .bufferDeclare, .reserveSet, .selftest, .query], runs i s) ∧
    (Asks s 1 tag c arg → c ≠ 0xFF →
      (63 < c → tells .channelDeclare 0x11) ∧ (c ≤ 63 → 2 ≤ arg → tells .channelDeclare 0x12) ∧
      (c ≤ 63 → arg < 2 → x.st ≠ 0 → tells .channelDeclare 0x13) ∧
      (c ≤ 63 → arg < 2 → x.st = 0 → ∀ k, p.descBad (fun k => (p.reg (PLM_DESC c k)).toNat) = some k →
        runs .channelDeclare (p.final 0x14 tag c k)) ∧
      (∀ y s1, c ≤ 63 → arg = 1 → x.st = 0 → p.readChan c = (0, 0, y, s1) →
        ∃ t, runs .channelDeclare t ∧ (t.chan c).st = 5 ∧ (t.chan c).desc = y.desc ∧ (t.chan c).seq = s1.plm.seq + 1 ∧
          (∀ k, k ≠ c → t.chan k = s1.chan k) ∧ t.plm.allocs = s1.plm.allocs) ∧
      (∀ y s1 s2, c ≤ 63 → arg = 0 → x.st = 0 → p.readChan c = (0, 0, y, s1) → s1.placeChan c y = (0, s2) →
        ∃ t n, runs .channelDeclare t ∧ (t.chan c).st = 1 ∧ s1.pickNew y.w y.cc = some n ∧ (t.chan c).eng = n ∧
          t.plm.allocs = s2.plm.allocs)) ∧
    (Asks s 1 tag 0xFF arg →
      (arg ≠ 0 → runs .deferredCommit (p.respond 0x12 tag 0xFF 0)) ∧
      (arg = 0 → p.deferred = [] → runs .deferredCommit (p.plmSync.respond 0 tag 0xFF 0)) ∧
      (∀ q y s1, arg = 0 → p.deferred = [(q, y)] → p.placeChan q y = (0, s1) →
        runs .deferredCommit ((s1.result' q fun s => s.resFld q 0 rLASTRES 0).plmSync.respond 0 tag 0xFF 0))) ∧
    (Asks s 2 tag c arg → c ≤ 63 →
      (x.st = 0 → tells .channelStart 0x11) ∧
      (x.st ≠ 0 → arg < 2 → p.chanBusy c = true → tells .channelStart 0x22) ∧
      (x.st = 1 ∨ x.st = 4 → arg < 2 → p.chanBusy c = false →
        ∃ t, runs .channelStart t ∧ (t.chan c).startTag = tag + 1 ∧ (t.chan c).st = x.st ∧
          t.ecbGet x.eng 0 = roleWord 1 0 false c ∧ (arg = 0 → t.ecbGet x.eng 0x10 = 0xFFFFFFFF) ∧
          (arg = 1 → t.ecbGet x.eng 0x10 = p.ecbGet x.eng 0x10) ∧
          (∀ a, (a < p.ecb x.eng 0 ∨ p.ecb x.eng 0x40 ≤ a) → t.byte a = s.byte a)) ∧
      (x.st = 2 ∨ x.st = 3 ∨ x.st = 5 → arg < 2 → p.chanBusy c = false → tells .channelStart 0x13)) ∧
    (Asks s 3 tag c arg → c ≤ 63 → arg < 2 → x.startTag = 0 →
      (x.st = 0 → tells .channelStop 0x11) ∧
      (x.st = 2 → p.mig c = none →
        ∃ t, runs .channelStop t ∧ (t.chan c).stopReq = true ∧ (t.chan c).release = (arg == 1) ∧ (t.chan c).st = 2 ∧
          t.ecbGet x.eng 0 = roleWord 5 0 false c ∧ t.ecbGet x.eng 4 = (p.ecbGet x.eng 0x10 + 2) % 2 ^ 32) ∧
      (arg = 1 → (x.st = 1 ∨ x.st = 4 ∨ x.st = 5 ∨ x.st = 6) →
        ∃ t, runs .channelStop t ∧ t.chan c = Chan.init ∧ ∀ a ∈ t.plm.allocs, a.own ≠ c) ∧
      (arg = 0 → (x.st = 1 ∨ x.st = 4 ∨ x.st = 5 ∨ x.st = 6) → tells .channelStop 0x13)) ∧
    (Asks s 4 tag c arg → c ≤ 63 → arg < 2 → p.chanBusy c = false →
      (x.st = 0 → tells .channelMigrate 0x11) ∧ (x.st = 1 ∨ x.st = 4 ∨ x.st = 5 ∨ x.st = 6 → tells .channelMigrate 0x13) ∧
      (∀ s1, x.st = 2 → x.stopReq = false → p.openMig c tag .migrate (arg == 1) true x false 99 = (0, s1) →
        runs .channelMigrate ((s1.respond 1 tag c 0).plmSync)) ∧
      (x.st = 2 → x.stopReq = false → p.pickTarget x.w x.cc (arg == 1) (x.eng / 8) 99 = none →
        runs .channelMigrate (p.final 0x21 tag c 0))) ∧
    (Asks s 4 tag c 128 → c ≤ 63 → x.st ≠ 0 →
      (p.mig c = none → tells .migrationAbort 0x13) ∧
      (∀ m, p.mig c = some m → m.committed = true → tells .migrationAbort 2) ∧
      (∀ m, p.mig c = some m → m.committed = false → runs .migrationAbort ((p.endMig c 3 m).respond 0 tag c 0))) ∧
    (Asks s 5 tag c arg → c ≤ 63 → arg < 4 → p.chanBusy c = false →
      (x.st = 0 → tells .channelUpdate 0x11) ∧ (x.st = 1 → tells .channelUpdate 0x13) ∧
      (let d (k : Nat) : Nat := if k = 1 ∨ k = 2 ∨ k = 10 ∨ k = 11 then (p.reg (PLM_DESC c k)).toNat else x.w k
      x.st = 2 → x.stopReq = false →
        (∀ k, [1, 2, 10, 11].find? (p.descWordBad d) = some k → runs .channelUpdate (p.final 0x14 tag c k)) ∧
        (∀ r l s1, [1, 2, 10, 11].find? (p.descWordBad d) = none → p.readImage (d 1) (d 2) = (r, l, s1) → r ≠ 0 →
          runs .channelUpdate (s1.final r tag c 0)) ∧
        (∀ l s1 s2, [1, 2, 10, 11].find? (p.descWordBad d) = none → p.readImage (d 1) (d 2) = (0, l, s1) →
          cLayout l = x.layout → d 10 = x.w 10 →
          (∀ y : Chan, y = { x with
            cc := (d 0).testBit 8 || cUsesDo l || cUsesLane l, desc := (List.range 32).map fun k => word (d k)
            code := d 1 + ((cModule l 1).map fun m => m.ofs).getD 0, words := cCodewords l, conv := cConv l
            layout := cLayout l } → y.w 10 = x.w 10 →
            s1.openMig c tag .update ((arg / 2) % 2 == 1) (arg % 2 == 1) y false 99 = (0, s2) →
            runs .channelUpdate ((s2.respond 1 tag c 0).plmSync))))) ∧
    (Asks s 5 tag 0xFF 0 →
      (p.plm.update.isSome = true → runs .keepUpdate (p.respond 0x22 tag 0xFF 0)) ∧
      (∀ l md s1, p.plm.update = none → p.moverRead .keep (p.reg PLM_KIMGA).toNat (p.reg PLM_KIMGL).toNat = (l, none, s1) →
        cModule l 3 = some md → s1.verify l (p.reg PLM_KIMGL).toNat = 0 → cProfile l = 2 →
        runs .keepUpdate ((s1.updPlm fun q => { q with
          bank := codeWords l md.ofs (min 16384 (md.len / 2)), update := some (tag, cVersion l) }).respond 1 tag 0xFF 0)) ∧
      (∀ l r s1, p.plm.update = none → p.moverRead .keep (p.reg PLM_KIMGA).toNat (p.reg PLM_KIMGL).toNat = (l, some r, s1) →
        runs .keepUpdate (s1.respond 0x15 tag 0xFF 0))) ∧
    (Asks s 6 tag c arg →
      (2 ≤ arg → tells .bufferDeclare 0x12) ∧
      (arg = 0 → (p.reg (PLM_BRES c 1)).getLsbD 2 = true → runs .bufferDeclare (p.bufFinal 0x13 tag c 0)) ∧
      (∀ k, arg = 0 → (p.reg (PLM_BRES c 1)).getLsbD 2 = false →
        declBad (p.reg (PLM_BDECL c 0)).toNat (p.reg (PLM_BDECL c 1)).toNat = some k →
        runs .bufferDeclare (p.bufFinal 0x14 tag c k)) ∧
      (∀ cl a s1, arg = 0 → (p.reg (PLM_BRES c 1)).getLsbD 2 = false →
        declBad (p.reg (PLM_BDECL c 0)).toNat (p.reg (PLM_BDECL c 1)).toNat = none →
        p.placeItem (128 + c) 0 true false (pow2up (bSize (p.reg (PLM_BDECL c 0)).toNat))
          ((classesOf (bLmax (p.reg (PLM_BDECL c 0)).toNat)).filter fun k => k != 0) = some (cl, a, s1) →
        runs .bufferDeclare (((s1.setReg (PLM_BRES c 0) (word a)).setReg (PLM_BRES c 1) (word (cl + 4))).plmSync.bufFinal 0 tag c 0)) ∧
      (arg = 1 → (p.reg (PLM_BRES c 1)).getLsbD 2 = true → p.fld (PLM_BRES c 1) ⟨8, 8⟩ = 0 →
        runs .bufferDeclare ((((p.freeItems (128 + c)).setReg (PLM_BRES c 0) 0).setReg (PLM_BRES c 1) 0).plmSync.bufFinal 0 tag c 0))) ∧
    (Asks s 7 tag c arg →
      (c ≠ 0 → tells .reserveSet 0x11) ∧ (c = 0 → arg ≠ 0 → tells .reserveSet 0x12) ∧
      (c = 0 → arg = 0 → ∃ t, runs .reserveSet t ∧ t.plm.reserve = p.reg PLM_RSV ∧ t.plm.allocs = p.plm.allocs ∧
        t.plm.chans = p.plm.chans)) ∧
    (Asks s 8 tag c arg →
      (3 ≤ arg → tells .selftest 0x12) ∧ (arg = 0 → 31 < c → tells .selftest 0x11) ∧
      (arg = 0 → c ≤ 31 → p.engineUsable c = false → tells .selftest 0x22) ∧
      (arg = 0 → c ≤ 31 → p.engineUsable c = true → p.plm.tests.any (fun q => q.2.1 == 0 && q.2.2 == c) = false → p.role c = 0 →
        runs .selftest (((p.respond 1 tag c 0).testEngine tag c).plmSync)) ∧
      (arg = 1 → 63 < c → tells .selftest 0x11) ∧ (arg = 1 → c ≤ 63 → p.bankUsable c = false → tells .selftest 0x22) ∧
      (arg = 2 → 30 < c → tells .selftest 0x11)) ∧
    (Asks s 9 tag c arg →
      (arg ≠ 0 → tells .query 0x12) ∧
      (arg = 0 → c = 0xFF → runs .query (p.respond 0 tag c (p.plm.chans.filter fun q => q.2.st == 6).length)) ∧
      (arg = 0 → 63 < c → c ≠ 0xFF → tells .query 0x11) ∧
      (arg = 0 → c ≤ 63 → x.st = 0 → runs .query (p.respond 0 tag c 0)) ∧
      (arg = 0 → c ≤ 63 → x.st ≠ 0 → x.st ≠ 5 →
        ∃ t, runs .query t ∧ (t.chan c).desc = x.desc.set 12 (p.reg (PLM_DESC c 12)) ∧
          t.reg (PLM_RES c 10) = word (p.ecbGet x.eng 0x10) ∧ (t.chan c).st = x.st))

/-- Migration, audit, emergency migration, evacuation, tests and the Keep's own update (R212, R214-R220, R223-R231). -/
def Obligations.PlacementEvents : Prop :=
  ∀ (s : State) (c : Fin 64) (i : Init) (v : Word),
    let x := s.chan c
    let runs (i : Instr) (t : State) : Prop := exec i s = .next t
    (x.startTag = 0 → runs (.channelRunning c) s) ∧
    (x.startTag ≠ 0 → ∃ t, runs (.channelRunning c) t ∧ (t.chan c).st = 2 ∧ (t.chan c).startTag = 0) ∧
    (x.stopReq = false → runs (.channelStopped c) s) ∧
    (x.stopReq = true → x.release = false → NoneOpen s →
      ∃ t, runs (.channelStopped c) t ∧ (t.chan c).st = 4 ∧ (t.chan c).stopReq = false ∧ (t.eng x.eng).run = (
        if (s.eng x.eng).st = .isolated ∨ (s.eng x.eng).st = .dfault ∨ (s.eng x.eng).st = .test then (s.eng x.eng).run else false)) ∧
    (s.mig c = none → ∀ e ∈ [Instr.migrationPrepareDone c, .stateCopyStart c, .stateCopyDone c 0, .shadowCompare c true,
      .shadowLagTimeout c, .convTimeout c, .handoverCommit c, .migrationRelease c], runs e s) ∧
    (∀ m, s.mig c = some m →
      let k := (s.ecbGet m.src 0x10 + 1) % 2 ^ 32
      let dn := s.ecbGet m.dst 0x10
      let r := min (s.ecbGet m.src 0x10) (s.ecbGet m.dst 0x10)
      let s' := (s.ecbPut m.src 8 r).ecbPut m.dst 8 r
      (∀ s1, m.phase = 1 → m.k = 0 → s.loadEngine m.dst m.tgt = (true, s1) →
        runs (.migrationPrepareDone c) ((((s1.protect m.dst m.tgt false).ecbAddrs m.dst m.tgt).calOff (cycleEntry m.dst)).updMig c
          fun m => { m with phase := 1, k := 1 })) ∧
      (∀ s1, m.phase = 1 → m.k = 0 → s.loadEngine m.dst m.tgt = (false, s1) →
        runs (.migrationPrepareDone c) (s1.endMig c 0x15 m)) ∧
      (m.phase = 1 → m.k ≠ 0 → x.w 5 ≠ 0 → 30500 + copyTime (x.w 10) ≤ x.w 5 →
        runs (.stateCopyStart c) (s.updMig c fun m => { m with k := k, phase := 7 })) ∧
      (m.phase = 1 → m.k ≠ 0 → (x.w 5 = 0 ∨ x.w 5 < 30500 + copyTime (x.w 10)) →
        runs (.stateCopyStart c) (((s.ecbRole m.src 4 m.dst true c k).phase c 6).updMig c fun m =>
          { m with k := k, hold := true, phase := 6 })) ∧
      (∀ s1 s2, m.phase = 7 → m.hold = false → m.conv = false → m.range = (0, 0) → NoLane s c →
        ((s.ecbPut m.dst 0x14 (s.ecbGet m.src 0x14)).ecbPut m.dst 0x18 (s.ecbGet m.src 0x18)).keepCopy
          (x.priv + (m.k + 1) % 2 * x.w 10) m.tgt.priv (x.w 10) = (true, s1) →
        s1.keepCopy (x.priv + (m.k + 1) % 2 * x.w 10) (m.tgt.priv + x.w 10) (x.w 10) = (true, s2) →
        runs (.stateCopyDone c 0) (((((s2.ecbPut m.dst 0x10 ((m.k + 2 ^ 32 - 1) % 2 ^ 32)).ecbRole m.dst 2 m.src true c
          (m.k % 2 ^ 32)).keepRun m.dst true).phase c 2).updMig c fun m => { m with phase := 2, lost := m.lost + 0 })) ∧
      (∀ b : Bool, (m.phase = 2 ∨ m.phase = 3) → m.conv = false → NoLane s c → m.kind = .migrate →
        (s'.ecbGet m.src 0x14 = s'.ecbGet m.dst 0x14 → s'.ecbGet m.src 0x18 = s'.ecbGet m.dst 0x18 →
          runs (.shadowCompare c b) ((s'.phase c (if b = true ∧ s'.shcyc ≤ m.shadow + 1 then 4 else 3)).updMig c fun q => { q with
            shadow := m.shadow + 1, phase := if b = true ∧ s'.shcyc ≤ m.shadow + 1 then 4 else 3 })) ∧
        (s'.ecbGet m.src 0x14 ≠ s'.ecbGet m.dst 0x14 → m.retried = true →
          runs (.shadowCompare c b) ((s'.reportCmp m.src m.dst).endMig c 0x24 m))) ∧
      (m.phase = 2 ∨ m.phase = 3 → runs (.shadowLagTimeout c) ((s.reportCmp m.src m.dst).endMig c 0x23 m)) ∧
      (m.conv = true → m.phase = 2 → (dn = 0xFFFFFFFF ∨ dn = 0xFFFFFFFE) → runs (.convTimeout c) (s.endMig c 0x25 m)) ∧
      (m.conv = false → runs (.convTimeout c) s) ∧
      (m.phase = 4 → m.committed = false → NoLane s c → m.src ≠ m.dst → m.src < 32 → m.dst < 32 →
        ∃ t m', runs (.handoverCommit c) t ∧ t.mig c = some m' ∧ m'.committed = true ∧
          t.ecbGet m.src 0 = roleWord 5 m.dst true c ∧ t.ecbGet m.dst 0 = roleWord 1 m.src true c ∧
          t.ecbGet m.dst 4 = k ∧ t.chan c = x) ∧
      (m.committed = true → m.kind = .migrate → (s.eng m.src).st ≠ .isolated → m.src ≠ m.dst → m.src < 32 → m.dst < 32 → NoneOpen s →
        ∃ t, runs (.migrationRelease c) t ∧ t.mig c = none ∧ (t.chan c).eng = m.dst ∧ (t.chan c).st = 2 ∧
          (t.chan c).priv = m.tgt.priv ∧ (t.chan c).bufs = m.bufsAfter x ∧ t.role m.src = 0 ∧ t.role m.dst = 1 ∧
          t.fld (PLM_RES c 0) rENG = m.dst ∧ t.fld (PLM_RES c 0) rLASTRES = 0 ∧
          t.reg (PLM_RES c 14) = word (satAdd 32 (s.reg (PLM_RES c 14)).toNat m.lost))) ∧
    (∀ cy : Word,
      (x.st ≠ 2 → x.st ≠ 3 → runs (.auditStart c cy) s) ∧
      (x.st = 2 ∨ x.st = 3 → (x.w 0).testBit 9 = true → s.flag PLM_CFG PLM_CFG_AUDEN = true → s.plm.audits = [] →
        (x.st = 3 ∨ s.auditEngine (x.eng / 8) x.cc = none → runs (.auditStart c cy) (s.count PLM_CNT_SKIP 1)) ∧
        (∀ n s1, x.st = 2 → s.auditEngine (x.eng / 8) x.cc = some n → s.startAudit c n 3 cy.toNat x.priv = some s1 → NoLane s c →
          runs (.auditStart c cy) (((s1.ecbPut x.eng 0x0C cy.toNat).updPlm fun p => { p with
            audits := p.audits ++ [⟨c, cy.toNat, n, none⟩] }).plmSync)))) ∧
    (s.plm.audits = [] → runs (.auditCompare c) s ∧ runs (.auditVote c) s) ∧
    (∀ q : Audit, s.plm.audits = [q] → q.ch = c → NoLane s c →
      (q.vote = none → s.sameResult q.eng x.eng = true →
        ∃ t, runs (.auditCompare c) t ∧ t.plm.audits = [] ∧ t.reg PLM_CNT_AUD = s.reg PLM_CNT_AUD + 1 ∧
          t.reg PLM_CNT_AUDF = s.reg PLM_CNT_AUDF ∧ t.reg (PLM_RES c 11) = s.reg (PLM_RES c 11) + 1) ∧
      (∀ n s1, q.vote = none → s.sameResult q.eng x.eng = false →
        let u := ((s.count PLM_CNT_AUD 1).count PLM_CNT_AUDF 1).result' c fun s => s.count (PLM_RES c 12) 1
        u.auditEngine (x.eng / 8) x.cc = some n → u.startAudit c n 4 q.cyc (u.ecbGet q.eng 0x28) = some s1 →
        runs (.auditCompare c) (s1.updPlm fun p => { p with
          audits := p.audits.map fun a => if a.ch = c.val then { a with vote := some n } else a })) ∧
      (∀ n, q.vote = some n →
        (s.sameResult x.eng n = true →
          runs (.auditVote c) (((s.endAudit c q).report 6 (resId 1 q.eng) 0 q.eng).respond 0x32 0 c 1)) ∧
        (s.sameResult x.eng n = false → s.sameResult q.eng n = true →
          ∃ t, runs (.auditVote c) t ∧ (t.chan c).voteLost = true ∧ t.fld (PLM_RES c 0) rSUSPECT = 1 ∧ t.plm.audits = []) ∧
        (s.sameResult x.eng n = false → s.sameResult q.eng n = false →
          runs (.auditVote c) ((((s.endAudit c q).reportCmp x.eng q.eng).report 7 (resId 1 n) 0 n).respond 0x32 0 c 3)))) ∧
    (∀ lost : Nat,
      (x.st ≠ 2 → x.st ≠ 3 → runs (.emergencyMigration c lost) s) ∧
      (x.st = 2 → s.engineFailed x.eng x = false → runs (.emergencyMigration c lost) s) ∧
      (let s0 := (s.calOff (cycleEntry x.eng)).setRole x.eng (if (s.eng x.eng).st = .isolated then 7 else 0) 0
      x.st = 2 → s.engineFailed x.eng x = true → s.mig c = none →
        (s0.pickTarget x.w x.cc true (x.eng / 8) x.eng = none →
          ∃ t, runs (.emergencyMigration c lost) t ∧ (t.chan c).st = 6 ∧ (t.chan c).eng = x.eng) ∧
        (∀ n s1, s0.pickTarget x.w x.cc true (x.eng / 8) x.eng = some n → n / 8 = x.eng / 8 → s0.loadEngine n x = (true, s1) →
          ∃ t, runs (.emergencyMigration c lost) t ∧ (t.chan c).eng = n ∧ (t.chan c).st = 2 ∧ (t.chan c).priv = x.priv ∧
            t.reg (PLM_RES c 14) = word (satAdd 32 (s.reg (PLM_RES c 14)).toNat lost)))) ∧
    (∀ k : Fin 96,
      ((s.resource (bankRes k)).state ≠ 2 → (s.resource (bankRes k)).state ≠ 4 → bankTestOf s.plm.tests k = none →
        runs (.bankEvacuation k) s) ∧
      ((s.resource (bankRes k)).state = 2 ∨ (s.resource (bankRes k)).state = 4 → inBank s.plm.allocs k = [] →
        runs (.bankEvacuation k) s.plmSync)) ∧
    (∀ (e : Fin 32) (tag : Nat) (pass : Bool), (s.eng e).st = .test → s.plm.tests = [(tag, 0, e.val)] → s.vigil.res = [] →
      ∃ t, runs (.engineTestComplete e pass) t ∧ t.plm.tests = [] ∧ t.role e = 0) ∧
    (∀ tag w, s.plm.update = some (tag, w) →
      (s.plmIdle = true → s.flag PLM_STAT PLM_STAT_SWAP = false →
        (∃ t, runs (.keepBankSwap false) t ∧ t.flag PLM_STAT PLM_STAT_SWAP = true ∧ t.flag PLM_STAT PLM_STAT_READY = false ∧
          t.fld PLM_STAT PLM_STAT_BANK = 1 - s.fld PLM_STAT PLM_STAT_BANK ∧ (t.eng 32).st = .running ∧
          t.plm.bank = (List.range 16384).map (s.progWord 32)) ∧
        (∃ t, runs (.keepBankSwap true) t ∧ t.flag PLM_STAT PLM_STAT_SWAP = false ∧ t.flag PLM_STAT PLM_STAT_READY = true ∧
          t.flag PLM_STAT PLM_STAT_FALLBACK = false ∧ t.reg PLM_KVER = w ∧ t.plm.update = none ∧
          t.fld PLM_STAT PLM_STAT_BANK = 1 - s.fld PLM_STAT PLM_STAT_BANK)) ∧
      (s.flag PLM_STAT PLM_STAT_SWAP = false → runs .keepFallback s) ∧
      (s.flag PLM_STAT PLM_STAT_SWAP = true →
        ∃ t, runs .keepFallback t ∧ t.flag PLM_STAT PLM_STAT_SWAP = false ∧ t.flag PLM_STAT PLM_STAT_READY = true ∧
          t.flag PLM_STAT PLM_STAT_FALLBACK = true ∧ t.plm.update = none ∧ (t.eng 32).st = .running ∧
          t.reg (XCH_EPOCH 1) = word (((s.reg (XCH_EPOCH 1)).toNat + 1) % 65536) ∧
          t.plm.bank = (List.range 16384).map (s.progWord 32))) ∧
    (∀ size : Bool,
      let a := if size then PLM_LXSIZE else PLM_LXBASE
      let b := if size then (s.reg PLM_LXBASE).toNat else v.toNat
      let n := if size then v.toNat else (s.reg PLM_LXSIZE).toNat
      s.regShut i a = false →
      (hostOrKeep i = true → v ≠ s.reg a → s.plm.chans = [] → s.plm.allocs = [] → poolOk b n = true →
        runs (.plmLxPoolWrite i size v) ((s.setReg a v).answer .ok)) ∧
      (hostOrKeep i = true → v = s.reg a → runs (.plmLxPoolWrite i size v) (s.answer .ok)) ∧
      (hostOrKeep i = true → v ≠ s.reg a → poolOk b n = false →
        runs (.plmLxPoolWrite i size v) ((s.answer .busError).reported i a)) ∧
      (hostOrKeep i = false → runs (.plmLxPoolWrite i size v) ((s.answer .busError).reported i a)))

/-! ### The Cupola and its field die -/

namespace Sys2Proof.Claims

/-- The first HOLD cause can be latched and acts at once: none stands, no takeover is recent, the mode can be left for HOLD, and the HOLD
policy stops no block (R518, R556, R579, R582). -/
def Holdable (s : State) : Prop :=
  s.cup.hold = 0 ∧ s.cup.newCore = 0 ∧ (s.mode = 2 ∨ s.mode = 3 ∨ s.mode = 4) ∧ s.reg SYS_HOLDPOL = 0

/-- HOLD cause `c` is latched, shown, and the mode is HOLD; memory is as before (R518, R579). -/
def Held (s t : State) (c : Nat) : Prop :=
  t.cup.hold = c ∧ t.mode = 5 ∧ t.flag CUP_STAT CUP_STAT_HOLDL = true ∧ t.fld CUP_STAT CUP_STAT_HCAUSE = c ∧
    t.flag CUP_STAT CUP_STAT_OUTOFF = true ∧ t.mem = s.mem

/-- The island holds the words of a whole request, with TAG, ARG and data, and no further word waits in MBX124 (R550). -/
def Request (s : State) (op tag arg : Nat) (data : List Word) : Prop :=
  s.flag (XCH_MBX_STAT 124) XCH_MBX_STAT_FULL = false ∧
    ∃ w : Word, s.cup.req = w :: data ∧ w.toNat % 256 = op ∧ bitsOf w.toNat 8 8 = tag ∧ bitsOf w.toNat 16 16 = arg ∧
      data.length + 1 = reqWords op

/-- No request with an answer is under execution. -/
def NoJob (s : State) : Prop := s.cup.job = none

/-- The island with its held request taken. -/
def taken (s : State) : State := s.updCup fun x => { x with req := [] }

end Sys2Proof.Claims

/-- The island's requests (R547, R548, R550, R555, R556): what each needs, does and answers. -/
def Obligations.CupolaRequests : Prop :=
  ∀ (s : State) (tag arg : Nat) (data : List Word),
    let p := taken s
    let a := (data.headD 0).toNat
    let n := (data.getD 1 0).toNat
    let runs (i : Instr) (t : State) : Prop := exec i s = .next t
    let tells (i : Instr) (r : Nat) : Prop := runs i (p.cupRespond r tag 0 [])
    (s.flag (XCH_MBX_STAT 124) XCH_MBX_STAT_FULL = false → s.cup.req = [] →
      ∀ i ∈ [Instr.psetLoad, .psetConfirm, .runPermit, .sealAck, .reactReset, .holdAck, .fwLoad, .fwTakeover, .cupolaQuery],
        runs i s) ∧
    (∀ j, s.cup.job = some j → j.op ≠ 0 →
      (Request s 1 tag arg data → tells .psetLoad 10) ∧ (Request s 3 tag arg data → tells .runPermit 10) ∧
        (Request s 9 tag arg data → tells .cupolaQuery 10)) ∧
    (NoJob s → Request s 1 tag arg data →
      (s.mode ≠ 2 → tells .psetLoad 2) ∧ (s.mode = 2 → s.sw9 = false → tells .psetLoad 3) ∧
      (s.mode = 2 → s.sw9 = true → (15 < arg ∨ a < 0x4C000000 ∨ 0x4C040000 < a + 2048) → tells .psetLoad 4) ∧
      (s.mode = 2 → s.sw9 = true → arg ≤ 15 → 0x4C000000 ≤ a → a + 2048 ≤ 0x4C040000 →
        runs .psetLoad (((p.updCup fun x => { x with job := some ⟨1, tag, arg, data, 0⟩ }).sendOrder tag 2048 a 0x54178000).gwFlush))) ∧
    (NoJob s → Request s 2 tag arg data →
      (s.mode ≠ 2 → tells .psetConfirm 2) ∧
      (∀ l b s1 s2, s.mode = 2 → s.sw9 = true → arg ≤ 15 → p.readMram (copyA arg) 2048 = (some l, s1) →
        s1.readMram (copyB arg) 2048 = (b, s2) → psValid l arg = true →
        (word (psW l 0x7FC) ≠ data.headD 0 → runs .psetConfirm (s2.cupRespond 6 tag 0 [])) ∧
        (word (psW l 0x7FC) = data.headD 0 →
          runs .psetConfirm ((s2.updSeal fun x => { x with
            conf := Tbl.set (fun _ => none) x.conf arg (some (data.headD 0)) }).cupRespond 0 tag 0 [])))) ∧
    (NoJob s → Request s 3 tag arg data →
      (arg = 0 → (s.mode = 3 ∨ s.mode = 4) → s.holdStands = false →
        ∃ t, runs .runPermit t ∧ t.sealw.perm = none ∧ t.mode = 2 ∧ t.mem = s.mem) ∧
      (1 < arg → tells .runPermit 4) ∧ (arg = 1 → s.mode ≠ 2 → tells .runPermit 2) ∧
      (arg = 1 → s.mode = 2 → s.sw9 = false → tells .runPermit 3) ∧
      (arg = 1 → s.mode = 2 → s.sw9 = true → s.setConf = false → tells .runPermit 5) ∧
      (arg = 1 → s.mode = 2 → s.sw9 = true → s.setConf = true → (s.sealw.brk = true ∨ s.sealw.recBrk = true) → tells .runPermit 9) ∧
      (arg = 1 → s.mode = 2 → s.sw9 = true → s.setConf = true → s.sealw.brk = false → s.sealw.recBrk = false →
        ∃ t, runs .runPermit t ∧
          t.sealw = { s.sealw with perm := some (s.cup.setNo, word (psW s.cup.set 0x7FC), s.cup.ver.getD s.cup.active 0) } ∧
          t.runPerm = true ∧ t.mode = 2 ∧ t.mem = s.mem)) ∧
    (NoJob s → Request s 4 tag arg data →
      (s.sw9 = false → tells .sealAck 3) ∧
      (s.sw9 = true → ∃ t, runs .sealAck t ∧ t.sealw = { s.sealw with brk := false, vbat := false, recBrk := false } ∧
        t.fld PWR_SUPPLY ⟨9, 1⟩ = 0 ∧ t.mem = s.mem)) ∧
    (NoJob s → Request s 5 tag arg data →
      ∃ t, runs .reactReset t ∧ t.cup.react = s.cup.react &&& BitVec.ofNat 8 (s.reactLive ||| (255 - arg % 256)) ∧
        (arg.testBit 10 = true → ∀ m : Fin 2, (t.die.outs.get m).fault = false) ∧
        (arg.testBit 10 = false → t.die.outs = s.die.outs) ∧ t.mem = s.mem ∧ t.sealw = s.sealw) ∧
    (NoJob s → Request s 6 tag arg data →
      (s.sw9 = false → tells .holdAck 3) ∧
      (s.sw9 = true → s.cup.hold ≠ 0 → s.cup.live.getLsbD s.cup.hold = true → tells .holdAck 9) ∧
      (s.sw9 = true → s.cup.hold ≠ 0 → s.cup.live.getLsbD s.cup.hold = false → s.mode = 5 →
        s.flag VIG_STAT VIG_STAT_HOLDREQ = false →
        ∃ t, runs .holdAck t ∧ t.cup.hold = 0 ∧ t.mode = 2 ∧ t.flag CUP_STAT CUP_STAT_HOLDL = false ∧
          t.fld CUP_STAT CUP_STAT_HCAUSE = 0 ∧ t.mem = s.mem)) ∧
    (NoJob s → Request s 7 tag arg data →
      (s.sw8 = false → tells .fwLoad 3) ∧
      (s.sw8 = true → (n = 0 ∨ 65536 < n ∨ n % 8 ≠ 0) → tells .fwLoad 4) ∧
      (s.sw8 = true → 0 < n → n ≤ 65536 → n % 8 = 0 → 0x4C000000 ≤ a → a + n ≤ 0x4C040000 →
        runs .fwLoad ((((p.cupRespond 1 tag 0 []).updCup fun x => { x with job := some ⟨7, tag, 0, data, 0⟩ }).sendOrder tag n a
          (fwSlot (1 - s.sealw.slot))).gwFlush))) ∧
    (NoJob s → Request s 8 tag arg data → s.cup.active ≤ 1 →
      (s.sw8 = false → tells .fwTakeover 3) ∧
      (s.sw8 = true → (s.cup.stby = false ∨ s.cup.stbyFw = false) → tells .fwTakeover 2) ∧
      (s.sw8 = true → s.cup.stby = true → s.cup.stbyFw = true →
        ∃ t, runs .fwTakeover t ∧ t.cup.takeover = true ∧ (t.eng (33 + s.cup.active)).evpend.getLsbD 7 = true ∧
          t.ramBytes (1 - s.cup.active) 0xF000 4096 = s.ramBytes s.cup.active 0xF000 4096 ∧ t.cup.active = s.cup.active ∧
          t.mem = s.mem)) ∧
    (NoJob s → Request s 9 tag arg data → runs .cupolaQuery (p.cupRespond 0 tag 0 [p.cupStatus]))

/-- Orders to the Keep, the parameter check, the standby core and the takeover (R543, R552, R554, R556). -/
def Obligations.CupolaOrders : Prop :=
  ∀ (s : State) (w src dst : Word) (pass : Bool),
    let runs (i : Instr) (t : State) : Prop := exec i s = .next t
    let n := bitsOf w.toNat 16 16 * 8
    let tag := bitsOf w.toNat 8 8
    let p := s.updCup fun x => { x with taken := [] }
    let reply (t : State) (r : Nat) : State := t.quietly (mailboxPost .keep 1 125 (word (r + tag * 256)))
    (s.cup.resps = [] → s.cup.orders = [] → s.flag (XCH_MBX_STAT 127) XCH_MBX_STAT_FULL = false →
      (s.cup.taken = [] → runs .orderCopy s) ∧
      (s.cup.taken = [w, src, dst] →
        (∀ d, p.orderSource src.toNat n = some d → w.toNat % 256 = 0x81 → safetyArea dst.toNat = true →
          p.mramAllowed .keep dst.toNat n = true → s.mramStop = false → runs .orderCopy (reply (p.mramStore dst.toNat d) 0)) ∧
        (∀ d, p.orderSource src.toNat n = some d → p.mramAllowed .keep dst.toNat n = false → runs .orderCopy (reply p 1)) ∧
        (p.orderSource src.toNat n = none → runs .orderCopy (reply p 1)))) ∧
    (s.flag (XCH_MBX_STAT 125) XCH_MBX_STAT_FULL = false → runs .orderReply s) ∧
    (∀ (o : CupOrder) (l : List Byte), s.flag (XCH_MBX_STAT 125) XCH_MBX_STAT_FULL = true →
      let c := mailboxConsume .gateway 2 125 s
      let q := (c.answer s.resp).updCup fun x => { x with wwl := 0, order := none }
      c.resp = .data l → c.cup.order = some o → bitsOf (ofBytes l) 8 8 = o.tag % 256 →
        (ofBytes l % 256 ≠ 0 → runs .orderReply (q.endJob 7 0 [])) ∧
        (∀ d s2, ofBytes l % 256 = 0 → q.readMram o.dst ((o.len + 7) / 8 * 8) = (some d, s2) →
          (s2.orderSource o.src ((o.len + 7) / 8 * 8) = some d → runs .orderReply (s2.jobNext o)) ∧
          (s2.orderSource o.src ((o.len + 7) / 8 * 8) ≠ some d → runs .orderReply (s2.endJob 8 0 [])))) ∧
    (s.cup.order = none → runs .orderTimeout s) ∧
    (s.cup.order ≠ none →
      runs .orderTimeout ((s.updCup fun x => { x with wwl := 0, order := none, orders := [] }).endJob 7 0 [])) ∧
    (let b := 1 - s.cup.active;
      ((s.resource (resId 8 b)).state = 6 → runs .standbySelfTest s) ∧
      ((s.resource (resId 8 b)).state ≠ 6 →
        s.cup.active ≤ 1 → ∃ t, runs .standbySelfTest t ∧ t.eng (33 + b) = { s.eng (33 + b) with st := .test } ∧
          (t.eng (33 + s.cup.active)).evpend.getLsbD 7 = true ∧ { t with engines := s.engines } = s) ∧
      ((s.eng (33 + b)).st = .test → s.cup.job = none →
        ∃ t, runs (.standbyTestComplete pass) t ∧ (t.eng (33 + b)).st = .halted ∧ t.cup.stby = pass ∧ t.mem = s.mem) ∧
      ((s.eng (33 + b)).st ≠ .test → runs (.standbyTestComplete pass) s)) ∧
    (let no := bitsOf s.cup.sw.toNat 0 4;
      (swValid s.cup.sw = false → runs .parameterCheck ((s.updCup fun x => { x with set := [] }).modeEval)) ∧
      (∀ l b s1 s2, swValid s.cup.sw = true → s.readMram (copyA no) 2048 = (some l, s1) →
        s1.readMram (copyB no) 2048 = (some b, s2) →
        (psValid l no = true → b = l →
          runs .parameterCheck ((((s2.updCup fun x => { x with set := l, setNo := no }).causeOver 7)).modeEval)) ∧
        (psValid l no = true → psValid b no = false → s2.cup.order = none → s2.cup.job = none →
          runs .parameterCheck (((((s2.updCup fun x => { x with set := l, setNo := no }).causeOver 7).sendOrder 0 2048 (copyA no)
            (copyB no)).updCup fun x => { x with job := some ⟨0, 0, no, [], copyB no⟩ }).modeEval)) ∧
        (psValid l no = false → psValid b no = false → (s2.mode = 3 ∨ s2.mode = 4) → Holdable s2 →
          ∃ t, runs .parameterCheck t ∧ Held s2 t 7 ∧ t.cup.set = []))) ∧
    (s.cup.takeover = false → runs .takeoverSwitch s) ∧
    (s.cup.takeover = true → s.cup.active ≤ 1 → s.mode = 2 → s.holdStands = false →
      ∃ t, runs .takeoverSwitch t ∧ t.cup.active = 1 - s.cup.active ∧ t.cup.newCore = 65 ∧ t.cup.takeover = false ∧
        (t.eng (33 + s.cup.active)).st = .halted ∧ (t.eng (34 - s.cup.active)).st = .running ∧
        t.sealw.slot = 1 - s.sealw.slot ∧ (s.cup.compat = false → t.sealw.perm = s.sealw.perm) ∧
        (s.cup.compat = true → t.sealw.perm = s.sealw.perm.map fun q => (q.1, q.2.1, s.cup.ver.getD (1 - s.cup.active) 0)) ∧
        t.mem = s.mem)

/-- The safety cycle and its monitoring (R517-R519, R531, R533, R547, R557): cycle start and tick, checkpoints and their watchdog, MON
registers, the clock check, the seal. -/
def Obligations.SafetyCycle : Prop :=
  ∀ (s : State) (core : Fin 2) (n : BitVec 6) (v : Word) (dev : BitVec 16) (k63 : Bool),
    let runs (i : Instr) (t : State) : Prop := exec i s = .next t
    let holds (i : Instr) (c : Nat) : Prop := Holdable s → ∃ t, runs i t ∧ Held s t c
    let off := (s.cup.tx.set 2 0).set 3 3
    (s.cupRuns = false → runs .safetyCycleStart s ∧ runs .computationTick s) ∧
    (s.cupRuns = true →
      (∃ t, runs .safetyCycleStart t ∧ t.cup.cycles = s.cup.cycles + 1 ∧ t.cup.half = false ∧ t.cup.chk = none ∧
        t.cup.chk0 = false ∧ t.cup.chk63 = false ∧ t.reg CUP_CYCLE = s.cup.cycles + 1 ∧
        (t.eng (33 + s.cup.active)).evpend.getLsbD 1 = true ∧ (s.mode = 2 → t.cup.tx = off)) ∧
      (∃ t, runs .computationTick t ∧ t.cup.half = true ∧ t.cup.cycles = s.cup.cycles ∧
        (t.eng (33 + s.cup.active)).evpend.getLsbD 1 = true ∧ (s.mode ≠ 3 → s.mode ≠ 4 → t.cup.tx = off) ∧ t.regs = s.regs ∧
        t.mem = s.mem)) ∧
    (s.cup.active ≠ core.val → runs (.checkpoint core n) s ∧ runs (.monMraWrite core v) s ∧ runs (.monFail core v) s) ∧
    (s.cup.active = core.val →
      (let good := (s.eng (33 + core)).pfsig = Tbl.get (fun _ => 0) s.cup.sig (64 * core.val + n.toNat);
      let inOrder := (n = 0 ∧ s.cup.chk = none) ∨ ∃ m, s.cup.chk = some m ∧ m < n.toNat;
        (good → inOrder → ∃ t, runs (.checkpoint core n) t ∧ t.cup.chk = some n.toNat ∧ t.cup.hold = s.cup.hold ∧
          (t.eng (33 + core)).pfsig = (if n = 0 then 0 else (s.eng (33 + core)).pfsig) ∧ t.regs = s.regs ∧ t.mem = s.mem) ∧
        (¬(good ∧ inOrder) → holds (.checkpoint core n) 1)) ∧
      (safetyArea (v.toNat / 4 * 4) = false → runs (.monMraWrite core v) (s.updCup fun x => { x with
        mra := word (v.toNat / 4 * 4), mrd := .busError })) ∧
      (∀ l s1, safetyArea (v.toNat / 4 * 4) = true →
        (s.updCup fun x => { x with mra := word (v.toNat / 4 * 4) }).readMram (v.toNat / 4 * 4) 4 = (some l, s1) →
        runs (.monMraWrite core v) (s1.updCup fun x => { x with mrd := .data l })) ∧
      (v.toNat % 16 = 0 → runs (.monFail core v) s) ∧ (v.toNat % 16 ≠ 0 → holds (.monFail core v) 11)) ∧
    ((if k63 then s.cup.chk63 else s.cup.chk0) = true → runs (.watchdogExpiry k63) s) ∧
    ((if k63 then s.cup.chk63 else s.cup.chk0) = false → holds (.watchdogExpiry k63) 2) ∧
    (-100 ≤ dev.toInt → dev.toInt ≤ 100 →
      runs (.clockCheck dev) (((s.setFld PWR_CLK_STAT ⟨16, 16⟩ dev.toNat).setFld PWR_CLK_STAT ⟨7, 1⟩ 1).causeOver 3)) ∧
    (dev.toInt < -100 ∨ 100 < dev.toInt → Holdable s →
      ∃ t, runs (.clockCheck dev) t ∧ Held s t 3 ∧ t.fld PWR_CLK_STAT ⟨7, 1⟩ = 0 ∧
        t.fld PWR_CLK_STAT ⟨16, 16⟩ = dev.toNat) ∧
    runs (.sealLoopPulse true) s ∧
    (∃ t, runs (.sealLoopPulse false) t ∧ t.sealw = { s.sealw with brk := true } ∧ t.flag CUP_STAT CUP_STAT_SEALBRK = true ∧
      t.mode = s.mode ∧ t.cup = s.cup ∧ t.mem = s.mem) ∧
    (∃ t, runs .vbatLoss t ∧ t.sealw = { s.sealw with vbat := true } ∧ t.fld PWR_SUPPLY ⟨8, 2⟩ = 2 ∧ t.mem = s.mem ∧
      t.cup = s.cup ∧ ∀ a, a ≠ PWR_SUPPLY → t.reg a = s.reg a)

/-- The field link (R245, R520-R524): frames as sent, checked and used, time-outs, training. -/
def Obligations.FieldLink : Prop :=
  ∀ (s : State) (w : FldWorld) (l : Fin 4) (ident : Option FldIdent) (ns : Int),
    let runs (i : Instr) (t : State) : Prop := exec i s = .next t
    let f := s.cup.up
    let g := s.cup.down
    let safe (f : List Byte) : Prop := (f.getD 0 0).toNat % 16 = 2
    (s.die.run = false → runs (.fieldLinkFrameSend (some w)) s) ∧
    (s.die.run = true →
      ∃ t, runs (.fieldLinkFrameSend (some w)) t ∧ t.cup.up.length = 100 ∧
        word (ofBytes (t.cup.up.drop 96)) = crc32c (t.cup.up.take 96) ∧
        t.cup.up.getD 0 0 = (if s.die.upPos = 4 then 2 else 1) ∧ (t.cup.up.getD 1 0).toNat = (s.die.upSeq + 1) % 256 ∧
        t.die.upSeq = (s.die.upSeq + 1) % 256 ∧ t.die.upPos = (s.die.upPos + 1) % 5 ∧
        (s.die.upPos = 4 → ofBytes ((t.cup.up.drop 42).take 2) = inBits s.die (·.logical)) ∧ t.mem = s.mem ∧ t.regs = s.regs) ∧
    (s.cup.tx.length = 64 →
      ∃ t, runs (.fieldLinkFrameSend none) t ∧ t.cup.down.length = 100 ∧
        word (ofBytes (t.cup.down.drop 96)) = crc32c (t.cup.down.take 96) ∧
        t.cup.down.getD 0 0 = (if s.cup.downPos = 4 then 2 else 1) ∧ t.cup.downSeq = (s.cup.downSeq + 1) % 256 ∧
        t.cup.downPos = (s.cup.downPos + 1) % 5 ∧
        (s.cup.downPos = 4 → s.outOff = true → t.cup.down.getD 42 0 = 0 ∧ t.cup.down.getD 43 0 = 3) ∧
        (s.cup.downPos = 4 → s.outOff = false →
          t.cup.down.getD 42 0 = s.cup.tx.getD 2 0 ∧ t.cup.down.getD 43 0 = s.cup.tx.getD 3 0) ∧ t.mem = s.mem ∧ t.regs = s.regs) ∧
    (∀ ok, frameOk f ok s.cup.upSeq s.cup.upPos = false → s.cup.link ≠ 0 →
      ∃ t, runs (.fieldLinkFrame true ok ident none) t ∧ t.reg FLD_BADFRM = s.reg FLD_BADFRM + 1 ∧ t.cup.goodUp = 0 ∧
        t.cup.rx = s.cup.rx ∧ t.cup.up = [] ∧ t.mem = s.mem) ∧
    (frameOk f true s.cup.upSeq s.cup.upPos = true → s.cup.link = 2 → safe f →
      ∃ t, runs (.fieldLinkFrame true true none none) t ∧ t.cup.rx = f ∧ t.reg FLD_ENV = word (ofBytes ((f.drop 60).take 4)) ∧
        (t.eng (33 + s.cup.active)).evpend.getLsbD 4 = true ∧ t.cup.link = 2 ∧ t.mem = s.mem) ∧
    (frameOk f true s.cup.upSeq s.cup.upPos = true → s.cup.link = 2 → ¬safe f →
      ∃ t, runs (.fieldLinkFrame true true none (some ns)) t ∧ t.cup.rx = s.cup.rx ∧
        t.flag ALM_STAT ALM_STAT_FLDLOCK = (decide (-30 ≤ ns) && decide (ns ≤ 30)) ∧ t.mem = s.mem) ∧
    (frameOk g true s.die.seq s.die.pos = true → s.die.run = true → s.cup.link = 2 → safe g →
      let c := (g.getD 42 0).toNat % 4
      let ok := (g.getD 43 0).toNat % 4 = 3 - c ∧ ofBytes ((g.drop 40).take 2) = (s.die.sseq + 1) % 65536
      ∃ t, runs (.fieldLinkFrame false true none none) t ∧ t.die.sseq = ofBytes ((g.drop 40).take 2) ∧
        (ok → ∀ m : Fin 2, (t.die.outs.get m).on =
          (c.testBit m && !(s.die.outs.get m).fault && !(s.die.outs.get m).stuck)) ∧
        (¬ok → t.die.outs = s.die.outs) ∧ t.mem = s.mem ∧ t.regs = s.regs) ∧
    (∃ t, runs (.fieldLinkTimeout true) t ∧ t.die.linked = false ∧ (∀ m : Fin 2, (t.die.outs.get m).on = false) ∧
      { t with die := s.die } = s) ∧
    (s.cup.link ≠ 2 → s.mode = 1 → runs (.fieldLinkTimeout false) s) ∧
    (s.cup.link ≠ 2 → Holdable s → ∃ t, runs (.fieldLinkTimeout false) t ∧ Held s t 5) ∧
    (s.cup.link = 2 → Holdable s →
      ∃ t, runs (.fieldLinkTimeout false) t ∧ Held s t 5 ∧ t.cup.link = 0 ∧ t.reg FLD_LOSS = s.reg FLD_LOSS + 1) ∧
    (∃ t, runs (.laneStuck l) t ∧ t.cup.link = 0 ∧ t.fld FLD_LINK ⟨0, 2⟩ = 0 ∧ (t.reg FLD_LINK).getLsbD (2 + l.val) = true ∧
      t.mem = s.mem) ∧
    (s.cup.link ≠ 0 → runs .linkRetrain s) ∧
    (s.cup.link = 0 → s.fld FLD_LINK ⟨2, 4⟩ ≠ 0 → runs .linkRetrain s) ∧
    (s.cup.link = 0 → s.fld FLD_LINK ⟨2, 4⟩ = 0 → (∀ l, l < 4 → (s.resource (resId 9 l)).state ≠ 5) →
      ∃ t, runs .linkRetrain t ∧ t.cup.link = 1 ∧ t.fld FLD_LINK ⟨0, 2⟩ = 1 ∧ t.cup.goodUp = 0 ∧ t.cup.goodDown = 0 ∧
        t.mem = s.mem)

/-- Safe inputs, sensor supplies and safe outputs (R525-R532, R557): filter, test pulses, faults and their end, overload, read-back. -/
def Obligations.SafeInputsAndOutputs : Prop :=
  ∀ (s : State) (raw : BitVec 16) (j : Fin 4) (m : Fin 2) (k : Fin 16) (lev : BitVec 2) (pr : Fin 8),
    let runs (i : Instr) (t : State) : Prop := exec i s = .next t
    let x := s.safeIn k
    let q := s.supply j
    let o := s.die.outs.get m
    let other := 1 - m
    (s.die.run = false → runs (.inputSample raw) s) ∧
    (s.die.run = true → (∀ i, i < 16 → (s.safeIn i).suspect = none) →
      (s.inSup k = 4 ∨ (s.inSup k < 4 ∧ (s.supply (s.inSup k)).pulse = false ∧ 5 ≤ (s.supply (s.inSup k)).age)) →
      ∃ t, runs (.inputSample raw) t ∧ t.die.hist = (raw :: s.die.hist).take 10 ∧ (t.safeIn k).raw = raw.getLsbD k ∧
        (t.safeIn k).logical = (if s.inUsed k = false then false
          else if raw.getLsbD k ≠ x.logical ∧ s.inFilt k ≤ x.diff + 1 then raw.getLsbD k else x.logical) ∧
        { t with die := s.die } = s) ∧
    (psF s.cup.set (0x10 + 8 * pr) 7 1 = 1 → s.inOne (2 * pr) ≠ s.inOne (2 * pr + 1) →
      runs (.discrepancyTimeout pr) (s.updCup fun x => { x with disc := x.disc ||| BitVec.ofNat 16 (3 * 4 ^ pr.val) })) ∧
    (s.inOne (2 * pr) = s.inOne (2 * pr + 1) → runs (.discrepancyTimeout pr) s) ∧
    (s.cup.set ≠ [] → psF s.cup.set (0x50 + 4 * j) 0 2 = 3 → s.die.run = true → s.die.linked = true → q.ovl = false →
      q.pulse = false →
      ∃ t, runs (.testPulseStart j) t ∧ t.supply j = { q with pulse := true, pre := s.die.hist.getD 9 0, bad := false } ∧
        t.die.ins = s.die.ins ∧ { t with die := s.die } = s) ∧
    (s.cup.set = [] ∨ s.die.run = false ∨ s.die.linked = false → runs (.testPulseStart j) s) ∧
    (q.pulse = false → runs (.testDropSample j raw) s ∧ runs (.testPulseEnd j) s) ∧
    (q.pulse = true → s.inUsed k = true →
      (s.inSup k = j.val → raw.getLsbD k = true → x.logical = true →
        ∃ t, runs (.testDropSample j raw) t ∧ (t.safeIn k).stuck = true ∧ (t.supply j).bad = true ∧ { t with die := s.die } = s) ∧
      (s.inSup k < 4 → s.inSup k ≠ j.val → raw.getLsbD k = false → q.pre.getLsbD k = true →
        ∃ t, runs (.testDropSample j raw) t ∧ (t.safeIn k).suspect = some j.val ∧ { t with die := s.die } = s) ∧
      (s.inSup k = j.val → x.demand = true → q.bad = false →
        ∃ t, runs (.testPulseEnd j) t ∧ (t.supply j).pulse = false ∧ (t.supply j).age = 0 ∧
          (2 ≤ x.passes → (t.safeIn k).stuck = false ∧ (t.safeIn k).cross = false) ∧
          (x.passes < 2 → (t.safeIn k).stuck = x.stuck ∧ (t.safeIn k).passes = x.passes + 1) ∧ { t with die := s.die } = s)) ∧
    (∃ t, runs (.supplyOverload j) t ∧ t.supply j = { q with ovl := true, pulse := false, passes := 0, retried := false } ∧
      (∀ i, i ≠ j.val → t.supply i = s.supply i) ∧ t.die.ins = s.die.ins ∧ { t with die := s.die } = s) ∧
    (∃ t, runs (.supplyRetry j) t ∧ t.supply j = (if q.ovl then { q with retried := true, passes := 0 } else q) ∧
      (∀ i, i ≠ j.val → t.supply i = s.supply i) ∧ { t with die := s.die } = s) ∧
    (o.test = false → o.on = true → o.stuck = false → lev.getLsbD m = false → 99 ≤ o.lows →
      (s.die.outs.get other).test = false → (s.die.outs.get other).on = true → (s.die.outs.get other).stuck = false →
      ∃ t, runs (.outputReadback lev) t ∧ (t.die.outs.get m).on = false ∧ (t.die.outs.get m).fault = true ∧
        t.cup.hold = s.cup.hold ∧ t.mem = s.mem) ∧
    (o.test = false → o.on = false → o.highs = 99 → lev.getLsbD m = true → (s.die.outs.get other).test = false →
      (s.die.outs.get other).on = true → Holdable s →
      ∃ t, runs (.outputReadback lev) t ∧ Held s t 6 ∧ (t.die.outs.get m).stuck = true ∧ (t.die.outs.get other).on = false) ∧
    (s.cup.set ≠ [] → psF s.cup.set (0x60 + 4 * m) 2 1 = 1 → o.on = true → s.die.linked = true →
      (∃ t, runs (.outputTestPulse m false) t ∧ t.die.outs.get m = { o with level := true, lows := 0 } ∧
        t.die.outs.get other = s.die.outs.get other ∧ { t with die := s.die } = s) ∧
      (Holdable s → ∃ t, runs (.outputTestPulse m true) t ∧ Held s t 6 ∧ (t.die.outs.get other).on = false)) ∧
    (o.on = false → ∀ h, runs (.outputTestPulse m h) s) ∧
    runs (.fieldDieSelfTest true) (s.updCup fun x => { x with live := x.live &&& ~~~0x400 }) ∧
    (Holdable s → ∃ t, runs (.fieldDieSelfTest false) t ∧ Held s t 10)

/-! ### The queue, the tick, every command, every step -/

/-- A step takes the command at the front of the queue and is exec of it on the state with the queue's rest (the block form of the model,
log entry 99). -/
def Obligations.QueueStep : Prop :=
  ∀ (s : State) (c : Instr) (r : List Instr), s.pending = c :: r → step s = exec c { s with pending := r }

/-- With no command waiting a step is one tick of CK_TIME, the model's choice (log entry 5): out of reset every network clock advances by
8 ns and its rate adjustment (R235), running processors count their cycles and timers (R62, R64), and no byte of memory, no other processor
and no queue changes; held in reset nothing happens. -/
def Obligations.TickStep : Prop :=
  ∀ (s : State), s.pending = [] →
    (s.boot.held = true → step s = .next s) ∧
    (s.boot.held = false → ∃ t, step s = .next t ∧ t.ticks = s.ticks + 1 ∧ t.mem = s.mem ∧ t.pending = [] ∧ t.plm = s.plm ∧
      t.cup = s.cup ∧ t.vigil = s.vigil ∧
      (∀ n, n < 4 → (s.clock n).slew = 0 →
        let x := (s.clock n).rem + s.rateOf n
        (t.clock n).t = (((s.clock n).t : Int) + 524288 + x.fdiv 250000).toNat % (65536000000000 * 2 ^ 48) ∧
          (t.clock n).rem = x.fmod 250000) ∧
      (∀ e, e < 35 → ((s.eng e).st = .running ∨ (s.eng e).st = .waiting) →
        (t.eng e).cycle = (s.eng e).cycle + word (32 * (s.ticks + 1) / 5 - 32 * s.ticks / 5) ∧
        ((s.eng e).tmr = 0 → (t.eng e).tmr = 0) ∧
        (2 ≤ (s.eng e).tmrNs → (s.eng e).tmr = 1 → (t.eng e).tmr = 0 ∧ (t.eng e).evpend.getLsbD 5 = true) ∧
        (2 ≤ (s.eng e).tmrNs → (s.eng e).tmr ≠ 0 → (t.eng e).tmr = (s.eng e).tmr - 1) ∧
        ((s.eng e).tmrNs < 2 → (t.eng e).tmr = (s.eng e).tmr)) ∧
      (∀ e, (s.eng e).st ≠ .running → (s.eng e).st ≠ .waiting → t.eng e = s.eng e))

/-- Every command is carried out in every state: none ends in a fault or a refusal (the model's choice, log entry 1). -/
def Obligations.EveryCommandCompletes : Prop := ∀ (i : Instr) (s : State), Runs i s

/-- The state after power-on reset: no command waits, the mode is BOOT (R579), the reset cause is power-on (R590), the Keep is not READY
(R195), every register word reads its reset value (R7), no engine runs, and the sparse tables are in canonical form. -/
def Obligations.ResetState : Prop :=
  State.reset.pending = [] ∧ Memory.wf State.reset.mem ∧ Registers.wf State.reset.regs ∧ State.reset.mode = 1 ∧
    State.reset.reg SYS_RST_CAUSE = 1 ∧ State.reset.flag PLM_STAT PLM_STAT_READY = false ∧
    (∀ a, State.reset.reg a = regReset a) ∧ (∀ a, State.reset.byte a = 0) ∧
    (∀ e, (State.reset.eng e).run = false ∧ (State.reset.eng e).st ≠ .running) ∧ State.reset.reg PLM_RSV = 0x02555555

/-- Every step keeps the canonical forms of memory and registers, so that equal contents are equal data, and takes exactly one command from
the queue's front. The forms are the model's choice (log entry 4). -/
def Obligations.StepKeepsForms : Prop :=
  ∀ (s t : State), Memory.wf s.mem → Registers.wf s.regs → step s = .next t →
    Memory.wf t.mem ∧ Registers.wf t.regs ∧ t.pending = s.pending.tail

/-- No fuse operation can be undone, by any step (R588): the rollback counter never falls, and a slot once programmed or revoked stays so. -/
def Obligations.FusesNeverUndone : Prop :=
  ∀ (s t : State), step s = .next t →
    s.fuses.rollback ≤ t.fuses.rollback ∧
      ∀ k : Fin 4, ((s.fuses.slots.get k).programmed = true → (t.fuses.slots.get k).programmed = true) ∧
        ((s.fuses.slots.get k).revoked = true → (t.fuses.slots.get k).revoked = true)

/-- Multiplication and division (R59, R116, R117), division by zero included, which leaves the quotient and flags the specification gives. -/
def Obligations.MultiplyDivideResults : Prop := Claims.MultiplyDivideResults ∧ Claims.DivideByZeroValues

/-- Returns take PC and PSW from the stack, and exception entries put them there (R91, R94-R96, R134, R136). -/
def Obligations.ReturnsAndExceptionEntries : Prop := Claims.ReturnsFromStack ∧ Claims.ExceptionEntries

/-- One string element, alone and under REP (R76-R80, R82, R139-R141). -/
def Obligations.StringElementsAndRepeats : Prop := Claims.StringElements ∧ Claims.RepeatedStringElements

/-- A processor that is not ready issues nothing, and a source form that is not allowed is an illegal instruction (R50, R93, R163). -/
def Obligations.WhatIssuesNothing : Prop := Claims.NotReadyIssuesNothing ∧ Claims.AddressSourceIsIllegal

/-- Access codes of registers, and the latching reads of clocks (R8, R9, R12, R33, R239). -/
def Obligations.RegisterReads : Prop := Claims.RegisterAccessCodes ∧ Claims.LatchingReadsOfClocks

/-- Rates, slews, steps and sets of the network clocks by their owner (R235-R238, R300). -/
def Obligations.ClockSteering : Prop := Claims.ClockRatesAndSlews ∧ Claims.ClockStepsAndSets

/-- Angle, line and mains bases (R246-R250). -/
def Obligations.AngleLineMainsBases : Prop := Claims.AngleAndLineBases ∧ Claims.MainsBase

/-- Branches and loops with the loop-end test (R84-R88, R131-R134, R146). -/
def Obligations.BranchesAndLoops : Prop := Claims.BranchesAndLoops ∧ Claims.LoopEndTest

/-- A CAN controller on the bus, and how it halts (R382-R384, R388-R391, R395-R398, R400-R402). -/
def Obligations.CanBus : Prop := Claims.CanBus ∧ Claims.CanHalting

/-- Actions of SYS_Ete_CTL and the end of resets and tests (R161-R168). -/
def Obligations.EngineActions : Prop := Claims.EngineActions ∧ Claims.EngineResetsEnd

/-- The PCIe endpoint and the local bus (R34-R44, R610). -/
def Obligations.HostInterfaces : Prop := Claims.PcieEndpoint ∧ Claims.LocalBusCycles
end

