-- ==== Sys2Proof/Laws/State.lean ====
section
/-! SUPPORT. What every primitive update of the state leaves alone: its fields, and the values read from them. -/

set_option autoImplicit false

namespace Sys2Proof.Machine

open Sys2Proof

/-! ### Fields -/

@[simp] theorem State.setReg_fields (s : State) (a : Nat) (w : Word) :
    (s.setReg a w).pending = s.pending ∧
    (s.setReg a w).fresh = s.fresh ∧
    (s.setReg a w).ticks = s.ticks ∧
    (s.setReg a w).resp = s.resp ∧
    (s.setReg a w).mem = s.mem ∧
    (s.setReg a w).ecc = s.ecc ∧
    (s.setReg a w).prog = s.prog ∧
    (s.setReg a w).storeSeed = s.storeSeed ∧
    (s.setReg a w).engines = s.engines ∧
    (s.setReg a w).outst = s.outst ∧
    (s.setReg a w).errq = s.errq ∧
    (s.setReg a w).errLatch = s.errLatch ∧
    (s.setReg a w).lanes = s.lanes ∧
    (s.setReg a w).loader = s.loader ∧
    (s.setReg a w).host = s.host ∧
    (s.setReg a w).vigil = s.vigil ∧
    (s.setReg a w).tc = s.tc ∧
    (s.setReg a w).mramQ = s.mramQ ∧
    (s.setReg a w).mramStop = s.mramStop ∧
    (s.setReg a w).cmdq = s.cmdq ∧
    (s.setReg a w).rspq = s.rspq ∧
    (s.setReg a w).irqReq = s.irqReq ∧
    (s.setReg a w).ddrIssued = s.ddrIssued ∧
    (s.setReg a w).plm = s.plm ∧
    (s.setReg a w).fuses = s.fuses ∧
    (s.setReg a w).ptc = s.ptc ∧
    (s.setReg a w).ptcOrg = s.ptcOrg ∧
    (s.setReg a w).ang = s.ang ∧
    (s.setReg a w).lin = s.lin ∧
    (s.setReg a w).mns = s.mns ∧
    (s.setReg a w).latch = s.latch ∧
    (s.setReg a w).calPend = s.calPend ∧
    (s.setReg a w).handed = s.handed ∧
    (s.setReg a w).carFlag = s.carFlag ∧
    (s.setReg a w).ports = s.ports ∧
    (s.setReg a w).camp = s.camp ∧
    (s.setReg a w).star = s.star ∧
    (s.setReg a w).sgmOrder = s.sgmOrder ∧
    (s.setReg a w).cans = s.cans ∧
    (s.setReg a w).seqs = s.seqs ∧
    (s.setReg a w).gp = s.gp ∧
    (s.setReg a w).bridge = s.bridge ∧
    (s.setReg a w).cup = s.cup ∧
    (s.setReg a w).die = s.die ∧
    (s.setReg a w).sealw = s.sealw ∧
    (s.setReg a w).boot = s.boot ∧
    (s.setReg a w).jtag = s.jtag :=
  ⟨rfl, rfl, rfl, rfl, rfl, rfl, rfl, rfl, rfl, rfl, rfl, rfl, rfl, rfl, rfl, rfl, rfl, rfl, rfl, rfl, rfl, rfl, rfl, rfl, rfl, rfl, rfl, rfl, rfl, rfl, rfl, rfl, rfl, rfl, rfl, rfl, rfl, rfl, rfl, rfl, rfl, rfl, rfl, rfl, rfl, rfl, rfl⟩

@[simp] theorem State.setFld_fields (s : State) (a : Nat) (f : Fld) (v : Nat) :
    (s.setFld a f v).pending = s.pending ∧
    (s.setFld a f v).fresh = s.fresh ∧
    (s.setFld a f v).ticks = s.ticks ∧
    (s.setFld a f v).resp = s.resp ∧
    (s.setFld a f v).mem = s.mem ∧
    (s.setFld a f v).ecc = s.ecc ∧
    (s.setFld a f v).prog = s.prog ∧
    (s.setFld a f v).storeSeed = s.storeSeed ∧
    (s.setFld a f v).engines = s.engines ∧
    (s.setFld a f v).outst = s.outst ∧
    (s.setFld a f v).errq = s.errq ∧
    (s.setFld a f v).errLatch = s.errLatch ∧
    (s.setFld a f v).lanes = s.lanes ∧
    (s.setFld a f v).loader = s.loader ∧
    (s.setFld a f v).host = s.host ∧
    (s.setFld a f v).vigil = s.vigil ∧
    (s.setFld a f v).tc = s.tc ∧
    (s.setFld a f v).mramQ = s.mramQ ∧
    (s.setFld a f v).mramStop = s.mramStop ∧
    (s.setFld a f v).cmdq = s.cmdq ∧
    (s.setFld a f v).rspq = s.rspq ∧
    (s.setFld a f v).irqReq = s.irqReq ∧
    (s.setFld a f v).ddrIssued = s.ddrIssued ∧
    (s.setFld a f v).plm = s.plm ∧
    (s.setFld a f v).fuses = s.fuses ∧
    (s.setFld a f v).ptc = s.ptc ∧
    (s.setFld a f v).ptcOrg = s.ptcOrg ∧
    (s.setFld a f v).ang = s.ang ∧
    (s.setFld a f v).lin = s.lin ∧
    (s.setFld a f v).mns = s.mns ∧
    (s.setFld a f v).latch = s.latch ∧
    (s.setFld a f v).calPend = s.calPend ∧
    (s.setFld a f v).handed = s.handed ∧
    (s.setFld a f v).carFlag = s.carFlag ∧
    (s.setFld a f v).ports = s.ports ∧
    (s.setFld a f v).camp = s.camp ∧
    (s.setFld a f v).star = s.star ∧
    (s.setFld a f v).sgmOrder = s.sgmOrder ∧
    (s.setFld a f v).cans = s.cans ∧
    (s.setFld a f v).seqs = s.seqs ∧
    (s.setFld a f v).gp = s.gp ∧
    (s.setFld a f v).bridge = s.bridge ∧
    (s.setFld a f v).cup = s.cup ∧
    (s.setFld a f v).die = s.die ∧
    (s.setFld a f v).sealw = s.sealw ∧
    (s.setFld a f v).boot = s.boot ∧
    (s.setFld a f v).jtag = s.jtag :=
  ⟨rfl, rfl, rfl, rfl, rfl, rfl, rfl, rfl, rfl, rfl, rfl, rfl, rfl, rfl, rfl, rfl, rfl, rfl, rfl, rfl, rfl, rfl, rfl, rfl, rfl, rfl, rfl, rfl, rfl, rfl, rfl, rfl, rfl, rfl, rfl, rfl, rfl, rfl, rfl, rfl, rfl, rfl, rfl, rfl, rfl, rfl, rfl⟩

@[simp] theorem State.setFlag_fields (s : State) (a : Nat) (f : Fld) (b : Bool) :
    (s.setFlag a f b).pending = s.pending ∧
    (s.setFlag a f b).fresh = s.fresh ∧
    (s.setFlag a f b).ticks = s.ticks ∧
    (s.setFlag a f b).resp = s.resp ∧
    (s.setFlag a f b).mem = s.mem ∧
    (s.setFlag a f b).ecc = s.ecc ∧
    (s.setFlag a f b).prog = s.prog ∧
    (s.setFlag a f b).storeSeed = s.storeSeed ∧
    (s.setFlag a f b).engines = s.engines ∧
    (s.setFlag a f b).outst = s.outst ∧
    (s.setFlag a f b).errq = s.errq ∧
    (s.setFlag a f b).errLatch = s.errLatch ∧
    (s.setFlag a f b).lanes = s.lanes ∧
    (s.setFlag a f b).loader = s.loader ∧
    (s.setFlag a f b).host = s.host ∧
    (s.setFlag a f b).vigil = s.vigil ∧
    (s.setFlag a f b).tc = s.tc ∧
    (s.setFlag a f b).mramQ = s.mramQ ∧
    (s.setFlag a f b).mramStop = s.mramStop ∧
    (s.setFlag a f b).cmdq = s.cmdq ∧
    (s.setFlag a f b).rspq = s.rspq ∧
    (s.setFlag a f b).irqReq = s.irqReq ∧
    (s.setFlag a f b).ddrIssued = s.ddrIssued ∧
    (s.setFlag a f b).plm = s.plm ∧
    (s.setFlag a f b).fuses = s.fuses ∧
    (s.setFlag a f b).ptc = s.ptc ∧
    (s.setFlag a f b).ptcOrg = s.ptcOrg ∧
    (s.setFlag a f b).ang = s.ang ∧
    (s.setFlag a f b).lin = s.lin ∧
    (s.setFlag a f b).mns = s.mns ∧
    (s.setFlag a f b).latch = s.latch ∧
    (s.setFlag a f b).calPend = s.calPend ∧
    (s.setFlag a f b).handed = s.handed ∧
    (s.setFlag a f b).carFlag = s.carFlag ∧
    (s.setFlag a f b).ports = s.ports ∧
    (s.setFlag a f b).camp = s.camp ∧
    (s.setFlag a f b).star = s.star ∧
    (s.setFlag a f b).sgmOrder = s.sgmOrder ∧
    (s.setFlag a f b).cans = s.cans ∧
    (s.setFlag a f b).seqs = s.seqs ∧
    (s.setFlag a f b).gp = s.gp ∧
    (s.setFlag a f b).bridge = s.bridge ∧
    (s.setFlag a f b).cup = s.cup ∧
    (s.setFlag a f b).die = s.die ∧
    (s.setFlag a f b).sealw = s.sealw ∧
    (s.setFlag a f b).boot = s.boot ∧
    (s.setFlag a f b).jtag = s.jtag :=
  ⟨rfl, rfl, rfl, rfl, rfl, rfl, rfl, rfl, rfl, rfl, rfl, rfl, rfl, rfl, rfl, rfl, rfl, rfl, rfl, rfl, rfl, rfl, rfl, rfl, rfl, rfl, rfl, rfl, rfl, rfl, rfl, rfl, rfl, rfl, rfl, rfl, rfl, rfl, rfl, rfl, rfl, rfl, rfl, rfl, rfl, rfl, rfl⟩

@[simp] theorem State.count_fields (s : State) (a k : Nat) :
    (s.count a k).pending = s.pending ∧
    (s.count a k).fresh = s.fresh ∧
    (s.count a k).ticks = s.ticks ∧
    (s.count a k).resp = s.resp ∧
    (s.count a k).mem = s.mem ∧
    (s.count a k).ecc = s.ecc ∧
    (s.count a k).prog = s.prog ∧
    (s.count a k).storeSeed = s.storeSeed ∧
    (s.count a k).engines = s.engines ∧
    (s.count a k).outst = s.outst ∧
    (s.count a k).errq = s.errq ∧
    (s.count a k).errLatch = s.errLatch ∧
    (s.count a k).lanes = s.lanes ∧
    (s.count a k).loader = s.loader ∧
    (s.count a k).host = s.host ∧
    (s.count a k).vigil = s.vigil ∧
    (s.count a k).tc = s.tc ∧
    (s.count a k).mramQ = s.mramQ ∧
    (s.count a k).mramStop = s.mramStop ∧
    (s.count a k).cmdq = s.cmdq ∧
    (s.count a k).rspq = s.rspq ∧
    (s.count a k).irqReq = s.irqReq ∧
    (s.count a k).ddrIssued = s.ddrIssued ∧
    (s.count a k).plm = s.plm ∧
    (s.count a k).fuses = s.fuses ∧
    (s.count a k).ptc = s.ptc ∧
    (s.count a k).ptcOrg = s.ptcOrg ∧
    (s.count a k).ang = s.ang ∧
    (s.count a k).lin = s.lin ∧
    (s.count a k).mns = s.mns ∧
    (s.count a k).latch = s.latch ∧
    (s.count a k).calPend = s.calPend ∧
    (s.count a k).handed = s.handed ∧
    (s.count a k).carFlag = s.carFlag ∧
    (s.count a k).ports = s.ports ∧
    (s.count a k).camp = s.camp ∧
    (s.count a k).star = s.star ∧
    (s.count a k).sgmOrder = s.sgmOrder ∧
    (s.count a k).cans = s.cans ∧
    (s.count a k).seqs = s.seqs ∧
    (s.count a k).gp = s.gp ∧
    (s.count a k).bridge = s.bridge ∧
    (s.count a k).cup = s.cup ∧
    (s.count a k).die = s.die ∧
    (s.count a k).sealw = s.sealw ∧
    (s.count a k).boot = s.boot ∧
    (s.count a k).jtag = s.jtag :=
  ⟨rfl, rfl, rfl, rfl, rfl, rfl, rfl, rfl, rfl, rfl, rfl, rfl, rfl, rfl, rfl, rfl, rfl, rfl, rfl, rfl, rfl, rfl, rfl, rfl, rfl, rfl, rfl, rfl, rfl, rfl, rfl, rfl, rfl, rfl, rfl, rfl, rfl, rfl, rfl, rfl, rfl, rfl, rfl, rfl, rfl, rfl, rfl⟩

@[simp] theorem State.countSat_fields (s : State) (a k : Nat) :
    (s.countSat a k).pending = s.pending ∧
    (s.countSat a k).fresh = s.fresh ∧
    (s.countSat a k).ticks = s.ticks ∧
    (s.countSat a k).resp = s.resp ∧
    (s.countSat a k).mem = s.mem ∧
    (s.countSat a k).ecc = s.ecc ∧
    (s.countSat a k).prog = s.prog ∧
    (s.countSat a k).storeSeed = s.storeSeed ∧
    (s.countSat a k).engines = s.engines ∧
    (s.countSat a k).outst = s.outst ∧
    (s.countSat a k).errq = s.errq ∧
    (s.countSat a k).errLatch = s.errLatch ∧
    (s.countSat a k).lanes = s.lanes ∧
    (s.countSat a k).loader = s.loader ∧
    (s.countSat a k).host = s.host ∧
    (s.countSat a k).vigil = s.vigil ∧
    (s.countSat a k).tc = s.tc ∧
    (s.countSat a k).mramQ = s.mramQ ∧
    (s.countSat a k).mramStop = s.mramStop ∧
    (s.countSat a k).cmdq = s.cmdq ∧
    (s.countSat a k).rspq = s.rspq ∧
    (s.countSat a k).irqReq = s.irqReq ∧
    (s.countSat a k).ddrIssued = s.ddrIssued ∧
    (s.countSat a k).plm = s.plm ∧
    (s.countSat a k).fuses = s.fuses ∧
    (s.countSat a k).ptc = s.ptc ∧
    (s.countSat a k).ptcOrg = s.ptcOrg ∧
    (s.countSat a k).ang = s.ang ∧
    (s.countSat a k).lin = s.lin ∧
    (s.countSat a k).mns = s.mns ∧
    (s.countSat a k).latch = s.latch ∧
    (s.countSat a k).calPend = s.calPend ∧
    (s.countSat a k).handed = s.handed ∧
    (s.countSat a k).carFlag = s.carFlag ∧
    (s.countSat a k).ports = s.ports ∧
    (s.countSat a k).camp = s.camp ∧
    (s.countSat a k).star = s.star ∧
    (s.countSat a k).sgmOrder = s.sgmOrder ∧
    (s.countSat a k).cans = s.cans ∧
    (s.countSat a k).seqs = s.seqs ∧
    (s.countSat a k).gp = s.gp ∧
    (s.countSat a k).bridge = s.bridge ∧
    (s.countSat a k).cup = s.cup ∧
    (s.countSat a k).die = s.die ∧
    (s.countSat a k).sealw = s.sealw ∧
    (s.countSat a k).boot = s.boot ∧
    (s.countSat a k).jtag = s.jtag :=
  ⟨rfl, rfl, rfl, rfl, rfl, rfl, rfl, rfl, rfl, rfl, rfl, rfl, rfl, rfl, rfl, rfl, rfl, rfl, rfl, rfl, rfl, rfl, rfl, rfl, rfl, rfl, rfl, rfl, rfl, rfl, rfl, rfl, rfl, rfl, rfl, rfl, rfl, rfl, rfl, rfl, rfl, rfl, rfl, rfl, rfl, rfl, rfl⟩

@[simp] theorem State.countFldSat_fields (s : State) (a : Nat) (f : Fld) (k : Nat) :
    (s.countFldSat a f k).pending = s.pending ∧
    (s.countFldSat a f k).fresh = s.fresh ∧
    (s.countFldSat a f k).ticks = s.ticks ∧
    (s.countFldSat a f k).resp = s.resp ∧
    (s.countFldSat a f k).mem = s.mem ∧
    (s.countFldSat a f k).ecc = s.ecc ∧
    (s.countFldSat a f k).prog = s.prog ∧
    (s.countFldSat a f k).storeSeed = s.storeSeed ∧
    (s.countFldSat a f k).engines = s.engines ∧
    (s.countFldSat a f k).outst = s.outst ∧
    (s.countFldSat a f k).errq = s.errq ∧
    (s.countFldSat a f k).errLatch = s.errLatch ∧
    (s.countFldSat a f k).lanes = s.lanes ∧
    (s.countFldSat a f k).loader = s.loader ∧
    (s.countFldSat a f k).host = s.host ∧
    (s.countFldSat a f k).vigil = s.vigil ∧
    (s.countFldSat a f k).tc = s.tc ∧
    (s.countFldSat a f k).mramQ = s.mramQ ∧
    (s.countFldSat a f k).mramStop = s.mramStop ∧
    (s.countFldSat a f k).cmdq = s.cmdq ∧
    (s.countFldSat a f k).rspq = s.rspq ∧
    (s.countFldSat a f k).irqReq = s.irqReq ∧
    (s.countFldSat a f k).ddrIssued = s.ddrIssued ∧
    (s.countFldSat a f k).plm = s.plm ∧
    (s.countFldSat a f k).fuses = s.fuses ∧
    (s.countFldSat a f k).ptc = s.ptc ∧
    (s.countFldSat a f k).ptcOrg = s.ptcOrg ∧
    (s.countFldSat a f k).ang = s.ang ∧
    (s.countFldSat a f k).lin = s.lin ∧
    (s.countFldSat a f k).mns = s.mns ∧
    (s.countFldSat a f k).latch = s.latch ∧
    (s.countFldSat a f k).calPend = s.calPend ∧
    (s.countFldSat a f k).handed = s.handed ∧
    (s.countFldSat a f k).carFlag = s.carFlag ∧
    (s.countFldSat a f k).ports = s.ports ∧
    (s.countFldSat a f k).camp = s.camp ∧
    (s.countFldSat a f k).star = s.star ∧
    (s.countFldSat a f k).sgmOrder = s.sgmOrder ∧
    (s.countFldSat a f k).cans = s.cans ∧
    (s.countFldSat a f k).seqs = s.seqs ∧
    (s.countFldSat a f k).gp = s.gp ∧
    (s.countFldSat a f k).bridge = s.bridge ∧
    (s.countFldSat a f k).cup = s.cup ∧
    (s.countFldSat a f k).die = s.die ∧
    (s.countFldSat a f k).sealw = s.sealw ∧
    (s.countFldSat a f k).boot = s.boot ∧
    (s.countFldSat a f k).jtag = s.jtag :=
  ⟨rfl, rfl, rfl, rfl, rfl, rfl, rfl, rfl, rfl, rfl, rfl, rfl, rfl, rfl, rfl, rfl, rfl, rfl, rfl, rfl, rfl, rfl, rfl, rfl, rfl, rfl, rfl, rfl, rfl, rfl, rfl, rfl, rfl, rfl, rfl, rfl, rfl, rfl, rfl, rfl, rfl, rfl, rfl, rfl, rfl, rfl, rfl⟩

@[simp] theorem State.resetRegs_fields (s : State) (p : Nat → Bool) :
    (s.resetRegs p).pending = s.pending ∧
    (s.resetRegs p).fresh = s.fresh ∧
    (s.resetRegs p).ticks = s.ticks ∧
    (s.resetRegs p).resp = s.resp ∧
    (s.resetRegs p).mem = s.mem ∧
    (s.resetRegs p).ecc = s.ecc ∧
    (s.resetRegs p).prog = s.prog ∧
    (s.resetRegs p).storeSeed = s.storeSeed ∧
    (s.resetRegs p).engines = s.engines ∧
    (s.resetRegs p).outst = s.outst ∧
    (s.resetRegs p).errq = s.errq ∧
    (s.resetRegs p).errLatch = s.errLatch ∧
    (s.resetRegs p).lanes = s.lanes ∧
    (s.resetRegs p).loader = s.loader ∧
    (s.resetRegs p).host = s.host ∧
    (s.resetRegs p).vigil = s.vigil ∧
    (s.resetRegs p).tc = s.tc ∧
    (s.resetRegs p).mramQ = s.mramQ ∧
    (s.resetRegs p).mramStop = s.mramStop ∧
    (s.resetRegs p).cmdq = s.cmdq ∧
    (s.resetRegs p).rspq = s.rspq ∧
    (s.resetRegs p).irqReq = s.irqReq ∧
    (s.resetRegs p).ddrIssued = s.ddrIssued ∧
    (s.resetRegs p).plm = s.plm ∧
    (s.resetRegs p).fuses = s.fuses ∧
    (s.resetRegs p).ptc = s.ptc ∧
    (s.resetRegs p).ptcOrg = s.ptcOrg ∧
    (s.resetRegs p).ang = s.ang ∧
    (s.resetRegs p).lin = s.lin ∧
    (s.resetRegs p).mns = s.mns ∧
    (s.resetRegs p).latch = s.latch ∧
    (s.resetRegs p).calPend = s.calPend ∧
    (s.resetRegs p).handed = s.handed ∧
    (s.resetRegs p).carFlag = s.carFlag ∧
    (s.resetRegs p).ports = s.ports ∧
    (s.resetRegs p).camp = s.camp ∧
    (s.resetRegs p).star = s.star ∧
    (s.resetRegs p).sgmOrder = s.sgmOrder ∧
    (s.resetRegs p).cans = s.cans ∧
    (s.resetRegs p).seqs = s.seqs ∧
    (s.resetRegs p).gp = s.gp ∧
    (s.resetRegs p).bridge = s.bridge ∧
    (s.resetRegs p).cup = s.cup ∧
    (s.resetRegs p).die = s.die ∧
    (s.resetRegs p).sealw = s.sealw ∧
    (s.resetRegs p).boot = s.boot ∧
    (s.resetRegs p).jtag = s.jtag :=
  ⟨rfl, rfl, rfl, rfl, rfl, rfl, rfl, rfl, rfl, rfl, rfl, rfl, rfl, rfl, rfl, rfl, rfl, rfl, rfl, rfl, rfl, rfl, rfl, rfl, rfl, rfl, rfl, rfl, rfl, rfl, rfl, rfl, rfl, rfl, rfl, rfl, rfl, rfl, rfl, rfl, rfl, rfl, rfl, rfl, rfl, rfl, rfl⟩

@[simp] theorem State.setBankState_fields (s : State) (k v : Nat) :
    (s.setBankState k v).pending = s.pending ∧
    (s.setBankState k v).fresh = s.fresh ∧
    (s.setBankState k v).ticks = s.ticks ∧
    (s.setBankState k v).resp = s.resp ∧
    (s.setBankState k v).mem = s.mem ∧
    (s.setBankState k v).ecc = s.ecc ∧
    (s.setBankState k v).prog = s.prog ∧
    (s.setBankState k v).storeSeed = s.storeSeed ∧
    (s.setBankState k v).engines = s.engines ∧
    (s.setBankState k v).outst = s.outst ∧
    (s.setBankState k v).errq = s.errq ∧
    (s.setBankState k v).errLatch = s.errLatch ∧
    (s.setBankState k v).lanes = s.lanes ∧
    (s.setBankState k v).loader = s.loader ∧
    (s.setBankState k v).host = s.host ∧
    (s.setBankState k v).vigil = s.vigil ∧
    (s.setBankState k v).tc = s.tc ∧
    (s.setBankState k v).mramQ = s.mramQ ∧
    (s.setBankState k v).mramStop = s.mramStop ∧
    (s.setBankState k v).cmdq = s.cmdq ∧
    (s.setBankState k v).rspq = s.rspq ∧
    (s.setBankState k v).irqReq = s.irqReq ∧
    (s.setBankState k v).ddrIssued = s.ddrIssued ∧
    (s.setBankState k v).plm = s.plm ∧
    (s.setBankState k v).fuses = s.fuses ∧
    (s.setBankState k v).ptc = s.ptc ∧
    (s.setBankState k v).ptcOrg = s.ptcOrg ∧
    (s.setBankState k v).ang = s.ang ∧
    (s.setBankState k v).lin = s.lin ∧
    (s.setBankState k v).mns = s.mns ∧
    (s.setBankState k v).latch = s.latch ∧
    (s.setBankState k v).calPend = s.calPend ∧
    (s.setBankState k v).handed = s.handed ∧
    (s.setBankState k v).carFlag = s.carFlag ∧
    (s.setBankState k v).ports = s.ports ∧
    (s.setBankState k v).camp = s.camp ∧
    (s.setBankState k v).star = s.star ∧
    (s.setBankState k v).sgmOrder = s.sgmOrder ∧
    (s.setBankState k v).cans = s.cans ∧
    (s.setBankState k v).seqs = s.seqs ∧
    (s.setBankState k v).gp = s.gp ∧
    (s.setBankState k v).bridge = s.bridge ∧
    (s.setBankState k v).cup = s.cup ∧
    (s.setBankState k v).die = s.die ∧
    (s.setBankState k v).sealw = s.sealw ∧
    (s.setBankState k v).boot = s.boot ∧
    (s.setBankState k v).jtag = s.jtag :=
  ⟨rfl, rfl, rfl, rfl, rfl, rfl, rfl, rfl, rfl, rfl, rfl, rfl, rfl, rfl, rfl, rfl, rfl, rfl, rfl, rfl, rfl, rfl, rfl, rfl, rfl, rfl, rfl, rfl, rfl, rfl, rfl, rfl, rfl, rfl, rfl, rfl, rfl, rfl, rfl, rfl, rfl, rfl, rfl, rfl, rfl, rfl, rfl⟩

@[simp] theorem State.answer_fields (s : State) (r : Resp) :
    (s.answer r).pending = s.pending ∧
    (s.answer r).fresh = s.fresh ∧
    (s.answer r).ticks = s.ticks ∧
    (s.answer r).regs = s.regs ∧
    (s.answer r).mem = s.mem ∧
    (s.answer r).ecc = s.ecc ∧
    (s.answer r).prog = s.prog ∧
    (s.answer r).storeSeed = s.storeSeed ∧
    (s.answer r).engines = s.engines ∧
    (s.answer r).outst = s.outst ∧
    (s.answer r).errq = s.errq ∧
    (s.answer r).errLatch = s.errLatch ∧
    (s.answer r).lanes = s.lanes ∧
    (s.answer r).loader = s.loader ∧
    (s.answer r).host = s.host ∧
    (s.answer r).vigil = s.vigil ∧
    (s.answer r).tc = s.tc ∧
    (s.answer r).mramQ = s.mramQ ∧
    (s.answer r).mramStop = s.mramStop ∧
    (s.answer r).cmdq = s.cmdq ∧
    (s.answer r).rspq = s.rspq ∧
    (s.answer r).irqReq = s.irqReq ∧
    (s.answer r).ddrIssued = s.ddrIssued ∧
    (s.answer r).plm = s.plm ∧
    (s.answer r).fuses = s.fuses ∧
    (s.answer r).ptc = s.ptc ∧
    (s.answer r).ptcOrg = s.ptcOrg ∧
    (s.answer r).ang = s.ang ∧
    (s.answer r).lin = s.lin ∧
    (s.answer r).mns = s.mns ∧
    (s.answer r).latch = s.latch ∧
    (s.answer r).calPend = s.calPend ∧
    (s.answer r).handed = s.handed ∧
    (s.answer r).carFlag = s.carFlag ∧
    (s.answer r).ports = s.ports ∧
    (s.answer r).camp = s.camp ∧
    (s.answer r).star = s.star ∧
    (s.answer r).sgmOrder = s.sgmOrder ∧
    (s.answer r).cans = s.cans ∧
    (s.answer r).seqs = s.seqs ∧
    (s.answer r).gp = s.gp ∧
    (s.answer r).bridge = s.bridge ∧
    (s.answer r).cup = s.cup ∧
    (s.answer r).die = s.die ∧
    (s.answer r).sealw = s.sealw ∧
    (s.answer r).boot = s.boot ∧
    (s.answer r).jtag = s.jtag :=
  ⟨rfl, rfl, rfl, rfl, rfl, rfl, rfl, rfl, rfl, rfl, rfl, rfl, rfl, rfl, rfl, rfl, rfl, rfl, rfl, rfl, rfl, rfl, rfl, rfl, rfl, rfl, rfl, rfl, rfl, rfl, rfl, rfl, rfl, rfl, rfl, rfl, rfl, rfl, rfl, rfl, rfl, rfl, rfl, rfl, rfl, rfl, rfl⟩

@[simp] theorem State.answerWord_fields (s : State) (w : Word) :
    (s.answerWord w).pending = s.pending ∧
    (s.answerWord w).fresh = s.fresh ∧
    (s.answerWord w).ticks = s.ticks ∧
    (s.answerWord w).regs = s.regs ∧
    (s.answerWord w).mem = s.mem ∧
    (s.answerWord w).ecc = s.ecc ∧
    (s.answerWord w).prog = s.prog ∧
    (s.answerWord w).storeSeed = s.storeSeed ∧
    (s.answerWord w).engines = s.engines ∧
    (s.answerWord w).outst = s.outst ∧
    (s.answerWord w).errq = s.errq ∧
    (s.answerWord w).errLatch = s.errLatch ∧
    (s.answerWord w).lanes = s.lanes ∧
    (s.answerWord w).loader = s.loader ∧
    (s.answerWord w).host = s.host ∧
    (s.answerWord w).vigil = s.vigil ∧
    (s.answerWord w).tc = s.tc ∧
    (s.answerWord w).mramQ = s.mramQ ∧
    (s.answerWord w).mramStop = s.mramStop ∧
    (s.answerWord w).cmdq = s.cmdq ∧
    (s.answerWord w).rspq = s.rspq ∧
    (s.answerWord w).irqReq = s.irqReq ∧
    (s.answerWord w).ddrIssued = s.ddrIssued ∧
    (s.answerWord w).plm = s.plm ∧
    (s.answerWord w).fuses = s.fuses ∧
    (s.answerWord w).ptc = s.ptc ∧
    (s.answerWord w).ptcOrg = s.ptcOrg ∧
    (s.answerWord w).ang = s.ang ∧
    (s.answerWord w).lin = s.lin ∧
    (s.answerWord w).mns = s.mns ∧
    (s.answerWord w).latch = s.latch ∧
    (s.answerWord w).calPend = s.calPend ∧
    (s.answerWord w).handed = s.handed ∧
    (s.answerWord w).carFlag = s.carFlag ∧
    (s.answerWord w).ports = s.ports ∧
    (s.answerWord w).camp = s.camp ∧
    (s.answerWord w).star = s.star ∧
    (s.answerWord w).sgmOrder = s.sgmOrder ∧
    (s.answerWord w).cans = s.cans ∧
    (s.answerWord w).seqs = s.seqs ∧
    (s.answerWord w).gp = s.gp ∧
    (s.answerWord w).bridge = s.bridge ∧
    (s.answerWord w).cup = s.cup ∧
    (s.answerWord w).die = s.die ∧
    (s.answerWord w).sealw = s.sealw ∧
    (s.answerWord w).boot = s.boot ∧
    (s.answerWord w).jtag = s.jtag :=
  ⟨rfl, rfl, rfl, rfl, rfl, rfl, rfl, rfl, rfl, rfl, rfl, rfl, rfl, rfl, rfl, rfl, rfl, rfl, rfl, rfl, rfl, rfl, rfl, rfl, rfl, rfl, rfl, rfl, rfl, rfl, rfl, rfl, rfl, rfl, rfl, rfl, rfl, rfl, rfl, rfl, rfl, rfl, rfl, rfl, rfl, rfl, rfl⟩

@[simp] theorem State.setByte_fields (s : State) (a : Nat) (b : Byte) :
    (s.setByte a b).pending = s.pending ∧
    (s.setByte a b).fresh = s.fresh ∧
    (s.setByte a b).ticks = s.ticks ∧
    (s.setByte a b).resp = s.resp ∧
    (s.setByte a b).regs = s.regs ∧
    (s.setByte a b).ecc = s.ecc ∧
    (s.setByte a b).prog = s.prog ∧
    (s.setByte a b).storeSeed = s.storeSeed ∧
    (s.setByte a b).engines = s.engines ∧
    (s.setByte a b).outst = s.outst ∧
    (s.setByte a b).errq = s.errq ∧
    (s.setByte a b).errLatch = s.errLatch ∧
    (s.setByte a b).lanes = s.lanes ∧
    (s.setByte a b).loader = s.loader ∧
    (s.setByte a b).host = s.host ∧
    (s.setByte a b).vigil = s.vigil ∧
    (s.setByte a b).tc = s.tc ∧
    (s.setByte a b).mramQ = s.mramQ ∧
    (s.setByte a b).mramStop = s.mramStop ∧
    (s.setByte a b).cmdq = s.cmdq ∧
    (s.setByte a b).rspq = s.rspq ∧
    (s.setByte a b).irqReq = s.irqReq ∧
    (s.setByte a b).ddrIssued = s.ddrIssued ∧
    (s.setByte a b).plm = s.plm ∧
    (s.setByte a b).fuses = s.fuses ∧
    (s.setByte a b).ptc = s.ptc ∧
    (s.setByte a b).ptcOrg = s.ptcOrg ∧
    (s.setByte a b).ang = s.ang ∧
    (s.setByte a b).lin = s.lin ∧
    (s.setByte a b).mns = s.mns ∧
    (s.setByte a b).latch = s.latch ∧
    (s.setByte a b).calPend = s.calPend ∧
    (s.setByte a b).handed = s.handed ∧
    (s.setByte a b).carFlag = s.carFlag ∧
    (s.setByte a b).ports = s.ports ∧
    (s.setByte a b).camp = s.camp ∧
    (s.setByte a b).star = s.star ∧
    (s.setByte a b).sgmOrder = s.sgmOrder ∧
    (s.setByte a b).cans = s.cans ∧
    (s.setByte a b).seqs = s.seqs ∧
    (s.setByte a b).gp = s.gp ∧
    (s.setByte a b).bridge = s.bridge ∧
    (s.setByte a b).cup = s.cup ∧
    (s.setByte a b).die = s.die ∧
    (s.setByte a b).sealw = s.sealw ∧
    (s.setByte a b).boot = s.boot ∧
    (s.setByte a b).jtag = s.jtag :=
  ⟨rfl, rfl, rfl, rfl, rfl, rfl, rfl, rfl, rfl, rfl, rfl, rfl, rfl, rfl, rfl, rfl, rfl, rfl, rfl, rfl, rfl, rfl, rfl, rfl, rfl, rfl, rfl, rfl, rfl, rfl, rfl, rfl, rfl, rfl, rfl, rfl, rfl, rfl, rfl, rfl, rfl, rfl, rfl, rfl, rfl, rfl, rfl⟩

@[simp] theorem State.setEng_fields (s : State) (e : Nat) (x : Engine) :
    (s.setEng e x).pending = s.pending ∧
    (s.setEng e x).fresh = s.fresh ∧
    (s.setEng e x).ticks = s.ticks ∧
    (s.setEng e x).resp = s.resp ∧
    (s.setEng e x).regs = s.regs ∧
    (s.setEng e x).mem = s.mem ∧
    (s.setEng e x).ecc = s.ecc ∧
    (s.setEng e x).prog = s.prog ∧
    (s.setEng e x).storeSeed = s.storeSeed ∧
    (s.setEng e x).outst = s.outst ∧
    (s.setEng e x).errq = s.errq ∧
    (s.setEng e x).errLatch = s.errLatch ∧
    (s.setEng e x).lanes = s.lanes ∧
    (s.setEng e x).loader = s.loader ∧
    (s.setEng e x).host = s.host ∧
    (s.setEng e x).vigil = s.vigil ∧
    (s.setEng e x).tc = s.tc ∧
    (s.setEng e x).mramQ = s.mramQ ∧
    (s.setEng e x).mramStop = s.mramStop ∧
    (s.setEng e x).cmdq = s.cmdq ∧
    (s.setEng e x).rspq = s.rspq ∧
    (s.setEng e x).irqReq = s.irqReq ∧
    (s.setEng e x).ddrIssued = s.ddrIssued ∧
    (s.setEng e x).plm = s.plm ∧
    (s.setEng e x).fuses = s.fuses ∧
    (s.setEng e x).ptc = s.ptc ∧
    (s.setEng e x).ptcOrg = s.ptcOrg ∧
    (s.setEng e x).ang = s.ang ∧
    (s.setEng e x).lin = s.lin ∧
    (s.setEng e x).mns = s.mns ∧
    (s.setEng e x).latch = s.latch ∧
    (s.setEng e x).calPend = s.calPend ∧
    (s.setEng e x).handed = s.handed ∧
    (s.setEng e x).carFlag = s.carFlag ∧
    (s.setEng e x).ports = s.ports ∧
    (s.setEng e x).camp = s.camp ∧
    (s.setEng e x).star = s.star ∧
    (s.setEng e x).sgmOrder = s.sgmOrder ∧
    (s.setEng e x).cans = s.cans ∧
    (s.setEng e x).seqs = s.seqs ∧
    (s.setEng e x).gp = s.gp ∧
    (s.setEng e x).bridge = s.bridge ∧
    (s.setEng e x).cup = s.cup ∧
    (s.setEng e x).die = s.die ∧
    (s.setEng e x).sealw = s.sealw ∧
    (s.setEng e x).boot = s.boot ∧
    (s.setEng e x).jtag = s.jtag :=
  ⟨rfl, rfl, rfl, rfl, rfl, rfl, rfl, rfl, rfl, rfl, rfl, rfl, rfl, rfl, rfl, rfl, rfl, rfl, rfl, rfl, rfl, rfl, rfl, rfl, rfl, rfl, rfl, rfl, rfl, rfl, rfl, rfl, rfl, rfl, rfl, rfl, rfl, rfl, rfl, rfl, rfl, rfl, rfl, rfl, rfl, rfl, rfl⟩

@[simp] theorem State.updEng_fields (s : State) (e : Nat) (f : Engine → Engine) :
    (s.updEng e f).pending = s.pending ∧
    (s.updEng e f).fresh = s.fresh ∧
    (s.updEng e f).ticks = s.ticks ∧
    (s.updEng e f).resp = s.resp ∧
    (s.updEng e f).regs = s.regs ∧
    (s.updEng e f).mem = s.mem ∧
    (s.updEng e f).ecc = s.ecc ∧
    (s.updEng e f).prog = s.prog ∧
    (s.updEng e f).storeSeed = s.storeSeed ∧
    (s.updEng e f).outst = s.outst ∧
    (s.updEng e f).errq = s.errq ∧
    (s.updEng e f).errLatch = s.errLatch ∧
    (s.updEng e f).lanes = s.lanes ∧
    (s.updEng e f).loader = s.loader ∧
    (s.updEng e f).host = s.host ∧
    (s.updEng e f).vigil = s.vigil ∧
    (s.updEng e f).tc = s.tc ∧
    (s.updEng e f).mramQ = s.mramQ ∧
    (s.updEng e f).mramStop = s.mramStop ∧
    (s.updEng e f).cmdq = s.cmdq ∧
    (s.updEng e f).rspq = s.rspq ∧
    (s.updEng e f).irqReq = s.irqReq ∧
    (s.updEng e f).ddrIssued = s.ddrIssued ∧
    (s.updEng e f).plm = s.plm ∧
    (s.updEng e f).fuses = s.fuses ∧
    (s.updEng e f).ptc = s.ptc ∧
    (s.updEng e f).ptcOrg = s.ptcOrg ∧
    (s.updEng e f).ang = s.ang ∧
    (s.updEng e f).lin = s.lin ∧
    (s.updEng e f).mns = s.mns ∧
    (s.updEng e f).latch = s.latch ∧
    (s.updEng e f).calPend = s.calPend ∧
    (s.updEng e f).handed = s.handed ∧
    (s.updEng e f).carFlag = s.carFlag ∧
    (s.updEng e f).ports = s.ports ∧
    (s.updEng e f).camp = s.camp ∧
    (s.updEng e f).star = s.star ∧
    (s.updEng e f).sgmOrder = s.sgmOrder ∧
    (s.updEng e f).cans = s.cans ∧
    (s.updEng e f).seqs = s.seqs ∧
    (s.updEng e f).gp = s.gp ∧
    (s.updEng e f).bridge = s.bridge ∧
    (s.updEng e f).cup = s.cup ∧
    (s.updEng e f).die = s.die ∧
    (s.updEng e f).sealw = s.sealw ∧
    (s.updEng e f).boot = s.boot ∧
    (s.updEng e f).jtag = s.jtag :=
  ⟨rfl, rfl, rfl, rfl, rfl, rfl, rfl, rfl, rfl, rfl, rfl, rfl, rfl, rfl, rfl, rfl, rfl, rfl, rfl, rfl, rfl, rfl, rfl, rfl, rfl, rfl, rfl, rfl, rfl, rfl, rfl, rfl, rfl, rfl, rfl, rfl, rfl, rfl, rfl, rfl, rfl, rfl, rfl, rfl, rfl, rfl, rfl⟩

@[simp] theorem State.setD_fields (s : State) (e : Nat) (d : Fin 8) (w : Word) :
    (s.setD e d w).pending = s.pending ∧
    (s.setD e d w).fresh = s.fresh ∧
    (s.setD e d w).ticks = s.ticks ∧
    (s.setD e d w).resp = s.resp ∧
    (s.setD e d w).regs = s.regs ∧
    (s.setD e d w).mem = s.mem ∧
    (s.setD e d w).ecc = s.ecc ∧
    (s.setD e d w).prog = s.prog ∧
    (s.setD e d w).storeSeed = s.storeSeed ∧
    (s.setD e d w).outst = s.outst ∧
    (s.setD e d w).errq = s.errq ∧
    (s.setD e d w).errLatch = s.errLatch ∧
    (s.setD e d w).lanes = s.lanes ∧
    (s.setD e d w).loader = s.loader ∧
    (s.setD e d w).host = s.host ∧
    (s.setD e d w).vigil = s.vigil ∧
    (s.setD e d w).tc = s.tc ∧
    (s.setD e d w).mramQ = s.mramQ ∧
    (s.setD e d w).mramStop = s.mramStop ∧
    (s.setD e d w).cmdq = s.cmdq ∧
    (s.setD e d w).rspq = s.rspq ∧
    (s.setD e d w).irqReq = s.irqReq ∧
    (s.setD e d w).ddrIssued = s.ddrIssued ∧
    (s.setD e d w).plm = s.plm ∧
    (s.setD e d w).fuses = s.fuses ∧
    (s.setD e d w).ptc = s.ptc ∧
    (s.setD e d w).ptcOrg = s.ptcOrg ∧
    (s.setD e d w).ang = s.ang ∧
    (s.setD e d w).lin = s.lin ∧
    (s.setD e d w).mns = s.mns ∧
    (s.setD e d w).latch = s.latch ∧
    (s.setD e d w).calPend = s.calPend ∧
    (s.setD e d w).handed = s.handed ∧
    (s.setD e d w).carFlag = s.carFlag ∧
    (s.setD e d w).ports = s.ports ∧
    (s.setD e d w).camp = s.camp ∧
    (s.setD e d w).star = s.star ∧
    (s.setD e d w).sgmOrder = s.sgmOrder ∧
    (s.setD e d w).cans = s.cans ∧
    (s.setD e d w).seqs = s.seqs ∧
    (s.setD e d w).gp = s.gp ∧
    (s.setD e d w).bridge = s.bridge ∧
    (s.setD e d w).cup = s.cup ∧
    (s.setD e d w).die = s.die ∧
    (s.setD e d w).sealw = s.sealw ∧
    (s.setD e d w).boot = s.boot ∧
    (s.setD e d w).jtag = s.jtag :=
  ⟨rfl, rfl, rfl, rfl, rfl, rfl, rfl, rfl, rfl, rfl, rfl, rfl, rfl, rfl, rfl, rfl, rfl, rfl, rfl, rfl, rfl, rfl, rfl, rfl, rfl, rfl, rfl, rfl, rfl, rfl, rfl, rfl, rfl, rfl, rfl, rfl, rfl, rfl, rfl, rfl, rfl, rfl, rfl, rfl, rfl, rfl, rfl⟩

@[simp] theorem State.setA_fields (s : State) (e : Nat) (d : Fin 8) (w : Word) :
    (s.setA e d w).pending = s.pending ∧
    (s.setA e d w).fresh = s.fresh ∧
    (s.setA e d w).ticks = s.ticks ∧
    (s.setA e d w).resp = s.resp ∧
    (s.setA e d w).regs = s.regs ∧
    (s.setA e d w).mem = s.mem ∧
    (s.setA e d w).ecc = s.ecc ∧
    (s.setA e d w).prog = s.prog ∧
    (s.setA e d w).storeSeed = s.storeSeed ∧
    (s.setA e d w).outst = s.outst ∧
    (s.setA e d w).errq = s.errq ∧
    (s.setA e d w).errLatch = s.errLatch ∧
    (s.setA e d w).lanes = s.lanes ∧
    (s.setA e d w).loader = s.loader ∧
    (s.setA e d w).host = s.host ∧
    (s.setA e d w).vigil = s.vigil ∧
    (s.setA e d w).tc = s.tc ∧
    (s.setA e d w).mramQ = s.mramQ ∧
    (s.setA e d w).mramStop = s.mramStop ∧
    (s.setA e d w).cmdq = s.cmdq ∧
    (s.setA e d w).rspq = s.rspq ∧
    (s.setA e d w).irqReq = s.irqReq ∧
    (s.setA e d w).ddrIssued = s.ddrIssued ∧
    (s.setA e d w).plm = s.plm ∧
    (s.setA e d w).fuses = s.fuses ∧
    (s.setA e d w).ptc = s.ptc ∧
    (s.setA e d w).ptcOrg = s.ptcOrg ∧
    (s.setA e d w).ang = s.ang ∧
    (s.setA e d w).lin = s.lin ∧
    (s.setA e d w).mns = s.mns ∧
    (s.setA e d w).latch = s.latch ∧
    (s.setA e d w).calPend = s.calPend ∧
    (s.setA e d w).handed = s.handed ∧
    (s.setA e d w).carFlag = s.carFlag ∧
    (s.setA e d w).ports = s.ports ∧
    (s.setA e d w).camp = s.camp ∧
    (s.setA e d w).star = s.star ∧
    (s.setA e d w).sgmOrder = s.sgmOrder ∧
    (s.setA e d w).cans = s.cans ∧
    (s.setA e d w).seqs = s.seqs ∧
    (s.setA e d w).gp = s.gp ∧
    (s.setA e d w).bridge = s.bridge ∧
    (s.setA e d w).cup = s.cup ∧
    (s.setA e d w).die = s.die ∧
    (s.setA e d w).sealw = s.sealw ∧
    (s.setA e d w).boot = s.boot ∧
    (s.setA e d w).jtag = s.jtag :=
  ⟨rfl, rfl, rfl, rfl, rfl, rfl, rfl, rfl, rfl, rfl, rfl, rfl, rfl, rfl, rfl, rfl, rfl, rfl, rfl, rfl, rfl, rfl, rfl, rfl, rfl, rfl, rfl, rfl, rfl, rfl, rfl, rfl, rfl, rfl, rfl, rfl, rfl, rfl, rfl, rfl, rfl, rfl, rfl, rfl, rfl, rfl, rfl⟩

@[simp] theorem State.setAcc_fields (s : State) (e : Nat) (n : Fin 4) (w : Acc) :
    (s.setAcc e n w).pending = s.pending ∧
    (s.setAcc e n w).fresh = s.fresh ∧
    (s.setAcc e n w).ticks = s.ticks ∧
    (s.setAcc e n w).resp = s.resp ∧
    (s.setAcc e n w).regs = s.regs ∧
    (s.setAcc e n w).mem = s.mem ∧
    (s.setAcc e n w).ecc = s.ecc ∧
    (s.setAcc e n w).prog = s.prog ∧
    (s.setAcc e n w).storeSeed = s.storeSeed ∧
    (s.setAcc e n w).outst = s.outst ∧
    (s.setAcc e n w).errq = s.errq ∧
    (s.setAcc e n w).errLatch = s.errLatch ∧
    (s.setAcc e n w).lanes = s.lanes ∧
    (s.setAcc e n w).loader = s.loader ∧
    (s.setAcc e n w).host = s.host ∧
    (s.setAcc e n w).vigil = s.vigil ∧
    (s.setAcc e n w).tc = s.tc ∧
    (s.setAcc e n w).mramQ = s.mramQ ∧
    (s.setAcc e n w).mramStop = s.mramStop ∧
    (s.setAcc e n w).cmdq = s.cmdq ∧
    (s.setAcc e n w).rspq = s.rspq ∧
    (s.setAcc e n w).irqReq = s.irqReq ∧
    (s.setAcc e n w).ddrIssued = s.ddrIssued ∧
    (s.setAcc e n w).plm = s.plm ∧
    (s.setAcc e n w).fuses = s.fuses ∧
    (s.setAcc e n w).ptc = s.ptc ∧
    (s.setAcc e n w).ptcOrg = s.ptcOrg ∧
    (s.setAcc e n w).ang = s.ang ∧
    (s.setAcc e n w).lin = s.lin ∧
    (s.setAcc e n w).mns = s.mns ∧
    (s.setAcc e n w).latch = s.latch ∧
    (s.setAcc e n w).calPend = s.calPend ∧
    (s.setAcc e n w).handed = s.handed ∧
    (s.setAcc e n w).carFlag = s.carFlag ∧
    (s.setAcc e n w).ports = s.ports ∧
    (s.setAcc e n w).camp = s.camp ∧
    (s.setAcc e n w).star = s.star ∧
    (s.setAcc e n w).sgmOrder = s.sgmOrder ∧
    (s.setAcc e n w).cans = s.cans ∧
    (s.setAcc e n w).seqs = s.seqs ∧
    (s.setAcc e n w).gp = s.gp ∧
    (s.setAcc e n w).bridge = s.bridge ∧
    (s.setAcc e n w).cup = s.cup ∧
    (s.setAcc e n w).die = s.die ∧
    (s.setAcc e n w).sealw = s.sealw ∧
    (s.setAcc e n w).boot = s.boot ∧
    (s.setAcc e n w).jtag = s.jtag :=
  ⟨rfl, rfl, rfl, rfl, rfl, rfl, rfl, rfl, rfl, rfl, rfl, rfl, rfl, rfl, rfl, rfl, rfl, rfl, rfl, rfl, rfl, rfl, rfl, rfl, rfl, rfl, rfl, rfl, rfl, rfl, rfl, rfl, rfl, rfl, rfl, rfl, rfl, rfl, rfl, rfl, rfl, rfl, rfl, rfl, rfl, rfl, rfl⟩

@[simp] theorem State.setPsw_fields (s : State) (e : Nat) (p : Word) :
    (s.setPsw e p).pending = s.pending ∧
    (s.setPsw e p).fresh = s.fresh ∧
    (s.setPsw e p).ticks = s.ticks ∧
    (s.setPsw e p).resp = s.resp ∧
    (s.setPsw e p).regs = s.regs ∧
    (s.setPsw e p).mem = s.mem ∧
    (s.setPsw e p).ecc = s.ecc ∧
    (s.setPsw e p).prog = s.prog ∧
    (s.setPsw e p).storeSeed = s.storeSeed ∧
    (s.setPsw e p).outst = s.outst ∧
    (s.setPsw e p).errq = s.errq ∧
    (s.setPsw e p).errLatch = s.errLatch ∧
    (s.setPsw e p).lanes = s.lanes ∧
    (s.setPsw e p).loader = s.loader ∧
    (s.setPsw e p).host = s.host ∧
    (s.setPsw e p).vigil = s.vigil ∧
    (s.setPsw e p).tc = s.tc ∧
    (s.setPsw e p).mramQ = s.mramQ ∧
    (s.setPsw e p).mramStop = s.mramStop ∧
    (s.setPsw e p).cmdq = s.cmdq ∧
    (s.setPsw e p).rspq = s.rspq ∧
    (s.setPsw e p).irqReq = s.irqReq ∧
    (s.setPsw e p).ddrIssued = s.ddrIssued ∧
    (s.setPsw e p).plm = s.plm ∧
    (s.setPsw e p).fuses = s.fuses ∧
    (s.setPsw e p).ptc = s.ptc ∧
    (s.setPsw e p).ptcOrg = s.ptcOrg ∧
    (s.setPsw e p).ang = s.ang ∧
    (s.setPsw e p).lin = s.lin ∧
    (s.setPsw e p).mns = s.mns ∧
    (s.setPsw e p).latch = s.latch ∧
    (s.setPsw e p).calPend = s.calPend ∧
    (s.setPsw e p).handed = s.handed ∧
    (s.setPsw e p).carFlag = s.carFlag ∧
    (s.setPsw e p).ports = s.ports ∧
    (s.setPsw e p).camp = s.camp ∧
    (s.setPsw e p).star = s.star ∧
    (s.setPsw e p).sgmOrder = s.sgmOrder ∧
    (s.setPsw e p).cans = s.cans ∧
    (s.setPsw e p).seqs = s.seqs ∧
    (s.setPsw e p).gp = s.gp ∧
    (s.setPsw e p).bridge = s.bridge ∧
    (s.setPsw e p).cup = s.cup ∧
    (s.setPsw e p).die = s.die ∧
    (s.setPsw e p).sealw = s.sealw ∧
    (s.setPsw e p).boot = s.boot ∧
    (s.setPsw e p).jtag = s.jtag :=
  ⟨rfl, rfl, rfl, rfl, rfl, rfl, rfl, rfl, rfl, rfl, rfl, rfl, rfl, rfl, rfl, rfl, rfl, rfl, rfl, rfl, rfl, rfl, rfl, rfl, rfl, rfl, rfl, rfl, rfl, rfl, rfl, rfl, rfl, rfl, rfl, rfl, rfl, rfl, rfl, rfl, rfl, rfl, rfl, rfl, rfl, rfl, rfl⟩

@[simp] theorem State.finish_fields (s : State) (e n : Nat) :
    (s.finish e n).pending = s.pending ∧
    (s.finish e n).fresh = s.fresh ∧
    (s.finish e n).ticks = s.ticks ∧
    (s.finish e n).resp = s.resp ∧
    (s.finish e n).regs = s.regs ∧
    (s.finish e n).mem = s.mem ∧
    (s.finish e n).ecc = s.ecc ∧
    (s.finish e n).prog = s.prog ∧
    (s.finish e n).storeSeed = s.storeSeed ∧
    (s.finish e n).outst = s.outst ∧
    (s.finish e n).errq = s.errq ∧
    (s.finish e n).errLatch = s.errLatch ∧
    (s.finish e n).lanes = s.lanes ∧
    (s.finish e n).loader = s.loader ∧
    (s.finish e n).host = s.host ∧
    (s.finish e n).vigil = s.vigil ∧
    (s.finish e n).tc = s.tc ∧
    (s.finish e n).mramQ = s.mramQ ∧
    (s.finish e n).mramStop = s.mramStop ∧
    (s.finish e n).cmdq = s.cmdq ∧
    (s.finish e n).rspq = s.rspq ∧
    (s.finish e n).irqReq = s.irqReq ∧
    (s.finish e n).ddrIssued = s.ddrIssued ∧
    (s.finish e n).plm = s.plm ∧
    (s.finish e n).fuses = s.fuses ∧
    (s.finish e n).ptc = s.ptc ∧
    (s.finish e n).ptcOrg = s.ptcOrg ∧
    (s.finish e n).ang = s.ang ∧
    (s.finish e n).lin = s.lin ∧
    (s.finish e n).mns = s.mns ∧
    (s.finish e n).latch = s.latch ∧
    (s.finish e n).calPend = s.calPend ∧
    (s.finish e n).handed = s.handed ∧
    (s.finish e n).carFlag = s.carFlag ∧
    (s.finish e n).ports = s.ports ∧
    (s.finish e n).camp = s.camp ∧
    (s.finish e n).star = s.star ∧
    (s.finish e n).sgmOrder = s.sgmOrder ∧
    (s.finish e n).cans = s.cans ∧
    (s.finish e n).seqs = s.seqs ∧
    (s.finish e n).gp = s.gp ∧
    (s.finish e n).bridge = s.bridge ∧
    (s.finish e n).cup = s.cup ∧
    (s.finish e n).die = s.die ∧
    (s.finish e n).sealw = s.sealw ∧
    (s.finish e n).boot = s.boot ∧
    (s.finish e n).jtag = s.jtag :=
  ⟨rfl, rfl, rfl, rfl, rfl, rfl, rfl, rfl, rfl, rfl, rfl, rfl, rfl, rfl, rfl, rfl, rfl, rfl, rfl, rfl, rfl, rfl, rfl, rfl, rfl, rfl, rfl, rfl, rfl, rfl, rfl, rfl, rfl, rfl, rfl, rfl, rfl, rfl, rfl, rfl, rfl, rfl, rfl, rfl, rfl, rfl, rfl⟩

@[simp] theorem State.jump_fields (s : State) (e : Nat) (p : PWord) :
    (s.jump e p).pending = s.pending ∧
    (s.jump e p).fresh = s.fresh ∧
    (s.jump e p).ticks = s.ticks ∧
    (s.jump e p).resp = s.resp ∧
    (s.jump e p).regs = s.regs ∧
    (s.jump e p).mem = s.mem ∧
    (s.jump e p).ecc = s.ecc ∧
    (s.jump e p).prog = s.prog ∧
    (s.jump e p).storeSeed = s.storeSeed ∧
    (s.jump e p).outst = s.outst ∧
    (s.jump e p).errq = s.errq ∧
    (s.jump e p).errLatch = s.errLatch ∧
    (s.jump e p).lanes = s.lanes ∧
    (s.jump e p).loader = s.loader ∧
    (s.jump e p).host = s.host ∧
    (s.jump e p).vigil = s.vigil ∧
    (s.jump e p).tc = s.tc ∧
    (s.jump e p).mramQ = s.mramQ ∧
    (s.jump e p).mramStop = s.mramStop ∧
    (s.jump e p).cmdq = s.cmdq ∧
    (s.jump e p).rspq = s.rspq ∧
    (s.jump e p).irqReq = s.irqReq ∧
    (s.jump e p).ddrIssued = s.ddrIssued ∧
    (s.jump e p).plm = s.plm ∧
    (s.jump e p).fuses = s.fuses ∧
    (s.jump e p).ptc = s.ptc ∧
    (s.jump e p).ptcOrg = s.ptcOrg ∧
    (s.jump e p).ang = s.ang ∧
    (s.jump e p).lin = s.lin ∧
    (s.jump e p).mns = s.mns ∧
    (s.jump e p).latch = s.latch ∧
    (s.jump e p).calPend = s.calPend ∧
    (s.jump e p).handed = s.handed ∧
    (s.jump e p).carFlag = s.carFlag ∧
    (s.jump e p).ports = s.ports ∧
    (s.jump e p).camp = s.camp ∧
    (s.jump e p).star = s.star ∧
    (s.jump e p).sgmOrder = s.sgmOrder ∧
    (s.jump e p).cans = s.cans ∧
    (s.jump e p).seqs = s.seqs ∧
    (s.jump e p).gp = s.gp ∧
    (s.jump e p).bridge = s.bridge ∧
    (s.jump e p).cup = s.cup ∧
    (s.jump e p).die = s.die ∧
    (s.jump e p).sealw = s.sealw ∧
    (s.jump e p).boot = s.boot ∧
    (s.jump e p).jtag = s.jtag :=
  ⟨rfl, rfl, rfl, rfl, rfl, rfl, rfl, rfl, rfl, rfl, rfl, rfl, rfl, rfl, rfl, rfl, rfl, rfl, rfl, rfl, rfl, rfl, rfl, rfl, rfl, rfl, rfl, rfl, rfl, rfl, rfl, rfl, rfl, rfl, rfl, rfl, rfl, rfl, rfl, rfl, rfl, rfl, rfl, rfl, rfl, rfl, rfl⟩

@[simp] theorem State.setProgWord_fields (s : State) (e w : Nat) (v : PWord) :
    (s.setProgWord e w v).pending = s.pending ∧
    (s.setProgWord e w v).fresh = s.fresh ∧
    (s.setProgWord e w v).ticks = s.ticks ∧
    (s.setProgWord e w v).resp = s.resp ∧
    (s.setProgWord e w v).regs = s.regs ∧
    (s.setProgWord e w v).mem = s.mem ∧
    (s.setProgWord e w v).ecc = s.ecc ∧
    (s.setProgWord e w v).storeSeed = s.storeSeed ∧
    (s.setProgWord e w v).engines = s.engines ∧
    (s.setProgWord e w v).outst = s.outst ∧
    (s.setProgWord e w v).errq = s.errq ∧
    (s.setProgWord e w v).errLatch = s.errLatch ∧
    (s.setProgWord e w v).lanes = s.lanes ∧
    (s.setProgWord e w v).loader = s.loader ∧
    (s.setProgWord e w v).host = s.host ∧
    (s.setProgWord e w v).vigil = s.vigil ∧
    (s.setProgWord e w v).tc = s.tc ∧
    (s.setProgWord e w v).mramQ = s.mramQ ∧
    (s.setProgWord e w v).mramStop = s.mramStop ∧
    (s.setProgWord e w v).cmdq = s.cmdq ∧
    (s.setProgWord e w v).rspq = s.rspq ∧
    (s.setProgWord e w v).irqReq = s.irqReq ∧
    (s.setProgWord e w v).ddrIssued = s.ddrIssued ∧
    (s.setProgWord e w v).plm = s.plm ∧
    (s.setProgWord e w v).fuses = s.fuses ∧
    (s.setProgWord e w v).ptc = s.ptc ∧
    (s.setProgWord e w v).ptcOrg = s.ptcOrg ∧
    (s.setProgWord e w v).ang = s.ang ∧
    (s.setProgWord e w v).lin = s.lin ∧
    (s.setProgWord e w v).mns = s.mns ∧
    (s.setProgWord e w v).latch = s.latch ∧
    (s.setProgWord e w v).calPend = s.calPend ∧
    (s.setProgWord e w v).handed = s.handed ∧
    (s.setProgWord e w v).carFlag = s.carFlag ∧
    (s.setProgWord e w v).ports = s.ports ∧
    (s.setProgWord e w v).camp = s.camp ∧
    (s.setProgWord e w v).star = s.star ∧
    (s.setProgWord e w v).sgmOrder = s.sgmOrder ∧
    (s.setProgWord e w v).cans = s.cans ∧
    (s.setProgWord e w v).seqs = s.seqs ∧
    (s.setProgWord e w v).gp = s.gp ∧
    (s.setProgWord e w v).bridge = s.bridge ∧
    (s.setProgWord e w v).cup = s.cup ∧
    (s.setProgWord e w v).die = s.die ∧
    (s.setProgWord e w v).sealw = s.sealw ∧
    (s.setProgWord e w v).boot = s.boot ∧
    (s.setProgWord e w v).jtag = s.jtag :=
  ⟨rfl, rfl, rfl, rfl, rfl, rfl, rfl, rfl, rfl, rfl, rfl, rfl, rfl, rfl, rfl, rfl, rfl, rfl, rfl, rfl, rfl, rfl, rfl, rfl, rfl, rfl, rfl, rfl, rfl, rfl, rfl, rfl, rfl, rfl, rfl, rfl, rfl, rfl, rfl, rfl, rfl, rfl, rfl, rfl, rfl, rfl, rfl⟩

@[simp] theorem State.updLane_fields (s : State) (l : Nat) (f : Lane → Lane) :
    (s.updLane l f).pending = s.pending ∧
    (s.updLane l f).fresh = s.fresh ∧
    (s.updLane l f).ticks = s.ticks ∧
    (s.updLane l f).resp = s.resp ∧
    (s.updLane l f).regs = s.regs ∧
    (s.updLane l f).mem = s.mem ∧
    (s.updLane l f).ecc = s.ecc ∧
    (s.updLane l f).prog = s.prog ∧
    (s.updLane l f).storeSeed = s.storeSeed ∧
    (s.updLane l f).engines = s.engines ∧
    (s.updLane l f).outst = s.outst ∧
    (s.updLane l f).errq = s.errq ∧
    (s.updLane l f).errLatch = s.errLatch ∧
    (s.updLane l f).loader = s.loader ∧
    (s.updLane l f).host = s.host ∧
    (s.updLane l f).vigil = s.vigil ∧
    (s.updLane l f).tc = s.tc ∧
    (s.updLane l f).mramQ = s.mramQ ∧
    (s.updLane l f).mramStop = s.mramStop ∧
    (s.updLane l f).cmdq = s.cmdq ∧
    (s.updLane l f).rspq = s.rspq ∧
    (s.updLane l f).irqReq = s.irqReq ∧
    (s.updLane l f).ddrIssued = s.ddrIssued ∧
    (s.updLane l f).plm = s.plm ∧
    (s.updLane l f).fuses = s.fuses ∧
    (s.updLane l f).ptc = s.ptc ∧
    (s.updLane l f).ptcOrg = s.ptcOrg ∧
    (s.updLane l f).ang = s.ang ∧
    (s.updLane l f).lin = s.lin ∧
    (s.updLane l f).mns = s.mns ∧
    (s.updLane l f).latch = s.latch ∧
    (s.updLane l f).calPend = s.calPend ∧
    (s.updLane l f).handed = s.handed ∧
    (s.updLane l f).carFlag = s.carFlag ∧
    (s.updLane l f).ports = s.ports ∧
    (s.updLane l f).camp = s.camp ∧
    (s.updLane l f).star = s.star ∧
    (s.updLane l f).sgmOrder = s.sgmOrder ∧
    (s.updLane l f).cans = s.cans ∧
    (s.updLane l f).seqs = s.seqs ∧
    (s.updLane l f).gp = s.gp ∧
    (s.updLane l f).bridge = s.bridge ∧
    (s.updLane l f).cup = s.cup ∧
    (s.updLane l f).die = s.die ∧
    (s.updLane l f).sealw = s.sealw ∧
    (s.updLane l f).boot = s.boot ∧
    (s.updLane l f).jtag = s.jtag :=
  ⟨rfl, rfl, rfl, rfl, rfl, rfl, rfl, rfl, rfl, rfl, rfl, rfl, rfl, rfl, rfl, rfl, rfl, rfl, rfl, rfl, rfl, rfl, rfl, rfl, rfl, rfl, rfl, rfl, rfl, rfl, rfl, rfl, rfl, rfl, rfl, rfl, rfl, rfl, rfl, rfl, rfl, rfl, rfl, rfl, rfl, rfl, rfl⟩

@[simp] theorem State.setMark_fields (s : State) (g : Nat) (m : Option EccMark) :
    (s.setMark g m).pending = s.pending ∧
    (s.setMark g m).fresh = s.fresh ∧
    (s.setMark g m).ticks = s.ticks ∧
    (s.setMark g m).resp = s.resp ∧
    (s.setMark g m).regs = s.regs ∧
    (s.setMark g m).mem = s.mem ∧
    (s.setMark g m).prog = s.prog ∧
    (s.setMark g m).storeSeed = s.storeSeed ∧
    (s.setMark g m).engines = s.engines ∧
    (s.setMark g m).outst = s.outst ∧
    (s.setMark g m).errq = s.errq ∧
    (s.setMark g m).errLatch = s.errLatch ∧
    (s.setMark g m).lanes = s.lanes ∧
    (s.setMark g m).loader = s.loader ∧
    (s.setMark g m).host = s.host ∧
    (s.setMark g m).vigil = s.vigil ∧
    (s.setMark g m).tc = s.tc ∧
    (s.setMark g m).mramQ = s.mramQ ∧
    (s.setMark g m).mramStop = s.mramStop ∧
    (s.setMark g m).cmdq = s.cmdq ∧
    (s.setMark g m).rspq = s.rspq ∧
    (s.setMark g m).irqReq = s.irqReq ∧
    (s.setMark g m).ddrIssued = s.ddrIssued ∧
    (s.setMark g m).plm = s.plm ∧
    (s.setMark g m).fuses = s.fuses ∧
    (s.setMark g m).ptc = s.ptc ∧
    (s.setMark g m).ptcOrg = s.ptcOrg ∧
    (s.setMark g m).ang = s.ang ∧
    (s.setMark g m).lin = s.lin ∧
    (s.setMark g m).mns = s.mns ∧
    (s.setMark g m).latch = s.latch ∧
    (s.setMark g m).calPend = s.calPend ∧
    (s.setMark g m).handed = s.handed ∧
    (s.setMark g m).carFlag = s.carFlag ∧
    (s.setMark g m).ports = s.ports ∧
    (s.setMark g m).camp = s.camp ∧
    (s.setMark g m).star = s.star ∧
    (s.setMark g m).sgmOrder = s.sgmOrder ∧
    (s.setMark g m).cans = s.cans ∧
    (s.setMark g m).seqs = s.seqs ∧
    (s.setMark g m).gp = s.gp ∧
    (s.setMark g m).bridge = s.bridge ∧
    (s.setMark g m).cup = s.cup ∧
    (s.setMark g m).die = s.die ∧
    (s.setMark g m).sealw = s.sealw ∧
    (s.setMark g m).boot = s.boot ∧
    (s.setMark g m).jtag = s.jtag :=
  ⟨rfl, rfl, rfl, rfl, rfl, rfl, rfl, rfl, rfl, rfl, rfl, rfl, rfl, rfl, rfl, rfl, rfl, rfl, rfl, rfl, rfl, rfl, rfl, rfl, rfl, rfl, rfl, rfl, rfl, rfl, rfl, rfl, rfl, rfl, rfl, rfl, rfl, rfl, rfl, rfl, rfl, rfl, rfl, rfl, rfl, rfl, rfl⟩

@[simp] theorem State.setLatch_fields (s : State) (g r : Nat) (w : Word × Word) :
    (s.setLatch g r w).pending = s.pending ∧
    (s.setLatch g r w).fresh = s.fresh ∧
    (s.setLatch g r w).ticks = s.ticks ∧
    (s.setLatch g r w).resp = s.resp ∧
    (s.setLatch g r w).regs = s.regs ∧
    (s.setLatch g r w).mem = s.mem ∧
    (s.setLatch g r w).ecc = s.ecc ∧
    (s.setLatch g r w).prog = s.prog ∧
    (s.setLatch g r w).storeSeed = s.storeSeed ∧
    (s.setLatch g r w).engines = s.engines ∧
    (s.setLatch g r w).outst = s.outst ∧
    (s.setLatch g r w).errq = s.errq ∧
    (s.setLatch g r w).errLatch = s.errLatch ∧
    (s.setLatch g r w).lanes = s.lanes ∧
    (s.setLatch g r w).loader = s.loader ∧
    (s.setLatch g r w).host = s.host ∧
    (s.setLatch g r w).vigil = s.vigil ∧
    (s.setLatch g r w).tc = s.tc ∧
    (s.setLatch g r w).mramQ = s.mramQ ∧
    (s.setLatch g r w).mramStop = s.mramStop ∧
    (s.setLatch g r w).cmdq = s.cmdq ∧
    (s.setLatch g r w).rspq = s.rspq ∧
    (s.setLatch g r w).irqReq = s.irqReq ∧
    (s.setLatch g r w).ddrIssued = s.ddrIssued ∧
    (s.setLatch g r w).plm = s.plm ∧
    (s.setLatch g r w).fuses = s.fuses ∧
    (s.setLatch g r w).ptc = s.ptc ∧
    (s.setLatch g r w).ptcOrg = s.ptcOrg ∧
    (s.setLatch g r w).ang = s.ang ∧
    (s.setLatch g r w).lin = s.lin ∧
    (s.setLatch g r w).mns = s.mns ∧
    (s.setLatch g r w).calPend = s.calPend ∧
    (s.setLatch g r w).handed = s.handed ∧
    (s.setLatch g r w).carFlag = s.carFlag ∧
    (s.setLatch g r w).ports = s.ports ∧
    (s.setLatch g r w).camp = s.camp ∧
    (s.setLatch g r w).star = s.star ∧
    (s.setLatch g r w).sgmOrder = s.sgmOrder ∧
    (s.setLatch g r w).cans = s.cans ∧
    (s.setLatch g r w).seqs = s.seqs ∧
    (s.setLatch g r w).gp = s.gp ∧
    (s.setLatch g r w).bridge = s.bridge ∧
    (s.setLatch g r w).cup = s.cup ∧
    (s.setLatch g r w).die = s.die ∧
    (s.setLatch g r w).sealw = s.sealw ∧
    (s.setLatch g r w).boot = s.boot ∧
    (s.setLatch g r w).jtag = s.jtag :=
  ⟨rfl, rfl, rfl, rfl, rfl, rfl, rfl, rfl, rfl, rfl, rfl, rfl, rfl, rfl, rfl, rfl, rfl, rfl, rfl, rfl, rfl, rfl, rfl, rfl, rfl, rfl, rfl, rfl, rfl, rfl, rfl, rfl, rfl, rfl, rfl, rfl, rfl, rfl, rfl, rfl, rfl, rfl, rfl, rfl, rfl, rfl, rfl⟩

@[simp] theorem State.updClock_fields (s : State) (n : Nat) (f : Clock → Clock) :
    (s.updClock n f).pending = s.pending ∧
    (s.updClock n f).fresh = s.fresh ∧
    (s.updClock n f).ticks = s.ticks ∧
    (s.updClock n f).resp = s.resp ∧
    (s.updClock n f).regs = s.regs ∧
    (s.updClock n f).mem = s.mem ∧
    (s.updClock n f).ecc = s.ecc ∧
    (s.updClock n f).prog = s.prog ∧
    (s.updClock n f).storeSeed = s.storeSeed ∧
    (s.updClock n f).engines = s.engines ∧
    (s.updClock n f).outst = s.outst ∧
    (s.updClock n f).errq = s.errq ∧
    (s.updClock n f).errLatch = s.errLatch ∧
    (s.updClock n f).lanes = s.lanes ∧
    (s.updClock n f).loader = s.loader ∧
    (s.updClock n f).host = s.host ∧
    (s.updClock n f).vigil = s.vigil ∧
    (s.updClock n f).mramQ = s.mramQ ∧
    (s.updClock n f).mramStop = s.mramStop ∧
    (s.updClock n f).cmdq = s.cmdq ∧
    (s.updClock n f).rspq = s.rspq ∧
    (s.updClock n f).irqReq = s.irqReq ∧
    (s.updClock n f).ddrIssued = s.ddrIssued ∧
    (s.updClock n f).plm = s.plm ∧
    (s.updClock n f).fuses = s.fuses ∧
    (s.updClock n f).ptc = s.ptc ∧
    (s.updClock n f).ptcOrg = s.ptcOrg ∧
    (s.updClock n f).ang = s.ang ∧
    (s.updClock n f).lin = s.lin ∧
    (s.updClock n f).mns = s.mns ∧
    (s.updClock n f).latch = s.latch ∧
    (s.updClock n f).calPend = s.calPend ∧
    (s.updClock n f).handed = s.handed ∧
    (s.updClock n f).carFlag = s.carFlag ∧
    (s.updClock n f).ports = s.ports ∧
    (s.updClock n f).camp = s.camp ∧
    (s.updClock n f).star = s.star ∧
    (s.updClock n f).sgmOrder = s.sgmOrder ∧
    (s.updClock n f).cans = s.cans ∧
    (s.updClock n f).seqs = s.seqs ∧
    (s.updClock n f).gp = s.gp ∧
    (s.updClock n f).bridge = s.bridge ∧
    (s.updClock n f).cup = s.cup ∧
    (s.updClock n f).die = s.die ∧
    (s.updClock n f).sealw = s.sealw ∧
    (s.updClock n f).boot = s.boot ∧
    (s.updClock n f).jtag = s.jtag :=
  ⟨rfl, rfl, rfl, rfl, rfl, rfl, rfl, rfl, rfl, rfl, rfl, rfl, rfl, rfl, rfl, rfl, rfl, rfl, rfl, rfl, rfl, rfl, rfl, rfl, rfl, rfl, rfl, rfl, rfl, rfl, rfl, rfl, rfl, rfl, rfl, rfl, rfl, rfl, rfl, rfl, rfl, rfl, rfl, rfl, rfl, rfl, rfl⟩

@[simp] theorem State.updAngle_fields (s : State) (n : Nat) (f : Ang → Ang) :
    (s.updAngle n f).pending = s.pending ∧
    (s.updAngle n f).fresh = s.fresh ∧
    (s.updAngle n f).ticks = s.ticks ∧
    (s.updAngle n f).resp = s.resp ∧
    (s.updAngle n f).regs = s.regs ∧
    (s.updAngle n f).mem = s.mem ∧
    (s.updAngle n f).ecc = s.ecc ∧
    (s.updAngle n f).prog = s.prog ∧
    (s.updAngle n f).storeSeed = s.storeSeed ∧
    (s.updAngle n f).engines = s.engines ∧
    (s.updAngle n f).outst = s.outst ∧
    (s.updAngle n f).errq = s.errq ∧
    (s.updAngle n f).errLatch = s.errLatch ∧
    (s.updAngle n f).lanes = s.lanes ∧
    (s.updAngle n f).loader = s.loader ∧
    (s.updAngle n f).host = s.host ∧
    (s.updAngle n f).vigil = s.vigil ∧
    (s.updAngle n f).tc = s.tc ∧
    (s.updAngle n f).mramQ = s.mramQ ∧
    (s.updAngle n f).mramStop = s.mramStop ∧
    (s.updAngle n f).cmdq = s.cmdq ∧
    (s.updAngle n f).rspq = s.rspq ∧
    (s.updAngle n f).irqReq = s.irqReq ∧
    (s.updAngle n f).ddrIssued = s.ddrIssued ∧
    (s.updAngle n f).plm = s.plm ∧
    (s.updAngle n f).fuses = s.fuses ∧
    (s.updAngle n f).ptc = s.ptc ∧
    (s.updAngle n f).ptcOrg = s.ptcOrg ∧
    (s.updAngle n f).lin = s.lin ∧
    (s.updAngle n f).mns = s.mns ∧
    (s.updAngle n f).latch = s.latch ∧
    (s.updAngle n f).calPend = s.calPend ∧
    (s.updAngle n f).handed = s.handed ∧
    (s.updAngle n f).carFlag = s.carFlag ∧
    (s.updAngle n f).ports = s.ports ∧
    (s.updAngle n f).camp = s.camp ∧
    (s.updAngle n f).star = s.star ∧
    (s.updAngle n f).sgmOrder = s.sgmOrder ∧
    (s.updAngle n f).cans = s.cans ∧
    (s.updAngle n f).seqs = s.seqs ∧
    (s.updAngle n f).gp = s.gp ∧
    (s.updAngle n f).bridge = s.bridge ∧
    (s.updAngle n f).cup = s.cup ∧
    (s.updAngle n f).die = s.die ∧
    (s.updAngle n f).sealw = s.sealw ∧
    (s.updAngle n f).boot = s.boot ∧
    (s.updAngle n f).jtag = s.jtag :=
  ⟨rfl, rfl, rfl, rfl, rfl, rfl, rfl, rfl, rfl, rfl, rfl, rfl, rfl, rfl, rfl, rfl, rfl, rfl, rfl, rfl, rfl, rfl, rfl, rfl, rfl, rfl, rfl, rfl, rfl, rfl, rfl, rfl, rfl, rfl, rfl, rfl, rfl, rfl, rfl, rfl, rfl, rfl, rfl, rfl, rfl, rfl, rfl⟩

@[simp] theorem State.updPort_fields (s : State) (p : Nat) (f : Port → Port) :
    (s.updPort p f).pending = s.pending ∧
    (s.updPort p f).fresh = s.fresh ∧
    (s.updPort p f).ticks = s.ticks ∧
    (s.updPort p f).resp = s.resp ∧
    (s.updPort p f).regs = s.regs ∧
    (s.updPort p f).mem = s.mem ∧
    (s.updPort p f).ecc = s.ecc ∧
    (s.updPort p f).prog = s.prog ∧
    (s.updPort p f).storeSeed = s.storeSeed ∧
    (s.updPort p f).engines = s.engines ∧
    (s.updPort p f).outst = s.outst ∧
    (s.updPort p f).errq = s.errq ∧
    (s.updPort p f).errLatch = s.errLatch ∧
    (s.updPort p f).lanes = s.lanes ∧
    (s.updPort p f).loader = s.loader ∧
    (s.updPort p f).host = s.host ∧
    (s.updPort p f).vigil = s.vigil ∧
    (s.updPort p f).tc = s.tc ∧
    (s.updPort p f).mramQ = s.mramQ ∧
    (s.updPort p f).mramStop = s.mramStop ∧
    (s.updPort p f).cmdq = s.cmdq ∧
    (s.updPort p f).rspq = s.rspq ∧
    (s.updPort p f).irqReq = s.irqReq ∧
    (s.updPort p f).ddrIssued = s.ddrIssued ∧
    (s.updPort p f).plm = s.plm ∧
    (s.updPort p f).fuses = s.fuses ∧
    (s.updPort p f).ptc = s.ptc ∧
    (s.updPort p f).ptcOrg = s.ptcOrg ∧
    (s.updPort p f).ang = s.ang ∧
    (s.updPort p f).lin = s.lin ∧
    (s.updPort p f).mns = s.mns ∧
    (s.updPort p f).latch = s.latch ∧
    (s.updPort p f).calPend = s.calPend ∧
    (s.updPort p f).handed = s.handed ∧
    (s.updPort p f).carFlag = s.carFlag ∧
    (s.updPort p f).camp = s.camp ∧
    (s.updPort p f).star = s.star ∧
    (s.updPort p f).sgmOrder = s.sgmOrder ∧
    (s.updPort p f).cans = s.cans ∧
    (s.updPort p f).seqs = s.seqs ∧
    (s.updPort p f).gp = s.gp ∧
    (s.updPort p f).bridge = s.bridge ∧
    (s.updPort p f).cup = s.cup ∧
    (s.updPort p f).die = s.die ∧
    (s.updPort p f).sealw = s.sealw ∧
    (s.updPort p f).boot = s.boot ∧
    (s.updPort p f).jtag = s.jtag :=
  ⟨rfl, rfl, rfl, rfl, rfl, rfl, rfl, rfl, rfl, rfl, rfl, rfl, rfl, rfl, rfl, rfl, rfl, rfl, rfl, rfl, rfl, rfl, rfl, rfl, rfl, rfl, rfl, rfl, rfl, rfl, rfl, rfl, rfl, rfl, rfl, rfl, rfl, rfl, rfl, rfl, rfl, rfl, rfl, rfl, rfl, rfl, rfl⟩

@[simp] theorem State.updBoot_fields (s : State) (f : BootSt → BootSt) :
    (s.updBoot f).pending = s.pending ∧
    (s.updBoot f).fresh = s.fresh ∧
    (s.updBoot f).ticks = s.ticks ∧
    (s.updBoot f).resp = s.resp ∧
    (s.updBoot f).regs = s.regs ∧
    (s.updBoot f).mem = s.mem ∧
    (s.updBoot f).ecc = s.ecc ∧
    (s.updBoot f).prog = s.prog ∧
    (s.updBoot f).storeSeed = s.storeSeed ∧
    (s.updBoot f).engines = s.engines ∧
    (s.updBoot f).outst = s.outst ∧
    (s.updBoot f).errq = s.errq ∧
    (s.updBoot f).errLatch = s.errLatch ∧
    (s.updBoot f).lanes = s.lanes ∧
    (s.updBoot f).loader = s.loader ∧
    (s.updBoot f).host = s.host ∧
    (s.updBoot f).vigil = s.vigil ∧
    (s.updBoot f).tc = s.tc ∧
    (s.updBoot f).mramQ = s.mramQ ∧
    (s.updBoot f).mramStop = s.mramStop ∧
    (s.updBoot f).cmdq = s.cmdq ∧
    (s.updBoot f).rspq = s.rspq ∧
    (s.updBoot f).irqReq = s.irqReq ∧
    (s.updBoot f).ddrIssued = s.ddrIssued ∧
    (s.updBoot f).plm = s.plm ∧
    (s.updBoot f).fuses = s.fuses ∧
    (s.updBoot f).ptc = s.ptc ∧
    (s.updBoot f).ptcOrg = s.ptcOrg ∧
    (s.updBoot f).ang = s.ang ∧
    (s.updBoot f).lin = s.lin ∧
    (s.updBoot f).mns = s.mns ∧
    (s.updBoot f).latch = s.latch ∧
    (s.updBoot f).calPend = s.calPend ∧
    (s.updBoot f).handed = s.handed ∧
    (s.updBoot f).carFlag = s.carFlag ∧
    (s.updBoot f).ports = s.ports ∧
    (s.updBoot f).camp = s.camp ∧
    (s.updBoot f).star = s.star ∧
    (s.updBoot f).sgmOrder = s.sgmOrder ∧
    (s.updBoot f).cans = s.cans ∧
    (s.updBoot f).seqs = s.seqs ∧
    (s.updBoot f).gp = s.gp ∧
    (s.updBoot f).bridge = s.bridge ∧
    (s.updBoot f).cup = s.cup ∧
    (s.updBoot f).die = s.die ∧
    (s.updBoot f).sealw = s.sealw ∧
    (s.updBoot f).jtag = s.jtag :=
  ⟨rfl, rfl, rfl, rfl, rfl, rfl, rfl, rfl, rfl, rfl, rfl, rfl, rfl, rfl, rfl, rfl, rfl, rfl, rfl, rfl, rfl, rfl, rfl, rfl, rfl, rfl, rfl, rfl, rfl, rfl, rfl, rfl, rfl, rfl, rfl, rfl, rfl, rfl, rfl, rfl, rfl, rfl, rfl, rfl, rfl, rfl, rfl⟩

@[simp] theorem State.updCup_fields (s : State) (f : Cup → Cup) :
    (s.updCup f).pending = s.pending ∧
    (s.updCup f).fresh = s.fresh ∧
    (s.updCup f).ticks = s.ticks ∧
    (s.updCup f).resp = s.resp ∧
    (s.updCup f).regs = s.regs ∧
    (s.updCup f).mem = s.mem ∧
    (s.updCup f).ecc = s.ecc ∧
    (s.updCup f).prog = s.prog ∧
    (s.updCup f).storeSeed = s.storeSeed ∧
    (s.updCup f).engines = s.engines ∧
    (s.updCup f).outst = s.outst ∧
    (s.updCup f).errq = s.errq ∧
    (s.updCup f).errLatch = s.errLatch ∧
    (s.updCup f).lanes = s.lanes ∧
    (s.updCup f).loader = s.loader ∧
    (s.updCup f).host = s.host ∧
    (s.updCup f).vigil = s.vigil ∧
    (s.updCup f).tc = s.tc ∧
    (s.updCup f).mramQ = s.mramQ ∧
    (s.updCup f).mramStop = s.mramStop ∧
    (s.updCup f).cmdq = s.cmdq ∧
    (s.updCup f).rspq = s.rspq ∧
    (s.updCup f).irqReq = s.irqReq ∧
    (s.updCup f).ddrIssued = s.ddrIssued ∧
    (s.updCup f).plm = s.plm ∧
    (s.updCup f).fuses = s.fuses ∧
    (s.updCup f).ptc = s.ptc ∧
    (s.updCup f).ptcOrg = s.ptcOrg ∧
    (s.updCup f).ang = s.ang ∧
    (s.updCup f).lin = s.lin ∧
    (s.updCup f).mns = s.mns ∧
    (s.updCup f).latch = s.latch ∧
    (s.updCup f).calPend = s.calPend ∧
    (s.updCup f).handed = s.handed ∧
    (s.updCup f).carFlag = s.carFlag ∧
    (s.updCup f).ports = s.ports ∧
    (s.updCup f).camp = s.camp ∧
    (s.updCup f).star = s.star ∧
    (s.updCup f).sgmOrder = s.sgmOrder ∧
    (s.updCup f).cans = s.cans ∧
    (s.updCup f).seqs = s.seqs ∧
    (s.updCup f).gp = s.gp ∧
    (s.updCup f).bridge = s.bridge ∧
    (s.updCup f).die = s.die ∧
    (s.updCup f).sealw = s.sealw ∧
    (s.updCup f).boot = s.boot ∧
    (s.updCup f).jtag = s.jtag :=
  ⟨rfl, rfl, rfl, rfl, rfl, rfl, rfl, rfl, rfl, rfl, rfl, rfl, rfl, rfl, rfl, rfl, rfl, rfl, rfl, rfl, rfl, rfl, rfl, rfl, rfl, rfl, rfl, rfl, rfl, rfl, rfl, rfl, rfl, rfl, rfl, rfl, rfl, rfl, rfl, rfl, rfl, rfl, rfl, rfl, rfl, rfl, rfl⟩

@[simp] theorem State.updDie_fields (s : State) (f : Die → Die) :
    (s.updDie f).pending = s.pending ∧
    (s.updDie f).fresh = s.fresh ∧
    (s.updDie f).ticks = s.ticks ∧
    (s.updDie f).resp = s.resp ∧
    (s.updDie f).regs = s.regs ∧
    (s.updDie f).mem = s.mem ∧
    (s.updDie f).ecc = s.ecc ∧
    (s.updDie f).prog = s.prog ∧
    (s.updDie f).storeSeed = s.storeSeed ∧
    (s.updDie f).engines = s.engines ∧
    (s.updDie f).outst = s.outst ∧
    (s.updDie f).errq = s.errq ∧
    (s.updDie f).errLatch = s.errLatch ∧
    (s.updDie f).lanes = s.lanes ∧
    (s.updDie f).loader = s.loader ∧
    (s.updDie f).host = s.host ∧
    (s.updDie f).vigil = s.vigil ∧
    (s.updDie f).tc = s.tc ∧
    (s.updDie f).mramQ = s.mramQ ∧
    (s.updDie f).mramStop = s.mramStop ∧
    (s.updDie f).cmdq = s.cmdq ∧
    (s.updDie f).rspq = s.rspq ∧
    (s.updDie f).irqReq = s.irqReq ∧
    (s.updDie f).ddrIssued = s.ddrIssued ∧
    (s.updDie f).plm = s.plm ∧
    (s.updDie f).fuses = s.fuses ∧
    (s.updDie f).ptc = s.ptc ∧
    (s.updDie f).ptcOrg = s.ptcOrg ∧
    (s.updDie f).ang = s.ang ∧
    (s.updDie f).lin = s.lin ∧
    (s.updDie f).mns = s.mns ∧
    (s.updDie f).latch = s.latch ∧
    (s.updDie f).calPend = s.calPend ∧
    (s.updDie f).handed = s.handed ∧
    (s.updDie f).carFlag = s.carFlag ∧
    (s.updDie f).ports = s.ports ∧
    (s.updDie f).camp = s.camp ∧
    (s.updDie f).star = s.star ∧
    (s.updDie f).sgmOrder = s.sgmOrder ∧
    (s.updDie f).cans = s.cans ∧
    (s.updDie f).seqs = s.seqs ∧
    (s.updDie f).gp = s.gp ∧
    (s.updDie f).bridge = s.bridge ∧
    (s.updDie f).cup = s.cup ∧
    (s.updDie f).sealw = s.sealw ∧
    (s.updDie f).boot = s.boot ∧
    (s.updDie f).jtag = s.jtag :=
  ⟨rfl, rfl, rfl, rfl, rfl, rfl, rfl, rfl, rfl, rfl, rfl, rfl, rfl, rfl, rfl, rfl, rfl, rfl, rfl, rfl, rfl, rfl, rfl, rfl, rfl, rfl, rfl, rfl, rfl, rfl, rfl, rfl, rfl, rfl, rfl, rfl, rfl, rfl, rfl, rfl, rfl, rfl, rfl, rfl, rfl, rfl, rfl⟩

@[simp] theorem State.updSeal_fields (s : State) (f : Seal → Seal) :
    (s.updSeal f).pending = s.pending ∧
    (s.updSeal f).fresh = s.fresh ∧
    (s.updSeal f).ticks = s.ticks ∧
    (s.updSeal f).resp = s.resp ∧
    (s.updSeal f).regs = s.regs ∧
    (s.updSeal f).mem = s.mem ∧
    (s.updSeal f).ecc = s.ecc ∧
    (s.updSeal f).prog = s.prog ∧
    (s.updSeal f).storeSeed = s.storeSeed ∧
    (s.updSeal f).engines = s.engines ∧
    (s.updSeal f).outst = s.outst ∧
    (s.updSeal f).errq = s.errq ∧
    (s.updSeal f).errLatch = s.errLatch ∧
    (s.updSeal f).lanes = s.lanes ∧
    (s.updSeal f).loader = s.loader ∧
    (s.updSeal f).host = s.host ∧
    (s.updSeal f).vigil = s.vigil ∧
    (s.updSeal f).tc = s.tc ∧
    (s.updSeal f).mramQ = s.mramQ ∧
    (s.updSeal f).mramStop = s.mramStop ∧
    (s.updSeal f).cmdq = s.cmdq ∧
    (s.updSeal f).rspq = s.rspq ∧
    (s.updSeal f).irqReq = s.irqReq ∧
    (s.updSeal f).ddrIssued = s.ddrIssued ∧
    (s.updSeal f).plm = s.plm ∧
    (s.updSeal f).fuses = s.fuses ∧
    (s.updSeal f).ptc = s.ptc ∧
    (s.updSeal f).ptcOrg = s.ptcOrg ∧
    (s.updSeal f).ang = s.ang ∧
    (s.updSeal f).lin = s.lin ∧
    (s.updSeal f).mns = s.mns ∧
    (s.updSeal f).latch = s.latch ∧
    (s.updSeal f).calPend = s.calPend ∧
    (s.updSeal f).handed = s.handed ∧
    (s.updSeal f).carFlag = s.carFlag ∧
    (s.updSeal f).ports = s.ports ∧
    (s.updSeal f).camp = s.camp ∧
    (s.updSeal f).star = s.star ∧
    (s.updSeal f).sgmOrder = s.sgmOrder ∧
    (s.updSeal f).cans = s.cans ∧
    (s.updSeal f).seqs = s.seqs ∧
    (s.updSeal f).gp = s.gp ∧
    (s.updSeal f).bridge = s.bridge ∧
    (s.updSeal f).cup = s.cup ∧
    (s.updSeal f).die = s.die ∧
    (s.updSeal f).boot = s.boot ∧
    (s.updSeal f).jtag = s.jtag :=
  ⟨rfl, rfl, rfl, rfl, rfl, rfl, rfl, rfl, rfl, rfl, rfl, rfl, rfl, rfl, rfl, rfl, rfl, rfl, rfl, rfl, rfl, rfl, rfl, rfl, rfl, rfl, rfl, rfl, rfl, rfl, rfl, rfl, rfl, rfl, rfl, rfl, rfl, rfl, rfl, rfl, rfl, rfl, rfl, rfl, rfl, rfl, rfl⟩

@[simp] theorem State.updBb_fields (s : State) (f : Bridge → Bridge) :
    (s.updBb f).pending = s.pending ∧
    (s.updBb f).fresh = s.fresh ∧
    (s.updBb f).ticks = s.ticks ∧
    (s.updBb f).resp = s.resp ∧
    (s.updBb f).regs = s.regs ∧
    (s.updBb f).mem = s.mem ∧
    (s.updBb f).ecc = s.ecc ∧
    (s.updBb f).prog = s.prog ∧
    (s.updBb f).storeSeed = s.storeSeed ∧
    (s.updBb f).engines = s.engines ∧
    (s.updBb f).outst = s.outst ∧
    (s.updBb f).errq = s.errq ∧
    (s.updBb f).errLatch = s.errLatch ∧
    (s.updBb f).lanes = s.lanes ∧
    (s.updBb f).loader = s.loader ∧
    (s.updBb f).host = s.host ∧
    (s.updBb f).vigil = s.vigil ∧
    (s.updBb f).tc = s.tc ∧
    (s.updBb f).mramQ = s.mramQ ∧
    (s.updBb f).mramStop = s.mramStop ∧
    (s.updBb f).cmdq = s.cmdq ∧
    (s.updBb f).rspq = s.rspq ∧
    (s.updBb f).irqReq = s.irqReq ∧
    (s.updBb f).ddrIssued = s.ddrIssued ∧
    (s.updBb f).plm = s.plm ∧
    (s.updBb f).fuses = s.fuses ∧
    (s.updBb f).ptc = s.ptc ∧
    (s.updBb f).ptcOrg = s.ptcOrg ∧
    (s.updBb f).ang = s.ang ∧
    (s.updBb f).lin = s.lin ∧
    (s.updBb f).mns = s.mns ∧
    (s.updBb f).latch = s.latch ∧
    (s.updBb f).calPend = s.calPend ∧
    (s.updBb f).handed = s.handed ∧
    (s.updBb f).carFlag = s.carFlag ∧
    (s.updBb f).ports = s.ports ∧
    (s.updBb f).camp = s.camp ∧
    (s.updBb f).star = s.star ∧
    (s.updBb f).sgmOrder = s.sgmOrder ∧
    (s.updBb f).cans = s.cans ∧
    (s.updBb f).seqs = s.seqs ∧
    (s.updBb f).gp = s.gp ∧
    (s.updBb f).cup = s.cup ∧
    (s.updBb f).die = s.die ∧
    (s.updBb f).sealw = s.sealw ∧
    (s.updBb f).boot = s.boot ∧
    (s.updBb f).jtag = s.jtag :=
  ⟨rfl, rfl, rfl, rfl, rfl, rfl, rfl, rfl, rfl, rfl, rfl, rfl, rfl, rfl, rfl, rfl, rfl, rfl, rfl, rfl, rfl, rfl, rfl, rfl, rfl, rfl, rfl, rfl, rfl, rfl, rfl, rfl, rfl, rfl, rfl, rfl, rfl, rfl, rfl, rfl, rfl, rfl, rfl, rfl, rfl, rfl, rfl⟩

@[simp] theorem State.updCamp_fields (s : State) (f : Camp → Camp) :
    (s.updCamp f).pending = s.pending ∧
    (s.updCamp f).fresh = s.fresh ∧
    (s.updCamp f).ticks = s.ticks ∧
    (s.updCamp f).resp = s.resp ∧
    (s.updCamp f).regs = s.regs ∧
    (s.updCamp f).mem = s.mem ∧
    (s.updCamp f).ecc = s.ecc ∧
    (s.updCamp f).prog = s.prog ∧
    (s.updCamp f).storeSeed = s.storeSeed ∧
    (s.updCamp f).engines = s.engines ∧
    (s.updCamp f).outst = s.outst ∧
    (s.updCamp f).errq = s.errq ∧
    (s.updCamp f).errLatch = s.errLatch ∧
    (s.updCamp f).lanes = s.lanes ∧
    (s.updCamp f).loader = s.loader ∧
    (s.updCamp f).host = s.host ∧
    (s.updCamp f).vigil = s.vigil ∧
    (s.updCamp f).tc = s.tc ∧
    (s.updCamp f).mramQ = s.mramQ ∧
    (s.updCamp f).mramStop = s.mramStop ∧
    (s.updCamp f).cmdq = s.cmdq ∧
    (s.updCamp f).rspq = s.rspq ∧
    (s.updCamp f).irqReq = s.irqReq ∧
    (s.updCamp f).ddrIssued = s.ddrIssued ∧
    (s.updCamp f).plm = s.plm ∧
    (s.updCamp f).fuses = s.fuses ∧
    (s.updCamp f).ptc = s.ptc ∧
    (s.updCamp f).ptcOrg = s.ptcOrg ∧
    (s.updCamp f).ang = s.ang ∧
    (s.updCamp f).lin = s.lin ∧
    (s.updCamp f).mns = s.mns ∧
    (s.updCamp f).latch = s.latch ∧
    (s.updCamp f).calPend = s.calPend ∧
    (s.updCamp f).handed = s.handed ∧
    (s.updCamp f).carFlag = s.carFlag ∧
    (s.updCamp f).ports = s.ports ∧
    (s.updCamp f).star = s.star ∧
    (s.updCamp f).sgmOrder = s.sgmOrder ∧
    (s.updCamp f).cans = s.cans ∧
    (s.updCamp f).seqs = s.seqs ∧
    (s.updCamp f).gp = s.gp ∧
    (s.updCamp f).bridge = s.bridge ∧
    (s.updCamp f).cup = s.cup ∧
    (s.updCamp f).die = s.die ∧
    (s.updCamp f).sealw = s.sealw ∧
    (s.updCamp f).boot = s.boot ∧
    (s.updCamp f).jtag = s.jtag :=
  ⟨rfl, rfl, rfl, rfl, rfl, rfl, rfl, rfl, rfl, rfl, rfl, rfl, rfl, rfl, rfl, rfl, rfl, rfl, rfl, rfl, rfl, rfl, rfl, rfl, rfl, rfl, rfl, rfl, rfl, rfl, rfl, rfl, rfl, rfl, rfl, rfl, rfl, rfl, rfl, rfl, rfl, rfl, rfl, rfl, rfl, rfl, rfl⟩

@[simp] theorem State.updStar_fields (s : State) (f : Star → Star) :
    (s.updStar f).pending = s.pending ∧
    (s.updStar f).fresh = s.fresh ∧
    (s.updStar f).ticks = s.ticks ∧
    (s.updStar f).resp = s.resp ∧
    (s.updStar f).regs = s.regs ∧
    (s.updStar f).mem = s.mem ∧
    (s.updStar f).ecc = s.ecc ∧
    (s.updStar f).prog = s.prog ∧
    (s.updStar f).storeSeed = s.storeSeed ∧
    (s.updStar f).engines = s.engines ∧
    (s.updStar f).outst = s.outst ∧
    (s.updStar f).errq = s.errq ∧
    (s.updStar f).errLatch = s.errLatch ∧
    (s.updStar f).lanes = s.lanes ∧
    (s.updStar f).loader = s.loader ∧
    (s.updStar f).host = s.host ∧
    (s.updStar f).vigil = s.vigil ∧
    (s.updStar f).tc = s.tc ∧
    (s.updStar f).mramQ = s.mramQ ∧
    (s.updStar f).mramStop = s.mramStop ∧
    (s.updStar f).cmdq = s.cmdq ∧
    (s.updStar f).rspq = s.rspq ∧
    (s.updStar f).irqReq = s.irqReq ∧
    (s.updStar f).ddrIssued = s.ddrIssued ∧
    (s.updStar f).plm = s.plm ∧
    (s.updStar f).fuses = s.fuses ∧
    (s.updStar f).ptc = s.ptc ∧
    (s.updStar f).ptcOrg = s.ptcOrg ∧
    (s.updStar f).ang = s.ang ∧
    (s.updStar f).lin = s.lin ∧
    (s.updStar f).mns = s.mns ∧
    (s.updStar f).latch = s.latch ∧
    (s.updStar f).calPend = s.calPend ∧
    (s.updStar f).handed = s.handed ∧
    (s.updStar f).carFlag = s.carFlag ∧
    (s.updStar f).ports = s.ports ∧
    (s.updStar f).camp = s.camp ∧
    (s.updStar f).sgmOrder = s.sgmOrder ∧
    (s.updStar f).cans = s.cans ∧
    (s.updStar f).seqs = s.seqs ∧
    (s.updStar f).gp = s.gp ∧
    (s.updStar f).bridge = s.bridge ∧
    (s.updStar f).cup = s.cup ∧
    (s.updStar f).die = s.die ∧
    (s.updStar f).sealw = s.sealw ∧
    (s.updStar f).boot = s.boot ∧
    (s.updStar f).jtag = s.jtag :=
  ⟨rfl, rfl, rfl, rfl, rfl, rfl, rfl, rfl, rfl, rfl, rfl, rfl, rfl, rfl, rfl, rfl, rfl, rfl, rfl, rfl, rfl, rfl, rfl, rfl, rfl, rfl, rfl, rfl, rfl, rfl, rfl, rfl, rfl, rfl, rfl, rfl, rfl, rfl, rfl, rfl, rfl, rfl, rfl, rfl, rfl, rfl, rfl⟩

@[simp] theorem State.updCan_fields (s : State) (n : Nat) (f : CanCtl → CanCtl) :
    (s.updCan n f).pending = s.pending ∧
    (s.updCan n f).fresh = s.fresh ∧
    (s.updCan n f).ticks = s.ticks ∧
    (s.updCan n f).resp = s.resp ∧
    (s.updCan n f).regs = s.regs ∧
    (s.updCan n f).mem = s.mem ∧
    (s.updCan n f).ecc = s.ecc ∧
    (s.updCan n f).prog = s.prog ∧
    (s.updCan n f).storeSeed = s.storeSeed ∧
    (s.updCan n f).engines = s.engines ∧
    (s.updCan n f).outst = s.outst ∧
    (s.updCan n f).errq = s.errq ∧
    (s.updCan n f).errLatch = s.errLatch ∧
    (s.updCan n f).lanes = s.lanes ∧
    (s.updCan n f).loader = s.loader ∧
    (s.updCan n f).host = s.host ∧
    (s.updCan n f).vigil = s.vigil ∧
    (s.updCan n f).tc = s.tc ∧
    (s.updCan n f).mramQ = s.mramQ ∧
    (s.updCan n f).mramStop = s.mramStop ∧
    (s.updCan n f).cmdq = s.cmdq ∧
    (s.updCan n f).rspq = s.rspq ∧
    (s.updCan n f).irqReq = s.irqReq ∧
    (s.updCan n f).ddrIssued = s.ddrIssued ∧
    (s.updCan n f).plm = s.plm ∧
    (s.updCan n f).fuses = s.fuses ∧
    (s.updCan n f).ptc = s.ptc ∧
    (s.updCan n f).ptcOrg = s.ptcOrg ∧
    (s.updCan n f).ang = s.ang ∧
    (s.updCan n f).lin = s.lin ∧
    (s.updCan n f).mns = s.mns ∧
    (s.updCan n f).latch = s.latch ∧
    (s.updCan n f).calPend = s.calPend ∧
    (s.updCan n f).handed = s.handed ∧
    (s.updCan n f).carFlag = s.carFlag ∧
    (s.updCan n f).ports = s.ports ∧
    (s.updCan n f).camp = s.camp ∧
    (s.updCan n f).star = s.star ∧
    (s.updCan n f).sgmOrder = s.sgmOrder ∧
    (s.updCan n f).seqs = s.seqs ∧
    (s.updCan n f).gp = s.gp ∧
    (s.updCan n f).bridge = s.bridge ∧
    (s.updCan n f).cup = s.cup ∧
    (s.updCan n f).die = s.die ∧
    (s.updCan n f).sealw = s.sealw ∧
    (s.updCan n f).boot = s.boot ∧
    (s.updCan n f).jtag = s.jtag :=
  ⟨rfl, rfl, rfl, rfl, rfl, rfl, rfl, rfl, rfl, rfl, rfl, rfl, rfl, rfl, rfl, rfl, rfl, rfl, rfl, rfl, rfl, rfl, rfl, rfl, rfl, rfl, rfl, rfl, rfl, rfl, rfl, rfl, rfl, rfl, rfl, rfl, rfl, rfl, rfl, rfl, rfl, rfl, rfl, rfl, rfl, rfl, rfl⟩

@[simp] theorem State.updSeq_fields (s : State) (c q : Nat) (f : Seq → Seq) :
    (s.updSeq c q f).pending = s.pending ∧
    (s.updSeq c q f).fresh = s.fresh ∧
    (s.updSeq c q f).ticks = s.ticks ∧
    (s.updSeq c q f).resp = s.resp ∧
    (s.updSeq c q f).regs = s.regs ∧
    (s.updSeq c q f).mem = s.mem ∧
    (s.updSeq c q f).ecc = s.ecc ∧
    (s.updSeq c q f).prog = s.prog ∧
    (s.updSeq c q f).storeSeed = s.storeSeed ∧
    (s.updSeq c q f).engines = s.engines ∧
    (s.updSeq c q f).outst = s.outst ∧
    (s.updSeq c q f).errq = s.errq ∧
    (s.updSeq c q f).errLatch = s.errLatch ∧
    (s.updSeq c q f).lanes = s.lanes ∧
    (s.updSeq c q f).loader = s.loader ∧
    (s.updSeq c q f).host = s.host ∧
    (s.updSeq c q f).vigil = s.vigil ∧
    (s.updSeq c q f).tc = s.tc ∧
    (s.updSeq c q f).mramQ = s.mramQ ∧
    (s.updSeq c q f).mramStop = s.mramStop ∧
    (s.updSeq c q f).cmdq = s.cmdq ∧
    (s.updSeq c q f).rspq = s.rspq ∧
    (s.updSeq c q f).irqReq = s.irqReq ∧
    (s.updSeq c q f).ddrIssued = s.ddrIssued ∧
    (s.updSeq c q f).plm = s.plm ∧
    (s.updSeq c q f).fuses = s.fuses ∧
    (s.updSeq c q f).ptc = s.ptc ∧
    (s.updSeq c q f).ptcOrg = s.ptcOrg ∧
    (s.updSeq c q f).ang = s.ang ∧
    (s.updSeq c q f).lin = s.lin ∧
    (s.updSeq c q f).mns = s.mns ∧
    (s.updSeq c q f).latch = s.latch ∧
    (s.updSeq c q f).calPend = s.calPend ∧
    (s.updSeq c q f).handed = s.handed ∧
    (s.updSeq c q f).carFlag = s.carFlag ∧
    (s.updSeq c q f).ports = s.ports ∧
    (s.updSeq c q f).camp = s.camp ∧
    (s.updSeq c q f).star = s.star ∧
    (s.updSeq c q f).sgmOrder = s.sgmOrder ∧
    (s.updSeq c q f).cans = s.cans ∧
    (s.updSeq c q f).gp = s.gp ∧
    (s.updSeq c q f).bridge = s.bridge ∧
    (s.updSeq c q f).cup = s.cup ∧
    (s.updSeq c q f).die = s.die ∧
    (s.updSeq c q f).sealw = s.sealw ∧
    (s.updSeq c q f).boot = s.boot ∧
    (s.updSeq c q f).jtag = s.jtag :=
  ⟨rfl, rfl, rfl, rfl, rfl, rfl, rfl, rfl, rfl, rfl, rfl, rfl, rfl, rfl, rfl, rfl, rfl, rfl, rfl, rfl, rfl, rfl, rfl, rfl, rfl, rfl, rfl, rfl, rfl, rfl, rfl, rfl, rfl, rfl, rfl, rfl, rfl, rfl, rfl, rfl, rfl, rfl, rfl, rfl, rfl, rfl, rfl⟩

@[simp] theorem State.updPlm_fields (s : State) (f : Plm → Plm) :
    (s.updPlm f).pending = s.pending ∧
    (s.updPlm f).fresh = s.fresh ∧
    (s.updPlm f).ticks = s.ticks ∧
    (s.updPlm f).resp = s.resp ∧
    (s.updPlm f).regs = s.regs ∧
    (s.updPlm f).mem = s.mem ∧
    (s.updPlm f).ecc = s.ecc ∧
    (s.updPlm f).prog = s.prog ∧
    (s.updPlm f).storeSeed = s.storeSeed ∧
    (s.updPlm f).engines = s.engines ∧
    (s.updPlm f).outst = s.outst ∧
    (s.updPlm f).errq = s.errq ∧
    (s.updPlm f).errLatch = s.errLatch ∧
    (s.updPlm f).lanes = s.lanes ∧
    (s.updPlm f).loader = s.loader ∧
    (s.updPlm f).host = s.host ∧
    (s.updPlm f).vigil = s.vigil ∧
    (s.updPlm f).tc = s.tc ∧
    (s.updPlm f).mramQ = s.mramQ ∧
    (s.updPlm f).mramStop = s.mramStop ∧
    (s.updPlm f).cmdq = s.cmdq ∧
    (s.updPlm f).rspq = s.rspq ∧
    (s.updPlm f).irqReq = s.irqReq ∧
    (s.updPlm f).ddrIssued = s.ddrIssued ∧
    (s.updPlm f).fuses = s.fuses ∧
    (s.updPlm f).ptc = s.ptc ∧
    (s.updPlm f).ptcOrg = s.ptcOrg ∧
    (s.updPlm f).ang = s.ang ∧
    (s.updPlm f).lin = s.lin ∧
    (s.updPlm f).mns = s.mns ∧
    (s.updPlm f).latch = s.latch ∧
    (s.updPlm f).calPend = s.calPend ∧
    (s.updPlm f).handed = s.handed ∧
    (s.updPlm f).carFlag = s.carFlag ∧
    (s.updPlm f).ports = s.ports ∧
    (s.updPlm f).camp = s.camp ∧
    (s.updPlm f).star = s.star ∧
    (s.updPlm f).sgmOrder = s.sgmOrder ∧
    (s.updPlm f).cans = s.cans ∧
    (s.updPlm f).seqs = s.seqs ∧
    (s.updPlm f).gp = s.gp ∧
    (s.updPlm f).bridge = s.bridge ∧
    (s.updPlm f).cup = s.cup ∧
    (s.updPlm f).die = s.die ∧
    (s.updPlm f).sealw = s.sealw ∧
    (s.updPlm f).boot = s.boot ∧
    (s.updPlm f).jtag = s.jtag :=
  ⟨rfl, rfl, rfl, rfl, rfl, rfl, rfl, rfl, rfl, rfl, rfl, rfl, rfl, rfl, rfl, rfl, rfl, rfl, rfl, rfl, rfl, rfl, rfl, rfl, rfl, rfl, rfl, rfl, rfl, rfl, rfl, rfl, rfl, rfl, rfl, rfl, rfl, rfl, rfl, rfl, rfl, rfl, rfl, rfl, rfl, rfl, rfl⟩

@[simp] theorem State.updResource_fields (s : State) (r : Nat) (f : Resource → Resource) :
    (s.updResource r f).pending = s.pending ∧
    (s.updResource r f).fresh = s.fresh ∧
    (s.updResource r f).ticks = s.ticks ∧
    (s.updResource r f).resp = s.resp ∧
    (s.updResource r f).regs = s.regs ∧
    (s.updResource r f).mem = s.mem ∧
    (s.updResource r f).ecc = s.ecc ∧
    (s.updResource r f).prog = s.prog ∧
    (s.updResource r f).storeSeed = s.storeSeed ∧
    (s.updResource r f).engines = s.engines ∧
    (s.updResource r f).outst = s.outst ∧
    (s.updResource r f).errq = s.errq ∧
    (s.updResource r f).errLatch = s.errLatch ∧
    (s.updResource r f).lanes = s.lanes ∧
    (s.updResource r f).loader = s.loader ∧
    (s.updResource r f).host = s.host ∧
    (s.updResource r f).tc = s.tc ∧
    (s.updResource r f).mramQ = s.mramQ ∧
    (s.updResource r f).mramStop = s.mramStop ∧
    (s.updResource r f).cmdq = s.cmdq ∧
    (s.updResource r f).rspq = s.rspq ∧
    (s.updResource r f).irqReq = s.irqReq ∧
    (s.updResource r f).ddrIssued = s.ddrIssued ∧
    (s.updResource r f).plm = s.plm ∧
    (s.updResource r f).fuses = s.fuses ∧
    (s.updResource r f).ptc = s.ptc ∧
    (s.updResource r f).ptcOrg = s.ptcOrg ∧
    (s.updResource r f).ang = s.ang ∧
    (s.updResource r f).lin = s.lin ∧
    (s.updResource r f).mns = s.mns ∧
    (s.updResource r f).latch = s.latch ∧
    (s.updResource r f).calPend = s.calPend ∧
    (s.updResource r f).handed = s.handed ∧
    (s.updResource r f).carFlag = s.carFlag ∧
    (s.updResource r f).ports = s.ports ∧
    (s.updResource r f).camp = s.camp ∧
    (s.updResource r f).star = s.star ∧
    (s.updResource r f).sgmOrder = s.sgmOrder ∧
    (s.updResource r f).cans = s.cans ∧
    (s.updResource r f).seqs = s.seqs ∧
    (s.updResource r f).gp = s.gp ∧
    (s.updResource r f).bridge = s.bridge ∧
    (s.updResource r f).cup = s.cup ∧
    (s.updResource r f).die = s.die ∧
    (s.updResource r f).sealw = s.sealw ∧
    (s.updResource r f).boot = s.boot ∧
    (s.updResource r f).jtag = s.jtag :=
  ⟨rfl, rfl, rfl, rfl, rfl, rfl, rfl, rfl, rfl, rfl, rfl, rfl, rfl, rfl, rfl, rfl, rfl, rfl, rfl, rfl, rfl, rfl, rfl, rfl, rfl, rfl, rfl, rfl, rfl, rfl, rfl, rfl, rfl, rfl, rfl, rfl, rfl, rfl, rfl, rfl, rfl, rfl, rfl, rfl, rfl, rfl, rfl⟩

/-! ### Values read -/

@[simp] theorem State.setReg_reads (s : State) (a : Nat) (w : Word) :
    (∀ k1, (s.setReg a w).eng k1 = s.eng k1) ∧
    (∀ k1, (s.setReg a w).byte k1 = s.byte k1) ∧
    (∀ k1, (s.setReg a w).lane k1 = s.lane k1) ∧
    (∀ k1, (s.setReg a w).clock k1 = s.clock k1) ∧
    (∀ k1, (s.setReg a w).mark k1 = s.mark k1) ∧
    (∀ k1 k2, (s.setReg a w).progWord k1 k2 = s.progWord k1 k2) ∧
    (∀ k1, (s.setReg a w).resource k1 = s.resource k1) :=
  ⟨fun _ => rfl, fun _ => rfl, fun _ => rfl, fun _ => rfl, fun _ => rfl, fun _ _ => rfl, fun _ => rfl⟩

@[simp] theorem State.setFld_reads (s : State) (a : Nat) (f : Fld) (v : Nat) :
    (∀ k1, (s.setFld a f v).eng k1 = s.eng k1) ∧
    (∀ k1, (s.setFld a f v).byte k1 = s.byte k1) ∧
    (∀ k1, (s.setFld a f v).lane k1 = s.lane k1) ∧
    (∀ k1, (s.setFld a f v).clock k1 = s.clock k1) ∧
    (∀ k1, (s.setFld a f v).mark k1 = s.mark k1) ∧
    (∀ k1 k2, (s.setFld a f v).progWord k1 k2 = s.progWord k1 k2) ∧
    (∀ k1, (s.setFld a f v).resource k1 = s.resource k1) :=
  ⟨fun _ => rfl, fun _ => rfl, fun _ => rfl, fun _ => rfl, fun _ => rfl, fun _ _ => rfl, fun _ => rfl⟩

@[simp] theorem State.setFlag_reads (s : State) (a : Nat) (f : Fld) (b : Bool) :
    (∀ k1, (s.setFlag a f b).eng k1 = s.eng k1) ∧
    (∀ k1, (s.setFlag a f b).byte k1 = s.byte k1) ∧
    (∀ k1, (s.setFlag a f b).lane k1 = s.lane k1) ∧
    (∀ k1, (s.setFlag a f b).clock k1 = s.clock k1) ∧
    (∀ k1, (s.setFlag a f b).mark k1 = s.mark k1) ∧
    (∀ k1 k2, (s.setFlag a f b).progWord k1 k2 = s.progWord k1 k2) ∧
    (∀ k1, (s.setFlag a f b).resource k1 = s.resource k1) :=
  ⟨fun _ => rfl, fun _ => rfl, fun _ => rfl, fun _ => rfl, fun _ => rfl, fun _ _ => rfl, fun _ => rfl⟩

@[simp] theorem State.count_reads (s : State) (a k : Nat) :
    (∀ k1, (s.count a k).eng k1 = s.eng k1) ∧
    (∀ k1, (s.count a k).byte k1 = s.byte k1) ∧
    (∀ k1, (s.count a k).lane k1 = s.lane k1) ∧
    (∀ k1, (s.count a k).clock k1 = s.clock k1) ∧
    (∀ k1, (s.count a k).mark k1 = s.mark k1) ∧
    (∀ k1 k2, (s.count a k).progWord k1 k2 = s.progWord k1 k2) ∧
    (∀ k1, (s.count a k).resource k1 = s.resource k1) :=
  ⟨fun _ => rfl, fun _ => rfl, fun _ => rfl, fun _ => rfl, fun _ => rfl, fun _ _ => rfl, fun _ => rfl⟩

@[simp] theorem State.countSat_reads (s : State) (a k : Nat) :
    (∀ k1, (s.countSat a k).eng k1 = s.eng k1) ∧
    (∀ k1, (s.countSat a k).byte k1 = s.byte k1) ∧
    (∀ k1, (s.countSat a k).lane k1 = s.lane k1) ∧
    (∀ k1, (s.countSat a k).clock k1 = s.clock k1) ∧
    (∀ k1, (s.countSat a k).mark k1 = s.mark k1) ∧
    (∀ k1 k2, (s.countSat a k).progWord k1 k2 = s.progWord k1 k2) ∧
    (∀ k1, (s.countSat a k).resource k1 = s.resource k1) :=
  ⟨fun _ => rfl, fun _ => rfl, fun _ => rfl, fun _ => rfl, fun _ => rfl, fun _ _ => rfl, fun _ => rfl⟩

@[simp] theorem State.countFldSat_reads (s : State) (a : Nat) (f : Fld) (k : Nat) :
    (∀ k1, (s.countFldSat a f k).eng k1 = s.eng k1) ∧
    (∀ k1, (s.countFldSat a f k).byte k1 = s.byte k1) ∧
    (∀ k1, (s.countFldSat a f k).lane k1 = s.lane k1) ∧
    (∀ k1, (s.countFldSat a f k).clock k1 = s.clock k1) ∧
    (∀ k1, (s.countFldSat a f k).mark k1 = s.mark k1) ∧
    (∀ k1 k2, (s.countFldSat a f k).progWord k1 k2 = s.progWord k1 k2) ∧
    (∀ k1, (s.countFldSat a f k).resource k1 = s.resource k1) :=
  ⟨fun _ => rfl, fun _ => rfl, fun _ => rfl, fun _ => rfl, fun _ => rfl, fun _ _ => rfl, fun _ => rfl⟩

@[simp] theorem State.resetRegs_reads (s : State) (p : Nat → Bool) :
    (∀ k1, (s.resetRegs p).eng k1 = s.eng k1) ∧
    (∀ k1, (s.resetRegs p).byte k1 = s.byte k1) ∧
    (∀ k1, (s.resetRegs p).lane k1 = s.lane k1) ∧
    (∀ k1, (s.resetRegs p).clock k1 = s.clock k1) ∧
    (∀ k1, (s.resetRegs p).mark k1 = s.mark k1) ∧
    (∀ k1 k2, (s.resetRegs p).progWord k1 k2 = s.progWord k1 k2) ∧
    (∀ k1, (s.resetRegs p).resource k1 = s.resource k1) :=
  ⟨fun _ => rfl, fun _ => rfl, fun _ => rfl, fun _ => rfl, fun _ => rfl, fun _ _ => rfl, fun _ => rfl⟩

@[simp] theorem State.setBankState_reads (s : State) (k v : Nat) :
    (∀ k1, (s.setBankState k v).eng k1 = s.eng k1) ∧
    (∀ k1, (s.setBankState k v).byte k1 = s.byte k1) ∧
    (∀ k1, (s.setBankState k v).lane k1 = s.lane k1) ∧
    (∀ k1, (s.setBankState k v).clock k1 = s.clock k1) ∧
    (∀ k1, (s.setBankState k v).mark k1 = s.mark k1) ∧
    (∀ k1 k2, (s.setBankState k v).progWord k1 k2 = s.progWord k1 k2) ∧
    (∀ k1, (s.setBankState k v).resource k1 = s.resource k1) :=
  ⟨fun _ => rfl, fun _ => rfl, fun _ => rfl, fun _ => rfl, fun _ => rfl, fun _ _ => rfl, fun _ => rfl⟩

@[simp] theorem State.answer_reads (s : State) (r : Resp) :
    (∀ k1, (s.answer r).reg k1 = s.reg k1) ∧
    (∀ k1 k2, (s.answer r).fld k1 k2 = s.fld k1 k2) ∧
    (∀ k1 k2, (s.answer r).flag k1 k2 = s.flag k1 k2) ∧
    (∀ k1, (s.answer r).eng k1 = s.eng k1) ∧
    (∀ k1, (s.answer r).byte k1 = s.byte k1) ∧
    (∀ k1, (s.answer r).lane k1 = s.lane k1) ∧
    (∀ k1, (s.answer r).clock k1 = s.clock k1) ∧
    (∀ k1, (s.answer r).mark k1 = s.mark k1) ∧
    (∀ k1 k2, (s.answer r).progWord k1 k2 = s.progWord k1 k2) ∧
    (∀ k1, (s.answer r).resource k1 = s.resource k1) :=
  ⟨fun _ => rfl, fun _ _ => rfl, fun _ _ => rfl, fun _ => rfl, fun _ => rfl, fun _ => rfl, fun _ => rfl, fun _ => rfl, fun _ _ => rfl, fun _ => rfl⟩

@[simp] theorem State.answerWord_reads (s : State) (w : Word) :
    (∀ k1, (s.answerWord w).reg k1 = s.reg k1) ∧
    (∀ k1 k2, (s.answerWord w).fld k1 k2 = s.fld k1 k2) ∧
    (∀ k1 k2, (s.answerWord w).flag k1 k2 = s.flag k1 k2) ∧
    (∀ k1, (s.answerWord w).eng k1 = s.eng k1) ∧
    (∀ k1, (s.answerWord w).byte k1 = s.byte k1) ∧
    (∀ k1, (s.answerWord w).lane k1 = s.lane k1) ∧
    (∀ k1, (s.answerWord w).clock k1 = s.clock k1) ∧
    (∀ k1, (s.answerWord w).mark k1 = s.mark k1) ∧
    (∀ k1 k2, (s.answerWord w).progWord k1 k2 = s.progWord k1 k2) ∧
    (∀ k1, (s.answerWord w).resource k1 = s.resource k1) :=
  ⟨fun _ => rfl, fun _ _ => rfl, fun _ _ => rfl, fun _ => rfl, fun _ => rfl, fun _ => rfl, fun _ => rfl, fun _ => rfl, fun _ _ => rfl, fun _ => rfl⟩

@[simp] theorem State.setByte_reads (s : State) (a : Nat) (b : Byte) :
    (∀ k1, (s.setByte a b).reg k1 = s.reg k1) ∧
    (∀ k1 k2, (s.setByte a b).fld k1 k2 = s.fld k1 k2) ∧
    (∀ k1 k2, (s.setByte a b).flag k1 k2 = s.flag k1 k2) ∧
    (∀ k1, (s.setByte a b).eng k1 = s.eng k1) ∧
    (∀ k1, (s.setByte a b).lane k1 = s.lane k1) ∧
    (∀ k1, (s.setByte a b).clock k1 = s.clock k1) ∧
    (∀ k1, (s.setByte a b).mark k1 = s.mark k1) ∧
    (∀ k1 k2, (s.setByte a b).progWord k1 k2 = s.progWord k1 k2) ∧
    (∀ k1, (s.setByte a b).resource k1 = s.resource k1) :=
  ⟨fun _ => rfl, fun _ _ => rfl, fun _ _ => rfl, fun _ => rfl, fun _ => rfl, fun _ => rfl, fun _ => rfl, fun _ _ => rfl, fun _ => rfl⟩

@[simp] theorem State.setEng_reads (s : State) (e : Nat) (x : Engine) :
    (∀ k1, (s.setEng e x).reg k1 = s.reg k1) ∧
    (∀ k1 k2, (s.setEng e x).fld k1 k2 = s.fld k1 k2) ∧
    (∀ k1 k2, (s.setEng e x).flag k1 k2 = s.flag k1 k2) ∧
    (∀ k1, (s.setEng e x).byte k1 = s.byte k1) ∧
    (∀ k1, (s.setEng e x).lane k1 = s.lane k1) ∧
    (∀ k1, (s.setEng e x).clock k1 = s.clock k1) ∧
    (∀ k1, (s.setEng e x).mark k1 = s.mark k1) ∧
    (∀ k1 k2, (s.setEng e x).progWord k1 k2 = s.progWord k1 k2) ∧
    (∀ k1, (s.setEng e x).resource k1 = s.resource k1) :=
  ⟨fun _ => rfl, fun _ _ => rfl, fun _ _ => rfl, fun _ => rfl, fun _ => rfl, fun _ => rfl, fun _ => rfl, fun _ _ => rfl, fun _ => rfl⟩

@[simp] theorem State.updEng_reads (s : State) (e : Nat) (f : Engine → Engine) :
    (∀ k1, (s.updEng e f).reg k1 = s.reg k1) ∧
    (∀ k1 k2, (s.updEng e f).fld k1 k2 = s.fld k1 k2) ∧
    (∀ k1 k2, (s.updEng e f).flag k1 k2 = s.flag k1 k2) ∧
    (∀ k1, (s.updEng e f).byte k1 = s.byte k1) ∧
    (∀ k1, (s.updEng e f).lane k1 = s.lane k1) ∧
    (∀ k1, (s.updEng e f).clock k1 = s.clock k1) ∧
    (∀ k1, (s.updEng e f).mark k1 = s.mark k1) ∧
    (∀ k1 k2, (s.updEng e f).progWord k1 k2 = s.progWord k1 k2) ∧
    (∀ k1, (s.updEng e f).resource k1 = s.resource k1) :=
  ⟨fun _ => rfl, fun _ _ => rfl, fun _ _ => rfl, fun _ => rfl, fun _ => rfl, fun _ => rfl, fun _ => rfl, fun _ _ => rfl, fun _ => rfl⟩

@[simp] theorem State.setD_reads (s : State) (e : Nat) (d : Fin 8) (w : Word) :
    (∀ k1, (s.setD e d w).reg k1 = s.reg k1) ∧
    (∀ k1 k2, (s.setD e d w).fld k1 k2 = s.fld k1 k2) ∧
    (∀ k1 k2, (s.setD e d w).flag k1 k2 = s.flag k1 k2) ∧
    (∀ k1, (s.setD e d w).byte k1 = s.byte k1) ∧
    (∀ k1, (s.setD e d w).lane k1 = s.lane k1) ∧
    (∀ k1, (s.setD e d w).clock k1 = s.clock k1) ∧
    (∀ k1, (s.setD e d w).mark k1 = s.mark k1) ∧
    (∀ k1 k2, (s.setD e d w).progWord k1 k2 = s.progWord k1 k2) ∧
    (∀ k1, (s.setD e d w).resource k1 = s.resource k1) :=
  ⟨fun _ => rfl, fun _ _ => rfl, fun _ _ => rfl, fun _ => rfl, fun _ => rfl, fun _ => rfl, fun _ => rfl, fun _ _ => rfl, fun _ => rfl⟩

@[simp] theorem State.setA_reads (s : State) (e : Nat) (d : Fin 8) (w : Word) :
    (∀ k1, (s.setA e d w).reg k1 = s.reg k1) ∧
    (∀ k1 k2, (s.setA e d w).fld k1 k2 = s.fld k1 k2) ∧
    (∀ k1 k2, (s.setA e d w).flag k1 k2 = s.flag k1 k2) ∧
    (∀ k1, (s.setA e d w).byte k1 = s.byte k1) ∧
    (∀ k1, (s.setA e d w).lane k1 = s.lane k1) ∧
    (∀ k1, (s.setA e d w).clock k1 = s.clock k1) ∧
    (∀ k1, (s.setA e d w).mark k1 = s.mark k1) ∧
    (∀ k1 k2, (s.setA e d w).progWord k1 k2 = s.progWord k1 k2) ∧
    (∀ k1, (s.setA e d w).resource k1 = s.resource k1) :=
  ⟨fun _ => rfl, fun _ _ => rfl, fun _ _ => rfl, fun _ => rfl, fun _ => rfl, fun _ => rfl, fun _ => rfl, fun _ _ => rfl, fun _ => rfl⟩

@[simp] theorem State.setAcc_reads (s : State) (e : Nat) (n : Fin 4) (w : Acc) :
    (∀ k1, (s.setAcc e n w).reg k1 = s.reg k1) ∧
    (∀ k1 k2, (s.setAcc e n w).fld k1 k2 = s.fld k1 k2) ∧
    (∀ k1 k2, (s.setAcc e n w).flag k1 k2 = s.flag k1 k2) ∧
    (∀ k1, (s.setAcc e n w).byte k1 = s.byte k1) ∧
    (∀ k1, (s.setAcc e n w).lane k1 = s.lane k1) ∧
    (∀ k1, (s.setAcc e n w).clock k1 = s.clock k1) ∧
    (∀ k1, (s.setAcc e n w).mark k1 = s.mark k1) ∧
    (∀ k1 k2, (s.setAcc e n w).progWord k1 k2 = s.progWord k1 k2) ∧
    (∀ k1, (s.setAcc e n w).resource k1 = s.resource k1) :=
  ⟨fun _ => rfl, fun _ _ => rfl, fun _ _ => rfl, fun _ => rfl, fun _ => rfl, fun _ => rfl, fun _ => rfl, fun _ _ => rfl, fun _ => rfl⟩

@[simp] theorem State.setPsw_reads (s : State) (e : Nat) (p : Word) :
    (∀ k1, (s.setPsw e p).reg k1 = s.reg k1) ∧
    (∀ k1 k2, (s.setPsw e p).fld k1 k2 = s.fld k1 k2) ∧
    (∀ k1 k2, (s.setPsw e p).flag k1 k2 = s.flag k1 k2) ∧
    (∀ k1, (s.setPsw e p).byte k1 = s.byte k1) ∧
    (∀ k1, (s.setPsw e p).lane k1 = s.lane k1) ∧
    (∀ k1, (s.setPsw e p).clock k1 = s.clock k1) ∧
    (∀ k1, (s.setPsw e p).mark k1 = s.mark k1) ∧
    (∀ k1 k2, (s.setPsw e p).progWord k1 k2 = s.progWord k1 k2) ∧
    (∀ k1, (s.setPsw e p).resource k1 = s.resource k1) :=
  ⟨fun _ => rfl, fun _ _ => rfl, fun _ _ => rfl, fun _ => rfl, fun _ => rfl, fun _ => rfl, fun _ => rfl, fun _ _ => rfl, fun _ => rfl⟩

@[simp] theorem State.finish_reads (s : State) (e n : Nat) :
    (∀ k1, (s.finish e n).reg k1 = s.reg k1) ∧
    (∀ k1 k2, (s.finish e n).fld k1 k2 = s.fld k1 k2) ∧
    (∀ k1 k2, (s.finish e n).flag k1 k2 = s.flag k1 k2) ∧
    (∀ k1, (s.finish e n).byte k1 = s.byte k1) ∧
    (∀ k1, (s.finish e n).lane k1 = s.lane k1) ∧
    (∀ k1, (s.finish e n).clock k1 = s.clock k1) ∧
    (∀ k1, (s.finish e n).mark k1 = s.mark k1) ∧
    (∀ k1 k2, (s.finish e n).progWord k1 k2 = s.progWord k1 k2) ∧
    (∀ k1, (s.finish e n).resource k1 = s.resource k1) :=
  ⟨fun _ => rfl, fun _ _ => rfl, fun _ _ => rfl, fun _ => rfl, fun _ => rfl, fun _ => rfl, fun _ => rfl, fun _ _ => rfl, fun _ => rfl⟩

@[simp] theorem State.jump_reads (s : State) (e : Nat) (p : PWord) :
    (∀ k1, (s.jump e p).reg k1 = s.reg k1) ∧
    (∀ k1 k2, (s.jump e p).fld k1 k2 = s.fld k1 k2) ∧
    (∀ k1 k2, (s.jump e p).flag k1 k2 = s.flag k1 k2) ∧
    (∀ k1, (s.jump e p).byte k1 = s.byte k1) ∧
    (∀ k1, (s.jump e p).lane k1 = s.lane k1) ∧
    (∀ k1, (s.jump e p).clock k1 = s.clock k1) ∧
    (∀ k1, (s.jump e p).mark k1 = s.mark k1) ∧
    (∀ k1 k2, (s.jump e p).progWord k1 k2 = s.progWord k1 k2) ∧
    (∀ k1, (s.jump e p).resource k1 = s.resource k1) :=
  ⟨fun _ => rfl, fun _ _ => rfl, fun _ _ => rfl, fun _ => rfl, fun _ => rfl, fun _ => rfl, fun _ => rfl, fun _ _ => rfl, fun _ => rfl⟩

@[simp] theorem State.setProgWord_reads (s : State) (e w : Nat) (v : PWord) :
    (∀ k1, (s.setProgWord e w v).reg k1 = s.reg k1) ∧
    (∀ k1 k2, (s.setProgWord e w v).fld k1 k2 = s.fld k1 k2) ∧
    (∀ k1 k2, (s.setProgWord e w v).flag k1 k2 = s.flag k1 k2) ∧
    (∀ k1, (s.setProgWord e w v).eng k1 = s.eng k1) ∧
    (∀ k1, (s.setProgWord e w v).byte k1 = s.byte k1) ∧
    (∀ k1, (s.setProgWord e w v).lane k1 = s.lane k1) ∧
    (∀ k1, (s.setProgWord e w v).clock k1 = s.clock k1) ∧
    (∀ k1, (s.setProgWord e w v).mark k1 = s.mark k1) ∧
    (∀ k1, (s.setProgWord e w v).resource k1 = s.resource k1) :=
  ⟨fun _ => rfl, fun _ _ => rfl, fun _ _ => rfl, fun _ => rfl, fun _ => rfl, fun _ => rfl, fun _ => rfl, fun _ => rfl, fun _ => rfl⟩

@[simp] theorem State.updLane_reads (s : State) (l : Nat) (f : Lane → Lane) :
    (∀ k1, (s.updLane l f).reg k1 = s.reg k1) ∧
    (∀ k1 k2, (s.updLane l f).fld k1 k2 = s.fld k1 k2) ∧
    (∀ k1 k2, (s.updLane l f).flag k1 k2 = s.flag k1 k2) ∧
    (∀ k1, (s.updLane l f).eng k1 = s.eng k1) ∧
    (∀ k1, (s.updLane l f).byte k1 = s.byte k1) ∧
    (∀ k1, (s.updLane l f).clock k1 = s.clock k1) ∧
    (∀ k1, (s.updLane l f).mark k1 = s.mark k1) ∧
    (∀ k1 k2, (s.updLane l f).progWord k1 k2 = s.progWord k1 k2) ∧
    (∀ k1, (s.updLane l f).resource k1 = s.resource k1) :=
  ⟨fun _ => rfl, fun _ _ => rfl, fun _ _ => rfl, fun _ => rfl, fun _ => rfl, fun _ => rfl, fun _ => rfl, fun _ _ => rfl, fun _ => rfl⟩

@[simp] theorem State.setMark_reads (s : State) (g : Nat) (m : Option EccMark) :
    (∀ k1, (s.setMark g m).reg k1 = s.reg k1) ∧
    (∀ k1 k2, (s.setMark g m).fld k1 k2 = s.fld k1 k2) ∧
    (∀ k1 k2, (s.setMark g m).flag k1 k2 = s.flag k1 k2) ∧
    (∀ k1, (s.setMark g m).eng k1 = s.eng k1) ∧
    (∀ k1, (s.setMark g m).byte k1 = s.byte k1) ∧
    (∀ k1, (s.setMark g m).lane k1 = s.lane k1) ∧
    (∀ k1, (s.setMark g m).clock k1 = s.clock k1) ∧
    (∀ k1 k2, (s.setMark g m).progWord k1 k2 = s.progWord k1 k2) ∧
    (∀ k1, (s.setMark g m).resource k1 = s.resource k1) :=
  ⟨fun _ => rfl, fun _ _ => rfl, fun _ _ => rfl, fun _ => rfl, fun _ => rfl, fun _ => rfl, fun _ => rfl, fun _ _ => rfl, fun _ => rfl⟩

@[simp] theorem State.setLatch_reads (s : State) (g r : Nat) (w : Word × Word) :
    (∀ k1, (s.setLatch g r w).reg k1 = s.reg k1) ∧
    (∀ k1 k2, (s.setLatch g r w).fld k1 k2 = s.fld k1 k2) ∧
    (∀ k1 k2, (s.setLatch g r w).flag k1 k2 = s.flag k1 k2) ∧
    (∀ k1, (s.setLatch g r w).eng k1 = s.eng k1) ∧
    (∀ k1, (s.setLatch g r w).byte k1 = s.byte k1) ∧
    (∀ k1, (s.setLatch g r w).lane k1 = s.lane k1) ∧
    (∀ k1, (s.setLatch g r w).clock k1 = s.clock k1) ∧
    (∀ k1, (s.setLatch g r w).mark k1 = s.mark k1) ∧
    (∀ k1 k2, (s.setLatch g r w).progWord k1 k2 = s.progWord k1 k2) ∧
    (∀ k1, (s.setLatch g r w).resource k1 = s.resource k1) :=
  ⟨fun _ => rfl, fun _ _ => rfl, fun _ _ => rfl, fun _ => rfl, fun _ => rfl, fun _ => rfl, fun _ => rfl, fun _ => rfl, fun _ _ => rfl, fun _ => rfl⟩

@[simp] theorem State.updClock_reads (s : State) (n : Nat) (f : Clock → Clock) :
    (∀ k1, (s.updClock n f).reg k1 = s.reg k1) ∧
    (∀ k1 k2, (s.updClock n f).fld k1 k2 = s.fld k1 k2) ∧
    (∀ k1 k2, (s.updClock n f).flag k1 k2 = s.flag k1 k2) ∧
    (∀ k1, (s.updClock n f).eng k1 = s.eng k1) ∧
    (∀ k1, (s.updClock n f).byte k1 = s.byte k1) ∧
    (∀ k1, (s.updClock n f).lane k1 = s.lane k1) ∧
    (∀ k1, (s.updClock n f).mark k1 = s.mark k1) ∧
    (∀ k1 k2, (s.updClock n f).progWord k1 k2 = s.progWord k1 k2) ∧
    (∀ k1, (s.updClock n f).resource k1 = s.resource k1) :=
  ⟨fun _ => rfl, fun _ _ => rfl, fun _ _ => rfl, fun _ => rfl, fun _ => rfl, fun _ => rfl, fun _ => rfl, fun _ _ => rfl, fun _ => rfl⟩

@[simp] theorem State.updAngle_reads (s : State) (n : Nat) (f : Ang → Ang) :
    (∀ k1, (s.updAngle n f).reg k1 = s.reg k1) ∧
    (∀ k1 k2, (s.updAngle n f).fld k1 k2 = s.fld k1 k2) ∧
    (∀ k1 k2, (s.updAngle n f).flag k1 k2 = s.flag k1 k2) ∧
    (∀ k1, (s.updAngle n f).eng k1 = s.eng k1) ∧
    (∀ k1, (s.updAngle n f).byte k1 = s.byte k1) ∧
    (∀ k1, (s.updAngle n f).lane k1 = s.lane k1) ∧
    (∀ k1, (s.updAngle n f).clock k1 = s.clock k1) ∧
    (∀ k1, (s.updAngle n f).mark k1 = s.mark k1) ∧
    (∀ k1 k2, (s.updAngle n f).progWord k1 k2 = s.progWord k1 k2) ∧
    (∀ k1, (s.updAngle n f).resource k1 = s.resource k1) :=
  ⟨fun _ => rfl, fun _ _ => rfl, fun _ _ => rfl, fun _ => rfl, fun _ => rfl, fun _ => rfl, fun _ => rfl, fun _ => rfl, fun _ _ => rfl, fun _ => rfl⟩

@[simp] theorem State.updPort_reads (s : State) (p : Nat) (f : Port → Port) :
    (∀ k1, (s.updPort p f).reg k1 = s.reg k1) ∧
    (∀ k1 k2, (s.updPort p f).fld k1 k2 = s.fld k1 k2) ∧
    (∀ k1 k2, (s.updPort p f).flag k1 k2 = s.flag k1 k2) ∧
    (∀ k1, (s.updPort p f).eng k1 = s.eng k1) ∧
    (∀ k1, (s.updPort p f).byte k1 = s.byte k1) ∧
    (∀ k1, (s.updPort p f).lane k1 = s.lane k1) ∧
    (∀ k1, (s.updPort p f).clock k1 = s.clock k1) ∧
    (∀ k1, (s.updPort p f).mark k1 = s.mark k1) ∧
    (∀ k1 k2, (s.updPort p f).progWord k1 k2 = s.progWord k1 k2) ∧
    (∀ k1, (s.updPort p f).resource k1 = s.resource k1) :=
  ⟨fun _ => rfl, fun _ _ => rfl, fun _ _ => rfl, fun _ => rfl, fun _ => rfl, fun _ => rfl, fun _ => rfl, fun _ => rfl, fun _ _ => rfl, fun _ => rfl⟩

@[simp] theorem State.updBoot_reads (s : State) (f : BootSt → BootSt) :
    (∀ k1, (s.updBoot f).reg k1 = s.reg k1) ∧
    (∀ k1 k2, (s.updBoot f).fld k1 k2 = s.fld k1 k2) ∧
    (∀ k1 k2, (s.updBoot f).flag k1 k2 = s.flag k1 k2) ∧
    (∀ k1, (s.updBoot f).eng k1 = s.eng k1) ∧
    (∀ k1, (s.updBoot f).byte k1 = s.byte k1) ∧
    (∀ k1, (s.updBoot f).lane k1 = s.lane k1) ∧
    (∀ k1, (s.updBoot f).clock k1 = s.clock k1) ∧
    (∀ k1, (s.updBoot f).mark k1 = s.mark k1) ∧
    (∀ k1 k2, (s.updBoot f).progWord k1 k2 = s.progWord k1 k2) ∧
    (∀ k1, (s.updBoot f).resource k1 = s.resource k1) :=
  ⟨fun _ => rfl, fun _ _ => rfl, fun _ _ => rfl, fun _ => rfl, fun _ => rfl, fun _ => rfl, fun _ => rfl, fun _ => rfl, fun _ _ => rfl, fun _ => rfl⟩

@[simp] theorem State.updCup_reads (s : State) (f : Cup → Cup) :
    (∀ k1, (s.updCup f).reg k1 = s.reg k1) ∧
    (∀ k1 k2, (s.updCup f).fld k1 k2 = s.fld k1 k2) ∧
    (∀ k1 k2, (s.updCup f).flag k1 k2 = s.flag k1 k2) ∧
    (∀ k1, (s.updCup f).eng k1 = s.eng k1) ∧
    (∀ k1, (s.updCup f).byte k1 = s.byte k1) ∧
    (∀ k1, (s.updCup f).lane k1 = s.lane k1) ∧
    (∀ k1, (s.updCup f).clock k1 = s.clock k1) ∧
    (∀ k1, (s.updCup f).mark k1 = s.mark k1) ∧
    (∀ k1 k2, (s.updCup f).progWord k1 k2 = s.progWord k1 k2) ∧
    (∀ k1, (s.updCup f).resource k1 = s.resource k1) :=
  ⟨fun _ => rfl, fun _ _ => rfl, fun _ _ => rfl, fun _ => rfl, fun _ => rfl, fun _ => rfl, fun _ => rfl, fun _ => rfl, fun _ _ => rfl, fun _ => rfl⟩

@[simp] theorem State.updDie_reads (s : State) (f : Die → Die) :
    (∀ k1, (s.updDie f).reg k1 = s.reg k1) ∧
    (∀ k1 k2, (s.updDie f).fld k1 k2 = s.fld k1 k2) ∧
    (∀ k1 k2, (s.updDie f).flag k1 k2 = s.flag k1 k2) ∧
    (∀ k1, (s.updDie f).eng k1 = s.eng k1) ∧
    (∀ k1, (s.updDie f).byte k1 = s.byte k1) ∧
    (∀ k1, (s.updDie f).lane k1 = s.lane k1) ∧
    (∀ k1, (s.updDie f).clock k1 = s.clock k1) ∧
    (∀ k1, (s.updDie f).mark k1 = s.mark k1) ∧
    (∀ k1 k2, (s.updDie f).progWord k1 k2 = s.progWord k1 k2) ∧
    (∀ k1, (s.updDie f).resource k1 = s.resource k1) :=
  ⟨fun _ => rfl, fun _ _ => rfl, fun _ _ => rfl, fun _ => rfl, fun _ => rfl, fun _ => rfl, fun _ => rfl, fun _ => rfl, fun _ _ => rfl, fun _ => rfl⟩

@[simp] theorem State.updSeal_reads (s : State) (f : Seal → Seal) :
    (∀ k1, (s.updSeal f).reg k1 = s.reg k1) ∧
    (∀ k1 k2, (s.updSeal f).fld k1 k2 = s.fld k1 k2) ∧
    (∀ k1 k2, (s.updSeal f).flag k1 k2 = s.flag k1 k2) ∧
    (∀ k1, (s.updSeal f).eng k1 = s.eng k1) ∧
    (∀ k1, (s.updSeal f).byte k1 = s.byte k1) ∧
    (∀ k1, (s.updSeal f).lane k1 = s.lane k1) ∧
    (∀ k1, (s.updSeal f).clock k1 = s.clock k1) ∧
    (∀ k1, (s.updSeal f).mark k1 = s.mark k1) ∧
    (∀ k1 k2, (s.updSeal f).progWord k1 k2 = s.progWord k1 k2) ∧
    (∀ k1, (s.updSeal f).resource k1 = s.resource k1) :=
  ⟨fun _ => rfl, fun _ _ => rfl, fun _ _ => rfl, fun _ => rfl, fun _ => rfl, fun _ => rfl, fun _ => rfl, fun _ => rfl, fun _ _ => rfl, fun _ => rfl⟩

@[simp] theorem State.updBb_reads (s : State) (f : Bridge → Bridge) :
    (∀ k1, (s.updBb f).reg k1 = s.reg k1) ∧
    (∀ k1 k2, (s.updBb f).fld k1 k2 = s.fld k1 k2) ∧
    (∀ k1 k2, (s.updBb f).flag k1 k2 = s.flag k1 k2) ∧
    (∀ k1, (s.updBb f).eng k1 = s.eng k1) ∧
    (∀ k1, (s.updBb f).byte k1 = s.byte k1) ∧
    (∀ k1, (s.updBb f).lane k1 = s.lane k1) ∧
    (∀ k1, (s.updBb f).clock k1 = s.clock k1) ∧
    (∀ k1, (s.updBb f).mark k1 = s.mark k1) ∧
    (∀ k1 k2, (s.updBb f).progWord k1 k2 = s.progWord k1 k2) ∧
    (∀ k1, (s.updBb f).resource k1 = s.resource k1) :=
  ⟨fun _ => rfl, fun _ _ => rfl, fun _ _ => rfl, fun _ => rfl, fun _ => rfl, fun _ => rfl, fun _ => rfl, fun _ => rfl, fun _ _ => rfl, fun _ => rfl⟩

@[simp] theorem State.updCamp_reads (s : State) (f : Camp → Camp) :
    (∀ k1, (s.updCamp f).reg k1 = s.reg k1) ∧
    (∀ k1 k2, (s.updCamp f).fld k1 k2 = s.fld k1 k2) ∧
    (∀ k1 k2, (s.updCamp f).flag k1 k2 = s.flag k1 k2) ∧
    (∀ k1, (s.updCamp f).eng k1 = s.eng k1) ∧
    (∀ k1, (s.updCamp f).byte k1 = s.byte k1) ∧
    (∀ k1, (s.updCamp f).lane k1 = s.lane k1) ∧
    (∀ k1, (s.updCamp f).clock k1 = s.clock k1) ∧
    (∀ k1, (s.updCamp f).mark k1 = s.mark k1) ∧
    (∀ k1 k2, (s.updCamp f).progWord k1 k2 = s.progWord k1 k2) ∧
    (∀ k1, (s.updCamp f).resource k1 = s.resource k1) :=
  ⟨fun _ => rfl, fun _ _ => rfl, fun _ _ => rfl, fun _ => rfl, fun _ => rfl, fun _ => rfl, fun _ => rfl, fun _ => rfl, fun _ _ => rfl, fun _ => rfl⟩

@[simp] theorem State.updStar_reads (s : State) (f : Star → Star) :
    (∀ k1, (s.updStar f).reg k1 = s.reg k1) ∧
    (∀ k1 k2, (s.updStar f).fld k1 k2 = s.fld k1 k2) ∧
    (∀ k1 k2, (s.updStar f).flag k1 k2 = s.flag k1 k2) ∧
    (∀ k1, (s.updStar f).eng k1 = s.eng k1) ∧
    (∀ k1, (s.updStar f).byte k1 = s.byte k1) ∧
    (∀ k1, (s.updStar f).lane k1 = s.lane k1) ∧
    (∀ k1, (s.updStar f).clock k1 = s.clock k1) ∧
    (∀ k1, (s.updStar f).mark k1 = s.mark k1) ∧
    (∀ k1 k2, (s.updStar f).progWord k1 k2 = s.progWord k1 k2) ∧
    (∀ k1, (s.updStar f).resource k1 = s.resource k1) :=
  ⟨fun _ => rfl, fun _ _ => rfl, fun _ _ => rfl, fun _ => rfl, fun _ => rfl, fun _ => rfl, fun _ => rfl, fun _ => rfl, fun _ _ => rfl, fun _ => rfl⟩

@[simp] theorem State.updCan_reads (s : State) (n : Nat) (f : CanCtl → CanCtl) :
    (∀ k1, (s.updCan n f).reg k1 = s.reg k1) ∧
    (∀ k1 k2, (s.updCan n f).fld k1 k2 = s.fld k1 k2) ∧
    (∀ k1 k2, (s.updCan n f).flag k1 k2 = s.flag k1 k2) ∧
    (∀ k1, (s.updCan n f).eng k1 = s.eng k1) ∧
    (∀ k1, (s.updCan n f).byte k1 = s.byte k1) ∧
    (∀ k1, (s.updCan n f).lane k1 = s.lane k1) ∧
    (∀ k1, (s.updCan n f).clock k1 = s.clock k1) ∧
    (∀ k1, (s.updCan n f).mark k1 = s.mark k1) ∧
    (∀ k1 k2, (s.updCan n f).progWord k1 k2 = s.progWord k1 k2) ∧
    (∀ k1, (s.updCan n f).resource k1 = s.resource k1) :=
  ⟨fun _ => rfl, fun _ _ => rfl, fun _ _ => rfl, fun _ => rfl, fun _ => rfl, fun _ => rfl, fun _ => rfl, fun _ => rfl, fun _ _ => rfl, fun _ => rfl⟩

@[simp] theorem State.updSeq_reads (s : State) (c q : Nat) (f : Seq → Seq) :
    (∀ k1, (s.updSeq c q f).reg k1 = s.reg k1) ∧
    (∀ k1 k2, (s.updSeq c q f).fld k1 k2 = s.fld k1 k2) ∧
    (∀ k1 k2, (s.updSeq c q f).flag k1 k2 = s.flag k1 k2) ∧
    (∀ k1, (s.updSeq c q f).eng k1 = s.eng k1) ∧
    (∀ k1, (s.updSeq c q f).byte k1 = s.byte k1) ∧
    (∀ k1, (s.updSeq c q f).lane k1 = s.lane k1) ∧
    (∀ k1, (s.updSeq c q f).clock k1 = s.clock k1) ∧
    (∀ k1, (s.updSeq c q f).mark k1 = s.mark k1) ∧
    (∀ k1 k2, (s.updSeq c q f).progWord k1 k2 = s.progWord k1 k2) ∧
    (∀ k1, (s.updSeq c q f).resource k1 = s.resource k1) :=
  ⟨fun _ => rfl, fun _ _ => rfl, fun _ _ => rfl, fun _ => rfl, fun _ => rfl, fun _ => rfl, fun _ => rfl, fun _ => rfl, fun _ _ => rfl, fun _ => rfl⟩

@[simp] theorem State.updPlm_reads (s : State) (f : Plm → Plm) :
    (∀ k1, (s.updPlm f).reg k1 = s.reg k1) ∧
    (∀ k1 k2, (s.updPlm f).fld k1 k2 = s.fld k1 k2) ∧
    (∀ k1 k2, (s.updPlm f).flag k1 k2 = s.flag k1 k2) ∧
    (∀ k1, (s.updPlm f).eng k1 = s.eng k1) ∧
    (∀ k1, (s.updPlm f).byte k1 = s.byte k1) ∧
    (∀ k1, (s.updPlm f).lane k1 = s.lane k1) ∧
    (∀ k1, (s.updPlm f).clock k1 = s.clock k1) ∧
    (∀ k1, (s.updPlm f).mark k1 = s.mark k1) ∧
    (∀ k1 k2, (s.updPlm f).progWord k1 k2 = s.progWord k1 k2) ∧
    (∀ k1, (s.updPlm f).resource k1 = s.resource k1) :=
  ⟨fun _ => rfl, fun _ _ => rfl, fun _ _ => rfl, fun _ => rfl, fun _ => rfl, fun _ => rfl, fun _ => rfl, fun _ => rfl, fun _ _ => rfl, fun _ => rfl⟩

@[simp] theorem State.updResource_reads (s : State) (r : Nat) (f : Resource → Resource) :
    (∀ k1, (s.updResource r f).reg k1 = s.reg k1) ∧
    (∀ k1 k2, (s.updResource r f).fld k1 k2 = s.fld k1 k2) ∧
    (∀ k1 k2, (s.updResource r f).flag k1 k2 = s.flag k1 k2) ∧
    (∀ k1, (s.updResource r f).eng k1 = s.eng k1) ∧
    (∀ k1, (s.updResource r f).byte k1 = s.byte k1) ∧
    (∀ k1, (s.updResource r f).lane k1 = s.lane k1) ∧
    (∀ k1, (s.updResource r f).clock k1 = s.clock k1) ∧
    (∀ k1, (s.updResource r f).mark k1 = s.mark k1) ∧
    (∀ k1 k2, (s.updResource r f).progWord k1 k2 = s.progWord k1 k2) :=
  ⟨fun _ => rfl, fun _ _ => rfl, fun _ _ => rfl, fun _ => rfl, fun _ => rfl, fun _ => rfl, fun _ => rfl, fun _ => rfl, fun _ _ => rfl⟩

end Sys2Proof.Machine
end

