-- ==== Sys2Proof/Laws/Tables.lean ====
section
/-! SUPPORT. Sparse tables: reading after writing, and their canonical form; bit fields of a word. -/

set_option autoImplicit false

namespace Sys2Proof.Machine

open Sys2Proof

variable {α : Type}

/-! ### Reading after writing, for every list -/

theorem Tbl.get_drop_same (d : Nat → α) (t : Tbl α) (k : Nat) : Tbl.get d (t.drop k) k = d k := by
  induction t with
  | nil => rfl
  | cons e t ih =>
    obtain ⟨k', v⟩ := e
    by_cases h : k' = k
    · simp [Tbl.drop, h, ih]
    · simp [Tbl.drop, h, Tbl.get, ih]

theorem Tbl.get_drop_other (d : Nat → α) (t : Tbl α) {k j : Nat} (h : j ≠ k) : Tbl.get d (t.drop k) j = Tbl.get d t j := by
  induction t with
  | nil => rfl
  | cons e t ih =>
    obtain ⟨k', v⟩ := e
    by_cases h1 : k' = k
    · have h2 : k' ≠ j := fun x => h (x ▸ h1)
      simp [Tbl.drop, h1, Tbl.get, ih, h1 ▸ h2]
    · have h3 : Tbl.drop ((k', v) :: t) k = (k', v) :: Tbl.drop t k := by simp [Tbl.drop, h1]
      rw [h3]
      by_cases h2 : k' = j <;> simp [Tbl.get, h2, ih]

theorem Tbl.get_ins_same (d : Nat → α) (t : Tbl α) (k : Nat) (v : α) : Tbl.get d (t.ins k v) k = v := by
  induction t with
  | nil => simp [Tbl.ins, Tbl.get]
  | cons e t ih =>
    obtain ⟨k', v'⟩ := e
    by_cases h1 : k < k'
    · simp [Tbl.ins, h1, Tbl.get]
    · by_cases h2 : k' = k
      · simp [Tbl.ins, h2, Tbl.get]
      · simp [Tbl.ins, h1, h2, Tbl.get, ih]

theorem Tbl.get_ins_other (d : Nat → α) (t : Tbl α) {k j : Nat} (v : α) (h : j ≠ k) :
    Tbl.get d (t.ins k v) j = Tbl.get d t j := by
  induction t with
  | nil => simp [Tbl.ins, Tbl.get, Ne.symm h]
  | cons e t ih =>
    obtain ⟨k', v'⟩ := e
    by_cases h1 : k < k'
    · simp [Tbl.ins, h1, Tbl.get, Ne.symm h]
    · by_cases h2 : k' = k
      · simp [Tbl.ins, h2, Tbl.get, Ne.symm h]
      · by_cases h3 : k' = j <;> simp [Tbl.ins, h1, h2, Tbl.get, h3, ih]
        have h4 : ¬k < j := h3 ▸ h1
        simp [h4, h, Tbl.get]

/-- A read of the key written gives the value written. -/
@[simp] theorem Tbl.get_set_same [DecidableEq α] (d : Nat → α) (t : Tbl α) (k : Nat) (v : α) :
    Tbl.get d (Tbl.set d t k v) k = v := by
  by_cases h : v = d k
  · simp [Tbl.set, h, Tbl.get_drop_same]
  · simp [Tbl.set, h, Tbl.get_ins_same]

/-- A write leaves every other key alone. -/
theorem Tbl.get_set_other [DecidableEq α] (d : Nat → α) (t : Tbl α) {k j : Nat} (v : α) (h : j ≠ k) :
    Tbl.get d (Tbl.set d t k v) j = Tbl.get d t j := by
  by_cases h1 : v = d k
  · simp [Tbl.set, h1, Tbl.get_drop_other d t h]
  · simp [Tbl.set, h1, Tbl.get_ins_other d t v h]

/-- A cleared key reads its default, every other key as before. -/
theorem Tbl.get_clear (d : Nat → α) (p : Nat → Bool) (t : Tbl α) (k : Nat) :
    Tbl.get d (Tbl.clear p t) k = if p k then d k else Tbl.get d t k := by
  induction t with
  | nil => simp [Tbl.clear, Tbl.get]
  | cons e t ih =>
    obtain ⟨k', v⟩ := e
    simp only [Tbl.clear] at ih ⊢
    by_cases h : p k' = true
    · by_cases h2 : k' = k
      · simp [h, ih, h2 ▸ h]
      · simp [h, ih, Tbl.get, h2]
    · by_cases h2 : k' = k
      · subst h2
        simp [h, Tbl.get]
      · simp [h, Tbl.get, h2, ih]

/-! ### The canonical form -/

theorem Tbl.wf_nil (d : Nat → α) : Tbl.wf d ([] : Tbl α) := ⟨List.Pairwise.nil, by simp⟩

theorem Tbl.drop_mem {t : Tbl α} {k : Nat} {e : Nat × α} (h : e ∈ t.drop k) : e ∈ t ∧ e.1 ≠ k := by
  induction t with
  | nil => simp [Tbl.drop] at h
  | cons x t ih =>
    obtain ⟨k', v⟩ := x
    by_cases h1 : k' = k
    · simp only [Tbl.drop, h1, if_true] at h
      exact ⟨List.mem_cons_of_mem _ (ih h).1, (ih h).2⟩
    · simp only [Tbl.drop, h1, if_false, List.mem_cons] at h
      rcases h with h | h
      · subst h
        exact ⟨by simp, h1⟩
      · exact ⟨List.mem_cons_of_mem _ (ih h).1, (ih h).2⟩

theorem Tbl.wf_drop (d : Nat → α) {t : Tbl α} (h : Tbl.wf d t) (k : Nat) : Tbl.wf d (t.drop k) := by
  refine ⟨?_, fun e he => h.2 e (Tbl.drop_mem he).1⟩
  have hp := h.1
  clear h
  induction t with
  | nil => simp [Tbl.drop]
  | cons x t ih =>
    obtain ⟨k', v⟩ := x
    rw [List.pairwise_cons] at hp
    by_cases h1 : k' = k
    · simpa [Tbl.drop, h1] using ih hp.2
    · simp only [Tbl.drop, h1, if_false, List.pairwise_cons]
      exact ⟨fun e he => hp.1 e (Tbl.drop_mem he).1, ih hp.2⟩

theorem Tbl.ins_mem {t : Tbl α} {k : Nat} {v : α} {e : Nat × α} (h : e ∈ t.ins k v) : e = (k, v) ∨ e ∈ t := by
  induction t with
  | nil => simpa [Tbl.ins] using h
  | cons x t ih =>
    obtain ⟨k', v'⟩ := x
    by_cases h1 : k < k'
    · simpa [Tbl.ins, h1] using h
    · by_cases h2 : k' = k
      · simp only [Tbl.ins, h2, Nat.lt_irrefl, if_false, if_true, List.mem_cons] at h
        rcases h with h | h
        · exact .inl h
        · exact .inr (List.mem_cons_of_mem _ h)
      · simp only [Tbl.ins, h1, h2, if_false, List.mem_cons] at h
        rcases h with h | h
        · exact .inr (by simp [h])
        · rcases ih h with h | h
          · exact .inl h
          · exact .inr (List.mem_cons_of_mem _ h)

theorem Tbl.wf_ins (d : Nat → α) {t : Tbl α} (h : Tbl.wf d t) {k : Nat} {v : α} (hv : v ≠ d k) : Tbl.wf d (t.ins k v) := by
  refine ⟨?_, fun e he => ?_⟩
  · have hp := h.1
    clear h
    induction t with
    | nil => simp [Tbl.ins]
    | cons x t ih =>
      obtain ⟨k', v'⟩ := x
      rw [List.pairwise_cons] at hp
      by_cases h1 : k < k'
      · simp only [Tbl.ins, h1, if_true, List.pairwise_cons, List.mem_cons]
        refine ⟨fun e he => ?_, hp⟩
        rcases he with he | he
        · simpa [he] using h1
        · exact lt_trans h1 (hp.1 e he)
      · by_cases h2 : k' = k
        · simp only [Tbl.ins, h2, Nat.lt_irrefl, if_false, if_true, List.pairwise_cons]
          exact ⟨fun e he => by simpa [h2] using hp.1 e he, hp.2⟩
        · simp only [Tbl.ins, h1, h2, if_false, List.pairwise_cons]
          refine ⟨fun e he => ?_, ih hp.2⟩
          rcases Tbl.ins_mem he with he | he
          · subst he
            exact lt_of_le_of_ne (Nat.le_of_not_lt h1) h2
          · exact hp.1 e he
  · rcases Tbl.ins_mem he with he | he
    · subst he
      exact hv
    · exact h.2 e he

/-- A write keeps the canonical form. -/
theorem Tbl.wf_set [DecidableEq α] (d : Nat → α) {t : Tbl α} (h : Tbl.wf d t) (k : Nat) (v : α) :
    Tbl.wf d (Tbl.set d t k v) := by
  by_cases h1 : v = d k
  · simpa only [Tbl.set, h1, if_true] using Tbl.wf_drop d h k
  · simpa only [Tbl.set, h1, if_false] using Tbl.wf_ins d h h1

/-- Clearing keeps the canonical form. -/
theorem Tbl.wf_clear (d : Nat → α) {t : Tbl α} (h : Tbl.wf d t) (p : Nat → Bool) : Tbl.wf d (Tbl.clear p t) :=
  ⟨h.1.filter _, fun e he => h.2 e (List.mem_of_mem_filter he)⟩

end Sys2Proof.Machine
end

