-- ==== Sys2Proof/Laws/Ops.lean ====
section
/-! SUPPORT. The shared operations: what a read gives after a write, the issue of an instruction, the gate before a block, and the
canonical form of memory and of the register words. -/

set_option autoImplicit false

namespace Sys2Proof.Machine

open Sys2Proof

/-! ### Bit fields -/

theorem Fld.mask_toNat (f : Fld) (h : f.lo + f.width ≤ 32) : f.mask.toNat = (2 ^ f.width - 1) * 2 ^ f.lo := by
  have h1 : 2 ^ f.width * 2 ^ f.lo ≤ 2 ^ 32 := by
    rw [← Nat.pow_add]
    exact Nat.pow_le_pow_right (by decide) (by omega)
  have h2 : 0 < 2 ^ f.width := Nat.two_pow_pos _
  have h3 : 0 < 2 ^ f.lo := Nat.two_pow_pos _
  have h4 : (2 ^ f.width - 1) * 2 ^ f.lo < 2 ^ 32 := by
    have : (2 ^ f.width - 1) * 2 ^ f.lo < 2 ^ f.width * 2 ^ f.lo := Nat.mul_lt_mul_of_pos_right (by omega) h3
    omega
  simp only [Fld.mask, BitVec.toNat_ofNat]
  exact Nat.mod_eq_of_lt h4

theorem Fld.mask_getLsbD (f : Fld) (h : f.lo + f.width ≤ 32) (i : Nat) :
    f.mask.getLsbD i = (decide (f.lo ≤ i) && decide (i < f.lo + f.width)) := by
  rw [BitVec.getLsbD, Fld.mask_toNat f h, Nat.testBit_mul_two_pow, Nat.testBit_two_pow_sub_one]
  by_cases h1 : f.lo ≤ i <;> simp [h1]
  omega

theorem Fld.put_getLsbD (f : Fld) (h : f.lo + f.width ≤ 32) (w : Word) (v i : Nat) :
    (f.put w v).getLsbD i = if f.lo ≤ i ∧ i < f.lo + f.width then v.testBit (i - f.lo) else w.getLsbD i := by
  have h1 : (BitVec.ofNat 32 (v % 2 ^ f.width * 2 ^ f.lo)).getLsbD i =
      (decide (f.lo ≤ i) && decide (i < f.lo + f.width) && v.testBit (i - f.lo)) := by
    rw [BitVec.getLsbD_ofNat, Nat.testBit_mul_two_pow, Nat.testBit_mod_two_pow]
    by_cases h2 : f.lo ≤ i
    · by_cases h3 : i < f.lo + f.width
      · have h4 : i < 32 := by omega
        have h5 : i - f.lo < f.width := by omega
        simp [h2, h3, h4, h5]
      · have h5 : ¬i - f.lo < f.width := by omega
        simp [h3, h5]
    · simp [h2]
  simp only [Fld.put, BitVec.getLsbD_or, BitVec.getLsbD_and, BitVec.getLsbD_not, Fld.mask_getLsbD f h, h1]
  by_cases h2 : f.lo ≤ i <;> by_cases h3 : i < f.lo + f.width <;> simp [h2, h3] <;>
    exact fun h4 => BitVec.lt_of_getLsbD h4

theorem Fld.get_testBit (f : Fld) (w : Word) (i : Nat) :
    (f.get w).testBit i = (decide (i < f.width) && w.getLsbD (f.lo + i)) := by
  simp [Fld.get, bitsOf, BitVec.getLsbD, Nat.testBit_mod_two_pow, Nat.testBit_div_two_pow, Nat.add_comm]

/-- A field reads back the low bits of what was put there. -/
theorem Fld.get_put_same (f : Fld) (h : f.lo + f.width ≤ 32) (w : Word) (v : Nat) : f.get (f.put w v) = v % 2 ^ f.width := by
  refine Nat.eq_of_testBit_eq fun i => ?_
  rw [Fld.get_testBit, Fld.put_getLsbD f h, Nat.testBit_mod_two_pow]
  by_cases h1 : i < f.width <;> simp [h1]

/-- A field keeps its value when a disjoint field is put. -/
theorem Fld.get_put_other (f g : Fld) (h : f.lo + f.width ≤ 32) (hd : g.lo + g.width ≤ f.lo ∨ f.lo + f.width ≤ g.lo) (w : Word)
    (v : Nat) : g.get (f.put w v) = g.get w := by
  refine Nat.eq_of_testBit_eq fun i => ?_
  rw [Fld.get_testBit, Fld.get_testBit, Fld.put_getLsbD f h]
  by_cases h1 : i < g.width <;> simp [h1]
  omega

/-! ### Reads after writes -/

variable (s : State)

@[simp] theorem State.reg_setReg_same (a : Nat) (w : Word) : (s.setReg a w).reg a = w := by simp [State.reg, State.setReg]

theorem State.reg_setReg_other {a b : Nat} (w : Word) (h : b ≠ a) : (s.setReg a w).reg b = s.reg b := by
  simp [State.reg, State.setReg, Tbl.get_set_other _ _ _ h]

@[simp] theorem State.reg_setFld_same (a : Nat) (f : Fld) (v : Nat) : (s.setFld a f v).reg a = f.put (s.reg a) v := by
  simp [State.setFld]

theorem State.reg_setFld_other {a b : Nat} (f : Fld) (v : Nat) (h : b ≠ a) : (s.setFld a f v).reg b = s.reg b :=
  s.reg_setReg_other _ h

@[simp] theorem State.reg_setFlag_same (a : Nat) (f : Fld) (b : Bool) : (s.setFlag a f b).reg a = f.put (s.reg a) (bit b) := by
  simp [State.setFlag]

theorem State.reg_setFlag_other {a b : Nat} (f : Fld) (v : Bool) (h : b ≠ a) : (s.setFlag a f v).reg b = s.reg b :=
  s.reg_setReg_other _ h

theorem State.reg_resetRegs (p : Nat → Bool) (a : Nat) : (s.resetRegs p).reg a = if p a then regReset a else s.reg a := by
  simp [State.reg, State.resetRegs, Tbl.get_clear]

@[simp] theorem State.reg_answer (r : Resp) (a : Nat) : (s.answer r).reg a = s.reg a := rfl

@[simp] theorem State.resp_answer (r : Resp) : (s.answer r).resp = r := rfl

@[simp] theorem State.eng_setEng_same (e : Nat) (x : Engine) : (s.setEng e x).eng e = x := by simp [State.eng, State.setEng]

theorem State.eng_setEng_other {e k : Nat} (x : Engine) (h : k ≠ e) : (s.setEng e x).eng k = s.eng k := by
  simp [State.eng, State.setEng, Tbl.get_set_other _ _ _ h]

@[simp] theorem State.eng_updEng_same (e : Nat) (f : Engine → Engine) : (s.updEng e f).eng e = f (s.eng e) := by
  simp [State.updEng]

theorem State.eng_updEng_other {e k : Nat} (f : Engine → Engine) (h : k ≠ e) : (s.updEng e f).eng k = s.eng k :=
  s.eng_setEng_other _ h

@[simp] theorem State.byte_setByte_same (a : Nat) (b : Byte) : (s.setByte a b).byte a = b := by simp [State.byte, State.setByte]

theorem State.byte_setByte_other {a c : Nat} (b : Byte) (h : c ≠ a) : (s.setByte a b).byte c = s.byte c := by
  simp [State.byte, State.setByte, Tbl.get_set_other _ _ _ h]

/-- A stored list of bytes reads back, and every other byte of memory is as before. -/
theorem State.byte_setBytes (s : State) (a : Nat) (d : List Byte) (c : Nat) :
    (s.setBytes a d).byte c = if a ≤ c ∧ c < a + d.length then d.getD (c - a) 0 else s.byte c := by
  induction d generalizing s a with
  | nil => simp [State.setBytes]
  | cons b t ih =>
    rw [State.setBytes, ih]
    by_cases h1 : c = a
    · subst h1
      simp
    · rw [s.byte_setByte_other b h1]
      by_cases h2 : a + 1 ≤ c ∧ c < a + 1 + t.length
      · have h3 : a ≤ c ∧ c < a + (b :: t).length := by simp; omega
        have h4 : c - a = (c - (a + 1)) + 1 := by omega
        rw [if_pos h2, if_pos h3, h4, List.getD_cons_succ]
      · have h3 : ¬(a ≤ c ∧ c < a + (b :: t).length) := by simp; omega
        rw [if_neg h2, if_neg h3]

theorem State.byte_eraseMem (p : Nat → Bool) (a : Nat) : (s.eraseMem p).byte a = if p a then 0 else s.byte a := by
  simp [State.byte, State.eraseMem, Tbl.get_clear, emptyByte]

@[simp] theorem State.lane_updLane_same (l : Nat) (f : Lane → Lane) : (s.updLane l f).lane l = f (s.lane l) := by
  simp [State.lane, State.updLane]

theorem State.lane_updLane_other {l k : Nat} (f : Lane → Lane) (h : k ≠ l) : (s.updLane l f).lane k = s.lane k := by
  simp [State.lane, State.updLane, Tbl.get_set_other _ _ _ h]

@[simp] theorem State.mark_setMark_same (g : Nat) (m : Option EccMark) : (s.setMark g m).mark g = m := by
  simp [State.mark, State.setMark]

theorem State.mark_setMark_other {g k : Nat} (m : Option EccMark) (h : k ≠ g) : (s.setMark g m).mark k = s.mark k := by
  simp [State.mark, State.setMark, Tbl.get_set_other _ _ _ h]

@[simp] theorem State.resource_updResource_same (r : Nat) (f : Resource → Resource) :
    (s.updResource r f).resource r = f (s.resource r) := by
  simp [State.resource, State.updResource]

theorem State.resource_updResource_other {r k : Nat} (f : Resource → Resource) (h : k ≠ r) :
    (s.updResource r f).resource k = s.resource k := by
  simp [State.resource, State.updResource, Tbl.get_set_other _ _ _ h]

theorem State.progWord_setProgWord_same (e w : Nat) (v : PWord) : (s.setProgWord e w v).progWord e w = v := by
  simp [State.progWord, State.setProgWord]

theorem State.progWord_setProgWord_other {e w e' w' : Nat} (v : PWord) (h : e' * 16384 + w' % 16384 ≠ e * 16384 + w % 16384) :
    (s.setProgWord e w v).progWord e' w' = s.progWord e' w' := by
  simp only [State.progWord, State.setProgWord, Tbl.get_set_other _ _ _ h]

/-! ### The canonical form -/

theorem State.setByte_wf {s : State} (h : Tbl.wf emptyByte s.mem) (a : Nat) (b : Byte) : Tbl.wf emptyByte (s.setByte a b).mem :=
  Tbl.wf_set _ h _ _

theorem State.setBytes_wf {s : State} (h : Tbl.wf emptyByte s.mem) (a : Nat) (d : List Byte) :
    Tbl.wf emptyByte (s.setBytes a d).mem := by
  induction d generalizing s a with
  | nil => exact h
  | cons b t ih => exact ih (State.setByte_wf h a b) (a + 1)

theorem State.setMemWord_wf {s : State} (h : Tbl.wf emptyByte s.mem) (a : Nat) (w : Word) :
    Tbl.wf emptyByte (s.setMemWord a w).mem := State.setBytes_wf h a _

theorem State.eraseMem_wf {s : State} (h : Tbl.wf emptyByte s.mem) (p : Nat → Bool) : Tbl.wf emptyByte (s.eraseMem p).mem :=
  Tbl.wf_clear _ h p

theorem State.setReg_wf {s : State} (h : Tbl.wf regReset s.regs) (a : Nat) (w : Word) : Tbl.wf regReset (s.setReg a w).regs :=
  Tbl.wf_set _ h _ _

theorem State.resetRegs_wf {s : State} (h : Tbl.wf regReset s.regs) (p : Nat → Bool) : Tbl.wf regReset (s.resetRegs p).regs :=
  Tbl.wf_clear _ h p

/-! ### The gate before a block -/

/-- An access that ends otherwise than with a bus error is not reported. -/
theorem State.reported_good (i : Init) (a : Nat) (h : s.resp ≠ .busError) : s.reported i a = s := by simp [State.reported, h]

/-- An open gate lets the access through; its bus error is reported. -/
theorem State.gate_open {i : Init} {a : Nat} (f : State → State) (h : s.regShut i a = false) :
    s.gate i a f = (f s).reported i a := by
  simp [State.gate, h]

theorem State.gate_open_good {i : Init} {a : Nat} {f : State → State} (h : s.regShut i a = false)
    (hr : (f s).resp ≠ .busError) : s.gate i a f = f s := by
  rw [s.gate_open f h, State.reported_good _ i a hr]

/-- A shut gate answers a bus error and reports it. -/
theorem State.gate_shut {i : Init} {a : Nat} (f : State → State) (h : s.regShut i a = true) :
    s.gate i a f = (s.answer .busError).reported i a := by
  simp [State.gate, h]

/-! ### Issue -/

/-- Words free of errors are fetched without effect (R170). -/
theorem State.fetch_clean (e pc k n : Nat) (h : 32 ≤ e ∨ ∀ j, j < n → s.mark (progAddr e (pc + (k + j))) = none) :
    s.fetch e pc k n = (none, s) := by
  induction n generalizing k with
  | zero => rfl
  | succ n ih =>
    have h0 : s.fetchWord e (pc + k) = (false, s) := by
      unfold State.fetchWord
      split
      · rcases h with h | h
        · omega
        · have := h 0 (by omega)
          simp only [Nat.add_zero] at this
          simp [State.checkGranule, this]
      · rfl
    rw [State.fetch, h0]
    refine ih (k + 1) ?_
    rcases h with h | h
    · exact .inl h
    · refine .inr fun j hj => ?_
      have := h (j + 1) (by omega)
      rwa [show k + (j + 1) = k + 1 + j by omega] at this

/-- A ready processor whose fetched words hold no error executes the body, the PC kept in SYS_Ete_PC. -/
theorem State.issue_clean (e : Nat) (c : Code) (body : State → State) (hr : s.ready e = true) (hx : c.x.length ≤ 2)
    (h : 32 ≤ e ∨ ∀ j, j < c.len → s.mark (progAddr e ((s.eng e).pc.toNat + j)) = none) :
    s.issue e c body = body (s.updEng e fun x => { x with lastPc := x.pc }) := by
  have h2 : ¬2 < c.x.length := by omega
  have h3 : (s.updEng e fun x => { x with lastPc := x.pc }).fetch e (s.eng e).pc.toNat 0 c.len =
      (none, s.updEng e fun x => { x with lastPc := x.pc }) := by
    refine State.fetch_clean _ e _ 0 c.len ?_
    rcases h with h | h
    · exact .inl h
    · refine .inr fun j hj => ?_
      simp [h j hj]
  simp only [State.issue, hr, if_true, State.execute, h2, if_false, h3]

/-- A processor that is not ready issues nothing. -/
theorem State.issue_not_ready (e : Nat) (c : Code) (body : State → State) (h : s.ready e = false) : s.issue e c body = s := by
  simp [State.issue, h]

end Sys2Proof.Machine
end

