-- ==== Sys2Proof/WellFormed.lean ====
section
/-! DEFINITION. Which commands are well formed: the bounds that the types of their operands leave open. -/

set_option autoImplicit false

namespace Sys2Proof

/-- A fabric address: the address space has 32 bits (R29). -/
def addrOk (a : Nat) : Bool := Nat.blt a (2 ^ 32)

/-- An access of 1-32 bytes within one aligned block of 32 (R465). -/
def Access.one (op : Access) : Bool :=
  addrOk op.addr && Nat.ble 1 op.len && Nat.ble op.len 32 && op.addr / 32 == (op.addr + op.len - 1) / 32

/-- A register access names an address and a size of 1-32 bytes (R12). -/
def regOk (a size : Nat) : Bool := addrOk a && Nat.ble 1 size && Nat.ble size 32

/-- EXT words before an instruction: more than three say nothing a third does not (R74). -/
def extOk (x : List (BitVec 11)) : Bool := Nat.ble x.length 3

/-- The EXT words of an addressing mode. -/
def Mode.ok : Mode → Bool
  | .disp x _ => extOk x
  | _ => true

/-- The EXT words of an address-format source. -/
def ASrc.ok : ASrc → Bool
  | .imm x _ => extOk x
  | _ => true

/-- An agent page (R453). -/
def pageNo (p : Nat) : Bool := Nat.blt p 36

/-- The transaction that a FABRIC_TRANSACTION presents. -/
def TxnSource.ok : TxnSource → Bool
  | .held _ => true
  | .direct _ op => op.one

/-- Whether a command is well formed. The operands of the commands not named here are bounded by their types. -/
def Instr.wf : Instr → Bool
  | .addi _ _ x _ | .cmpi _ _ x _ | .andi _ _ x _ | .movi _ _ x _ | .ldi _ _ x _ | .branch _ _ x _ | .bsr _ x _ => extOk x
  | .ld _ _ _ _ m | .st _ _ _ _ m => m.ok
  | .mova _ _ r | .adda _ _ r | .cmpa _ _ r => r.ok
  | .programStoreWrite _ a d => addrOk a && Nat.ble 1 d.length && Nat.ble d.length 32
  | .programStoreRead _ a n _ => addrOk a && Nat.ble 1 n && Nat.ble n 32
  | .registerWrite _ a n _ | .clearingRead _ a n _ | .latchingRead _ a n => regOk a n
  | .fabricTransaction t _ => t.ok
  | .pcieRequest _ op => Nat.ble 1 op.len && Nat.ble op.len 4096
  | .outboundAccess _ op => op.one
  | .mailboxPost _ p _ _ | .mailboxConsume _ p _ | .lvsPost _ p _ _ | .lvsConsume _ p _ | .semaphoreTestAndSet _ p _
  | .semaphoreRelease _ p _ | .doorbellRing _ p _ | .doorbellClear _ p _ _ | .doorbellMaskWrite _ p _ => pageNo p
  | .scrubRead a _ => addrOk a
  | .triggerAreaWrite _ a d => addrOk a && Nat.ble 1 d.length && Nat.ble d.length 32
  | .farAcknowledge d => Nat.ble d.length 4
  | _ => true

end Sys2Proof
end

