-- ==== Sys2Proof/Tests/Slice0.lean ====
section
/-! SUPPORT. Our own tests: ill-formed commands are refused, every hypothesis of a statement is met by some state, and a few effects
worked out by hand from the rules. -/

set_option autoImplicit false

namespace Sys2Proof.Tests

open Sys2Proof Sys2Proof.Machine Sys2Proof.Claims

set_option Elab.async false

/-! ### Ill-formed commands -/

theorem test_wf_ext : (Instr.addi 0 1 [0, 0, 0, 0] 5).wf = false := by decide
theorem test_wf_mode : (Instr.ld 0 .w 1 2 (.disp [0, 0, 0, 0] 1)).wf = false := by decide
theorem test_wf_asrc : (Instr.mova 0 1 (.imm [0, 0, 0, 0] 1)).wf = false := by decide
theorem test_wf_store : (Instr.programStoreWrite .keep 0x58000000 []).wf = false := by decide
theorem test_wf_store_read : (Instr.programStoreRead .keep 0x58000000 33 []).wf = false := by decide
theorem test_wf_reg : (Instr.registerWrite .keep (2 ^ 32) 4 0).wf = false := by decide
theorem test_wf_txn : (Instr.fabricTransaction (.direct .keep (.read 0x4800001F 2)) []).wf = false := by decide
theorem test_wf_pcie : (Instr.pcieRequest .bar0 (.read 0 0)).wf = false := by decide
theorem test_wf_outbound : (Instr.outboundAccess .keep (.read 0x80000000 33)).wf = false := by decide
theorem test_wf_page : (Instr.mailboxPost .keep 36 0 0).wf = false := by decide
theorem test_wf_scrub : (Instr.scrubRead (2 ^ 32) []).wf = false := by decide
theorem test_wf_trigger : (Instr.triggerAreaWrite .keep 0x4C000000 []).wf = false := by decide
theorem test_wf_far : (Instr.farAcknowledge [0, 0, 0, 0, 0]).wf = false := by decide

/-! ### States that the witnesses start from -/

/-- Tower bank 0 is ON. -/
def on : State := State.reset.setBankState 0 0

/-- A processor that runs, its address registers all at 0x48001000 and its data registers 1. -/
def running : Engine := { Engine.init with
  st := .running
  run := true
  clken := true
  pc := 2
  a := Vector.replicate 8 0x48001000
  d := Vector.replicate 8 1 }

/-- Engine 0 runs. -/
def run0 : State := on.setEng 0 running

/-- Core CUP-A runs. -/
def run33 : State := State.reset.setEng 33 running

/-- Whether the commands of a list issue on processor `e`. -/
def issuesAll (s : State) (e : Nat) (l : List Instr) : Bool :=
  s.ready e && l.all fun i => match instrCode? i with
    | some (e', c) => e'.val == e && Nat.ble c.x.length 2
    | none => false

theorem issues_all (s : State) (e : Nat) (l : List Instr) (hs : s.ecc = []) (h : issuesAll s e l = true) :
    ∀ i ∈ l, IssuesCmd s e i := by
  intro i hi
  simp only [issuesAll, Bool.and_eq_true, List.all_eq_true] at h
  have h2 := h.2 i hi
  split at h2
  · rename_i e' c heq
    simp only [Bool.and_eq_true, beq_iff_eq] at h2
    exact ⟨e', c, heq, h2.1, h.1, Nat.le_of_ble_eq_true h2.2, .inr fun j _ => by simp [State.mark, hs, Tbl.get]⟩
  · exact absurd h2 (by decide)

/-! ### Yofiaz instructions -/

theorem witness_MoveAndLogicResults : ∀ i ∈ [Instr.mov 0 1 (.d 2), .mov 0 1 (.a 2), .and 0 1 (.d 2), .or 0 1 (.d 2), .xor 0 1 (.d 2),
    .extb 0 1 (.d 2), .exth 0 1 (.d 2)], IssuesCmd run0 0 i := issues_all _ _ _ rfl (by decide +kernel)

theorem witness_AddSubtractCompareResults : ∀ i ∈ [Instr.add 0 1 (.d 2), .sub 0 1 (.a 2), .neg 0 1 (.d 2), .cmp 0 1 (.d 2),
    .addi 0 1 [3, 4] 63, .cmpi 0 1 [] 63, .cmpa 0 1 (.d 2)], IssuesCmd run0 0 i := issues_all _ _ _ rfl (by decide +kernel)

theorem witness_MultiplyDivideResults : (∀ i ∈ [Instr.mul 0 1 (.d 2), .div 0 1 (.d 2), .divu 0 1 (.d 2)], IssuesCmd run0 0 i) ∧
    run0.dreg 0 2 ≠ 0 ∧ ¬(run0.dreg 0 1 = 0x80000000 ∧ run0.dreg 0 2 = 0xFFFFFFFF) :=
  ⟨issues_all _ _ _ rfl (by decide +kernel), by decide +kernel⟩

/-- Engine 0 runs with its data registers 0. -/
def zero0 : State := on.setEng 0 { running with d := Vector.replicate 8 0 }

theorem witness_DivideByZeroValues : zero0.dreg 0 2 = 0 ∧ fTrapDz (pswRead 0 (zero0.eng 0)) = false ∧
    ∀ i ∈ [Instr.div 0 1 (.d 2), .divu 0 1 (.d 2)], IssuesCmd zero0 0 i :=
  ⟨by decide +kernel, by decide +kernel, issues_all _ _ _ rfl (by decide +kernel)⟩

theorem witness_ShiftRotateResults : ∀ i ∈ [Instr.shl 0 1 0, .shr 0 1 31, .sar 0 1 0, .rol 0 1 31, .ror 0 1 0, .shlv 0 1 (.d 2),
    .shrv 0 1 (.d 2), .sarv 0 1 (.d 2), .rolv 0 1 2, .rorv 0 1 2], IssuesCmd run0 0 i := issues_all _ _ _ rfl (by decide +kernel)

theorem witness_BitAndImmediateResults : ∀ i ∈ [Instr.bset 0 1 31, .bclr 0 1 0, .btst 0 1 31, .movi 0 1 [1] 0, .andi 0 1 [] 63,
    .ldi 0 1 [1, 2] 0], IssuesCmd run0 0 i := issues_all _ _ _ rfl (by decide +kernel)

theorem witness_AddressAndAccumulatorResults : (∀ i ∈ [Instr.mova 0 1 (.d 2), .adda 0 1 (.imm [1] 2), .suba 0 1 (.a 2),
    .mac 0 3 1 2, .csum 0 0 1, .acw 0 false 0 1, .acw 0 true 3 1], IssuesCmd run0 0 i) ∧ 33 ≤ (33 : Eng).val ∧
    ∀ i ∈ [Instr.pfs 33 1], IssuesCmd run33 33 i :=
  ⟨issues_all _ _ _ rfl (by decide +kernel), by decide, issues_all _ _ _ rfl (by decide +kernel)⟩

theorem witness_AccumulatorReadsAndControlRegisters : (∀ i ∈ [Instr.acr 0 1 .t 0, .acr 0 1 .s 3, .acr 0 1 .g 0, .acr 0 1 .f 0,
    .mtc 0 0 1, .mfc 0 1 0], IssuesCmd run0 0 i) ∧ crIllegal 0 0 = false :=
  ⟨issues_all _ _ _ rfl (by decide +kernel), by decide⟩

/-- Engine 0 runs in a loop whose end is the word at its PC. -/
def loop0 : State := on.setEng 0 { running with depth := 1, le := Vector.replicate 3 2, lc := Vector.replicate 3 2 }

theorem witness_BranchesAndLoops :
    (∀ i ∈ [Instr.nop 0, .branch 0 .bra [] 5, .branch 0 .beq [] 5, .jmp 0 1, .doLoop 0 (.reg 1) 0, .doLoop 0 (.imm 0) 31],
      IssuesCmd run0 0 i) ∧ condHolds .bra (run0.psw 0) = true ∧ condHolds .beq (run0.psw 0) = false ∧ hasLoops 0 = true ∧
    (run0.eng 0).depth < 3 ∧ ¬((run0.eng 0).base < (run0.eng 0).depth ∧
      (run0.eng 0).le.getD ((run0.eng 0).depth - 1) 0 = (run0.eng 0).pc) ∧ run0.dreg 0 1 ≠ 0 ∧ zero0.dreg 0 1 = 0 ∧
    (∀ i ∈ [Instr.doLoop 0 (.reg 1) 0], IssuesCmd zero0 0 i) ∧ (zero0.eng 0).depth < 3 ∧
    (∀ i ∈ [Instr.leave 0], IssuesCmd loop0 0 i) ∧ (loop0.eng 0).base < (loop0.eng 0).depth :=
  ⟨issues_all _ _ _ rfl (by decide +kernel), by decide +kernel, by decide +kernel, by decide, by decide +kernel, by decide +kernel,
    by decide +kernel, by decide +kernel, issues_all _ _ _ rfl (by decide +kernel), by decide +kernel,
    issues_all _ _ _ rfl (by decide +kernel), by decide +kernel⟩

theorem witness_LoopEndTest :
    (let x := loop0.eng 0; x.base < x.depth ∧ x.le.getD (x.depth - 1) 0 = x.pc + BitVec.ofNat 14 0 ∧
      1 < (x.lc.getD (x.depth - 1) 0).toNat) ∧
    (let x : Engine := { loop0.eng 0 with lc := Vector.replicate 3 1 };
      x.base < x.depth ∧ x.le.getD (x.depth - 1) 0 = x.pc + BitVec.ofNat 14 0 ∧ (x.lc.getD (x.depth - 1) 0).toNat ≤ 1 ∧
      x.depth = x.base + 1) := by decide +kernel

theorem witness_LoadsStoresAndCallsPost : (∀ i ∈ [Instr.ld 0 .w 1 2 .postInc, .st 0 .b 1 2 .preDec, .bsr 0 [] 1, .jsr 0 1],
    IssuesCmd run0 0 i) ∧ isSafe 0 = false ∧ (run0.ea 0 .w 2 .postInc).toNat % sizeBytes .w = 0 ∧
    (run0.ea 0 .b 2 .preDec).toNat % sizeBytes .b = 0 ∧ run0.tagFree 0 = true ∧
    run0.mpuOk 0 (run0.ea 0 .w 2 .postInc).toNat false = true ∧ run0.mpuOk 0 (run0.ea 0 .b 2 .preDec).toNat true = true ∧
    ((run0.eng 0).a.getD 7 0 - 4).toNat % 4 = 0 ∧ run0.mpuOk 0 ((run0.eng 0).a.getD 7 0 - 4).toNat true = true :=
  ⟨issues_all _ _ _ rfl (by decide +kernel), by decide +kernel⟩

/-- Engine 0 waits for the data of a load, which have come. -/
def loading : State := { on.setEng 0 { running with stall := .load .w 1 2 .postInc 0x48001000 } with
  outst := [⟨eRpn 0, eInit 0, .read 0x48001000 4, some (.data [1, 2, 3, 4])⟩] }

theorem witness_LoadDataReturns : isSafe 0 = false ∧ (loading.eng 0).stall = .load .w 1 2 .postInc 0x48001000 ∧
    loading.servedRead (eRpn 0) = some 0 ∧ loading.outst[0]? = some ⟨eRpn 0, eInit 0, .read 0x48001000 4, some (.data [1, 2, 3, 4])⟩ :=
  by decide +kernel

/-- Bytes in bank 0 without an error are plain. -/
theorem plain_on (s : State) (a n : Nat) (h1 : n = 1 ∨ n = 2 ∨ n = 4 ∨ n = 16) (h2 : 0x48000000 ≤ a ∧ a < 0x48020000 ∧ a % n = 0)
    (h3 : s.bankState 0 = 0) (h4 : s.ecc = []) : Plain s a n := by
  refine ⟨h1, h2.1, by omega, h2.2.2, ?_, fun j _ => by simp [State.mark, h4, Tbl.get]⟩
  have : bankOf a = 0 := by simp only [bankOf]; rw [if_neg (by omega)]; omega
  rw [this]; exact h3

theorem direct_run0 : Direct run0 0 := by refine ⟨by decide, rfl, rfl, by decide +kernel⟩

theorem witness_ReturnsFromStack : Direct run0 0 ∧ Plain run0 ((run0.eng 0).a.getD 7 0).toNat 4 ∧
    Plain run0 (((run0.eng 0).a.getD 7 0).toNat + 4) 4 ∧ ∀ i ∈ [Instr.rts 0, .rete 0], IssuesCmd run0 0 i :=
  ⟨direct_run0, plain_on _ _ _ (by decide) (by decide +kernel) (by decide +kernel) rfl,
    plain_on _ _ _ (by decide) (by decide +kernel) (by decide +kernel) rfl, issues_all _ _ _ rfl (by decide +kernel)⟩

/-- Engine 0 runs with event 5 pending and enabled; with a held imprecise bus error. -/
def event0 : State := on.setEng 0 { running with evpend := 0x20, evie := 0x120 }
def imprecise0 : State := on.setEng 0 { running with imprecise := some 0x48000000 }

theorem witness_ExceptionEntries :
    (∀ s ∈ [run0, event0, imprecise0], Direct s 0 ∧ ∀ j, j < 4 → Plain s (((s.eng 0).a.getD 7 0 - 16).toNat + 4 * j) 4) ∧
    (∀ s ∈ [run0, event0, imprecise0], (s.eng 0).depth ≤ 3 ∧ (s.eng 0).base ≤ 3 ∧ (s.eng 0).boundary = true ∧ s.ecc = []) ∧
    (∀ i ∈ [Instr.trap 0 7, .brk 0], IssuesCmd run0 0 i) ∧ run0.ready 0 = true ∧ (event0.eng 0).imprecise = none ∧
    (event0.eng 0).haltReq = false ∧ event0.eventDue 0 = some 5 ∧ (imprecise0.eng 0).stall ≠ .fence ∧
    (imprecise0.eng 0).imprecise = some 0x48000000 := by
  refine ⟨?_, by decide +kernel, issues_all _ _ _ rfl (by decide +kernel), by decide +kernel⟩
  intro s hs
  have h : s.ecc = [] ∧ s.bankState 0 = 0 ∧ (s.eng 0).a.getD 7 0 = 0x48001000 ∧ s.outst = [] ∧ s.boot.held = false ∧
      s.flag (SYS_E_MPU_CTL 0) SYS_E_MPU_CTL_EN = false := by
    revert s; decide +kernel
  obtain ⟨h1, h2, h3, h4, h5, h6⟩ := h
  refine ⟨⟨by decide, h4, h5, h6⟩, fun j hj => plain_on _ _ _ (by decide) ?_ h2 h1⟩
  rw [h3]
  have : ((0x48001000 : Word) - 16).toNat = 0x48000FF0 := by decide
  rw [this]; omega

/-- Engine 0 waits in FENCE; in WAIT for event 1, which has come. -/
def fence0 : State := on.setEng 0 { running with st := .waiting, stall := .fence }
def wait0 : State := on.setEng 0 { running with st := .waiting, stall := .wait 2, evpend := 2 }

/-- Engine 0 runs with a store outstanding; with event 1 pending; with its timer at 1. -/
def busy0 : State := { run0 with outst := [⟨0, .engine 0, .write 0x48000000 [1], none⟩] }
def pend0 : State := on.setEng 0 { running with evpend := 2 }
def timer0 : State := on.setEng 0 { running with tmr := 1 }

theorem witness_WaitsAndWakeups :
    (∀ i ∈ [Instr.fence 0, .wait 0 2], IssuesCmd run0 0 i) ∧ run0.outCount (eRpn 0) = 0 ∧ run0.evPending 0 &&& 2 = 0 ∧
    (∀ i ∈ [Instr.fence 0], IssuesCmd busy0 0 i) ∧ isSafe 0 = false ∧ busy0.outCount (eRpn 0) ≠ 0 ∧
    ((fence0.eng 0).st = .waiting ∧ (fence0.eng 0).stall = .fence ∧ fence0.outCount (eRpn 0) = 0 ∧ fence0.eventDue 0 = none) ∧
    (∀ i ∈ [Instr.wait 0 2], IssuesCmd pend0 0 i) ∧ pend0.evPending 0 &&& 2 ≠ 0 ∧
    ((wait0.eng 0).stall = .wait 2 ∧ wait0.evPending 0 &&& 2 ≠ 0 ∧ (wait0.eng 0).imprecise = none ∧ wait0.eventDue 0 = none ∧
      (wait0.eng 0).haltReq = false) ∧ (timer0.eng 0).tmr = 1 ∧ (timer0.eng 0).st = .running :=
  ⟨issues_all _ _ _ rfl (by decide +kernel), by decide +kernel, by decide +kernel, issues_all _ _ _ rfl (by decide +kernel), by decide,
    by decide +kernel, by decide +kernel, issues_all _ _ _ rfl (by decide +kernel), by decide +kernel, by decide +kernel,
    by decide +kernel, by decide +kernel⟩

theorem witness_StringElements : Direct run0 0 ∧ (∀ i ∈ [Instr.movs 0 .w false, .stos 0 .b true, .cmps 0 .h false, .scas 0 .b true,
    .lods 0 6 .w true, .crcs 0 3 .b false true true], IssuesCmd run0 0 i) ∧
    ∀ (z : Size) (v : Bool), Plain run0 (elemAt (run0.areg 0 5) z v).toNat (sizeBytes z) ∧
      Plain run0 (elemAt (run0.areg 0 6) z v).toNat (sizeBytes z) := by
  refine ⟨direct_run0, issues_all _ _ _ rfl (by decide +kernel), fun z v => ?_⟩
  have h : ∀ (z : Size) (v : Bool), (sizeBytes z = 1 ∨ sizeBytes z = 2 ∨ sizeBytes z = 4 ∨ sizeBytes z = 16) ∧
      (∀ n ∈ [5, 6], 0x48000000 ≤ (elemAt (run0.areg 0 n) z v).toNat ∧ (elemAt (run0.areg 0 n) z v).toNat < 0x48020000 ∧
        (elemAt (run0.areg 0 n) z v).toNat % sizeBytes z = 0) := by
    intro z v; cases z <;> cases v <;> decide +kernel
  exact ⟨plain_on _ _ _ (h z v).1 ((h z v).2 5 (by decide)) (by decide +kernel) rfl,
    plain_on _ _ _ (h z v).1 ((h z v).2 6 (by decide)) (by decide +kernel) rfl⟩

/-- Engine 0 runs with D7 = 2, so that an element leaves D7 = 1. -/
def rep2 : State := on.setEng 0 { running with d := Vector.replicate 8 2 }

theorem witness_RepeatedStringElements :
    (∀ s ∈ [run0, rep2, zero0], s.readyRep 0 = true ∧ s.ecc = []) ∧ strReserved (.cmps .b false) = false ∧ zero0.dreg 0 7 = 0 ∧
    (∀ s ∈ [run0, rep2], s.dreg 0 7 ≠ 0 ∧ ((s.updEng 0 fun x => { x with lastPc := x.pc }).element 0 (.cmps .b false)).1 = none ∧
      (s.updEng 0 fun x => { x with lastPc := x.pc }).group 0 (.cmps .b false) ≠ none) ∧
    (let u := (rep2.element 0 (.cmps .b false)).2
      let c := u.setD 0 7 (u.dreg 0 7 - 1)
      fZ (c.eng 0).psw = true ∧ (c.eng 0).d.get 7 ≠ 0 ∧ c.group 0 (.cmps .b false) = rep2.group 0 (.cmps .b false)) ∧
    (let u := (rep2.element 0 (.cmps .w false)).2
      let c := u.setD 0 7 (u.dreg 0 7 - 1)
      (c.eng 0).d.get 7 ≠ 0 ∧ c.group 0 (.cmps .w false) ≠ rep2.group 0 (.cmps .w false)) ∧
    (let u := (run0.element 0 (.cmps .b false)).2
      let c := u.setD 0 7 (u.dreg 0 7 - 1)
      (c.eng 0).d.get 7 = 0 ∧ (c.eng 0).imprecise = none ∧ c.eventDue 0 = none) := by decide +kernel

/-- Engine 0 is the primary of lane 0, without a block; with a block waiting. -/
def lane0 : State := run0.setReg (ETH_LANE_CTL 0) 32
def block0 : State := lane0.updLane 0 fun x => { x with rxP := [⟨[1, 2, 3], 3⟩] }

/-- Engine 0 waits in STX on its lane. -/
def stx0 : State := lane0.updEng 0 fun x => { x with st := .waiting, stall := .stx 1 2 }

theorem witness_StreamBlocks :
    (∀ s ∈ [lane0, block0, stx0], s.streamOk 0 = true ∧ ownTower 0 (s.areg 0 2).toNat = true ∧ s.ecc = [] ∧ s.outst = [] ∧
      s.boot.held = false ∧ s.flag (SYS_E_MPU_CTL 0) SYS_E_MPU_CTL_EN = false ∧ s.bankState 0 = 0 ∧
      (s.areg 0 2).toNat = 0x48001000) ∧
    (∀ i ∈ [Instr.srx 0 1 2, .stx 0 1 2], IssuesCmd lane0 0 i) ∧ lane0.ev2 0 = false ∧ lane0.ev3 0 = true ∧
    (∀ i ∈ [Instr.srx 0 1 2], IssuesCmd block0 0 i) ∧ block0.ev2 0 = true ∧
    (block0.laneTake 0).map (fun q => q.1) = some ⟨[1, 2, 3], 3⟩ ∧ (stx0.eng 0).st = .waiting ∧ (stx0.eng 0).stall = .stx 1 2 ∧
    (stx0.eng 0).haltReq = false ∧ stx0.eventDue 0 = none ∧ stx0.ev3 0 = true :=
  ⟨by decide +kernel, issues_all _ _ _ rfl (by decide +kernel), by decide +kernel, by decide +kernel,
    issues_all _ _ _ rfl (by decide +kernel), by decide +kernel⟩

/-- A lane whose egress buffer is full accepts no block from its primary. -/
theorem witness_StreamBlocks_full :
    (lane0.updLane 0 fun x => { x with tx := List.replicate 128 ⟨[], 0⟩ }).ev3 0 = false ∧
    (lane0.updLane 0 fun x => { x with tx := List.replicate 128 ⟨[], 0⟩ }).ready 0 = true := by decide +kernel

theorem witness_NotReadyIssuesNothing : instrCode? (.nop 0) = some (0, ⟨[], 0x3000, none⟩) ∧ State.reset.ready 0 = false := by
  decide +kernel

theorem witness_AddressSourceIsIllegal : ∀ i ∈ [Instr.and 0 1 (.a 2), .or 0 1 (.a 2), .xor 0 1 (.a 2), .neg 0 1 (.a 2),
    .extb 0 1 (.a 2), .exth 0 1 (.a 2), .mul 0 1 (.a 2), .div 0 1 (.a 2), .divu 0 1 (.a 2), .shlv 0 1 (.a 2), .shrv 0 1 (.a 2),
    .sarv 0 1 (.a 2)], IssuesCmd run0 0 i := issues_all _ _ _ rfl (by decide +kernel)

/-! ### Engines, program stores, loader, lanes -/

theorem witness_OnlyTheKeepControlsEngines : Init.pcie ≠ .keep := by decide

/-- Engine 0 is HALTED with its clock on; is asked to halt; is in its reset sequence, in a self-test; its clock is gated. -/
def halted0 : State := on.setEng 0 { running with st := .halted, run := false }
def asked0 : State := on.setEng 0 { running with haltReq := true, run := false }
def resetting0 : State := on.setEng 0 { running with st := .reset, action := .rst }
def testing0 : State := on.setEng 0 { running with st := .test, action := .test }
def gated0 : State := on.setEng 0 { running with st := .halted, run := false, clken := false }

theorem witness_EngineActions :
    (∀ s ∈ [halted0, run0, asked0], s.regShut .keep (SYS_E_CTL 0) = false ∧ s.laneOf 0 = none ∧ (s.eng 0).clken = true) ∧
    ((halted0.eng 0).st = .halted ∧ (halted0.eng 0).starting = false ∧ (halted0.eng 0).busy = false ∧ halted0.loaderOn 0 = false) ∧
    (run0.eng 0).st = .running ∧ (run0.eng 0).action = .none ∧ (run0.eng 0).st ≠ .isolated ∧
    ((asked0.eng 0).haltReq = true ∧ (asked0.eng 0).boundary = true ∧ (asked0.eng 0).imprecise = none ∧
      asked0.outCount (eRpn 0) = 0 ∧ asked0.plm.tests = [] ∧ asked0.vigil.res = []) := by decide +kernel

/-- The word at the PC of engine 0 is NOP. -/
def nop0 : State := halted0.setProgWord 0 2 0x3000

theorem witness_StepExecutesOneInstruction :
    nop0.regShut .keep (SYS_E_CTL 0) = false ∧ (nop0.eng 0).st = .halted ∧ (nop0.eng 0).clken = true ∧
    (nop0.eng 0).starting = false ∧ (nop0.eng 0).busy = false ∧ nop0.loaderOn 0 = false ∧ (nop0.eng 0).imprecise = none ∧
    nop0.eventDue 0 = none ∧
    (let begun := (((nop0.updEng 0 fun x => { x with clken := true }).updEng 0 fun x => { x with actErr := false }).free.2).updEng 0
        fun x => { x with st := .running, stall := .none, haltReq := true, cycle := x.cycle + Config.freeWord nop0.fresh };
      let u := stepInstr (decodeAt (Fin.ofNat 35 0) fun k => nop0.progWord 0 ((nop0.eng 0).pc.toNat + k)) begun;
      (u.eng 0).haltReq = true ∧ (u.eng 0).boundary = true ∧ (u.eng 0).imprecise = none ∧ u.outCount (eRpn 0) = 0) := by
  decide +kernel

theorem witness_EngineResetsEnd :
    (∀ s ∈ [resetting0, testing0], s.plm.tests = [] ∧ s.vigil.res = []) ∧ (resetting0.eng 0).st = .reset ∧
    (resetting0.eng 0).action = .rst ∧ resetting0.outCount 0 = 0 ∧ (testing0.eng 0).st = .test := by decide +kernel

theorem witness_ClockGatingAndMpuWrites :
    gated0.regShut .keep (SYS_E_CTL 0) = false ∧ (gated0.eng 0).gated = true ∧ (gated0.eng 0).st ≠ .isolated ∧
    (gated0.eng 0).starting = false ∧
    (let s := gated0.updEng 0 fun x => { x with clken := true, starting := true };
      (s.eng 0).starting = true ∧ (s.eng 0).delayed = none) ∧
    (let s := gated0.updEng 0 fun x => { x with clken := true, starting := true, delayed := some 5 };
      (s.eng 0).starting = true ∧ (s.eng 0).delayed = some 5 ∧ (s.eng 0).st = .halted ∧ (s.eng 0).action = .none ∧
        s.loaderOn 0 = false ∧ s.laneOf 0 = none) ∧
    gated0.regShut .keep (SYS_E_MPU_CTL 0 + 4 * 3) = false ∧ 5 ≤ SYS_E_MPU_ATTR_SIZE.get 0x00000507 := by decide +kernel

/-- Engine 0 with a SNAP, with a RESTORE in progress, its image in bank 0. -/
def snap0 : State := (on.setEng 0 { running with st := .halted, action := .snap }).setReg (SYS_E_SNAPA 0) 0x48000000
def restore0 : State := (on.setEng 0 { running with st := .halted, action := .restore }).setReg (SYS_E_SNAPA 0) 0x48000000

theorem witness_StateImages :
    (snap0.eng 0).action = .snap ∧ snap0.imageOk 0 = true ∧
    (let s1 := snap0.updEng 0 fun x => { x with action := .none };
      (s1.moverWrite (.engine 0) (snap0.imageAddr 0) (wordsToBytes (s1.image 0))).1 = none) ∧
    (restore0.eng 0).action = .restore ∧ restore0.imageOk 0 = true ∧
    ((restore0.updEng 0 fun x => { x with action := .none }).moverRead (.engine 0) (restore0.imageAddr 0) 192).2.1 = none ∧
    hasLoops 0 = true := by decide +kernel

theorem witness_ProgramStoreAccesses :
    (16383 < 16384) ∧ (on.eng 0).st = .reset ∧ (halted0.eng 0).st = .halted ∧ (halted0.eng 0).st ≠ .isolated ∧
    halted0.mark (0x50000000 + 2 * 16383) = none ∧ rights .localBus .prog = false := by decide +kernel

/-- The loader is set up for 32 bytes from 0x48000000 to 0x48000040; the same with an odd length; BUSY, with and without CRC check. -/
def ldr : State := (((on.setReg SYS_LDR_SRC 0x48000000).setReg SYS_LDR_DST 0x48000040).setReg SYS_LDR_LEN 32).setReg SYS_LDR_CTL 0x4
def ldrBad : State := ldr.setReg SYS_LDR_LEN 31
def ldrBusy : State := ldr.setFld SYS_LDR_STAT SYS_LDR_STAT_STATE 1
def ldrCheck : State := (ldrBusy.setFlag SYS_LDR_CTL SYS_LDR_CTL_CRCCHK true).setReg SYS_LDR_CRC 1

/-- The parameters that a GO with word `v` finds. -/
def ldrSet (s : State) (v : Word) : State :=
  (((s.setReg SYS_LDR_CTL ((v ||| 1) &&& 0x3FC)).setFlag SYS_LDR_STAT SYS_LDR_STAT_ABORTED false).setFlag SYS_LDR_STAT
    SYS_LDR_STAT_TOOLATE false).setReg SYS_LDR_RCRC 0

theorem witness_LoaderOperations :
    (∀ s ∈ [ldr, ldrBad, ldrBusy], s.regShut .keep SYS_LDR_CTL = false) ∧ ldr.fld SYS_LDR_STAT SYS_LDR_STAT_STATE ≠ 1 ∧
    (ldrSet ldr 4).loaderCheck = 0 ∧ (ldrSet ldrBad 4).loaderCheck ≠ 0 ∧ ldrBad.fld SYS_LDR_STAT SYS_LDR_STAT_STATE ≠ 1 ∧
    ldrBusy.fld SYS_LDR_STAT SYS_LDR_STAT_STATE = 1 ∧ 0 < ldrBusy.loaderBytes ∧
    (let r := ldrBusy.loaderRun ldrBusy.loaderBytes (ldrBusy.loaderBytes / 32 + 1) 0;
      r.1 = 0 ∧ (r.2.setReg SYS_LDR_RCRC (~~~r.2.loader.crc)).flag SYS_LDR_CTL SYS_LDR_CTL_CRCCHK = false) ∧
    (let r := ldrCheck.loaderRun ldrCheck.loaderBytes (ldrCheck.loaderBytes / 32 + 1) 0;
      let u := r.2.setReg SYS_LDR_RCRC (~~~r.2.loader.crc)
      ldrCheck.fld SYS_LDR_STAT SYS_LDR_STAT_STATE = 1 ∧ r.1 = 0 ∧ u.flag SYS_LDR_CTL SYS_LDR_CTL_CRCCHK = true ∧
        u.reg SYS_LDR_RCRC ≠ u.reg SYS_LDR_CRC) := by decide +kernel

/-- Lane 0 is ACTIVE with primary engine 0; with shadow engine 1 as well. -/
def active0 : State :=
  [laneIn 0, laneOut 0].foldl (fun s p => (s.setFlag (ETH_CTL p) ETH_CTL_EN true).setFlag (ETH_STAT p) ETH_STAT_LINK true) lane0
def shadow0 : State := active0.setReg (ETH_LANE_CTL 0) 0x2120

theorem witness_LaneOperations :
    active0.laneState 0 = 1 ∧ active0.shadowOf 0 = none ∧ (active0.lane 0).rxP.length < 16 ∧
    (let s := State.reset.setFlag (ETH_LANE_CTL 5) ETH_LANE_CTL_NOENG true;
      s.laneState 5 ≠ 1 ∧ s.flag (ETH_LANE_CTL 5) ETH_LANE_CTL_NOENG = true) ∧
    (let s := active0.updLane 0 fun x => { x with egress := true };
      (s.lane 0).egress = true ∧ (s.lane 0).tx = []) ∧
    (∀ s ∈ [on, active0, shadow0], s.regShut .keep (ETH_LANE_CTL 0) = false) ∧ on.laneEngineOk 0 1 = true ∧
    on.laneEngineOk 0 2 = false ∧ (0x22 : Word).getLsbD 16 = false ∧ ETH_LANE_CTL_PRI.get 0x22 = 2 ∧ (0x22 : Word).getLsbD 5 = true ∧
    (0x22 : Word).getLsbD 13 = false ∧ ETH_LANE_CTL_PRI.get 0x21 = 1 ∧ (0x21 : Word).getLsbD 13 = false ∧
    shadow0.flag (ETH_LANE_CTL 0) ETH_LANE_CTL_SHDEN = true ∧ shadow0.flag (ETH_LANE_STAT 0) ETH_LANE_STAT_SHDLAG = false ∧
    active0.flag (ETH_LANE_CTL 0) ETH_LANE_CTL_SHDEN = false ∧
    ((shadow0.updLane 0 fun x => { x with swap := true }).lane 0).swap = true := by decide +kernel

/-! ### Register accesses, the fabric, the PCIe endpoint, the local bus -/

/-- COMMISSION, bank 0 ON. -/
def com : State := on.setFld SYS_MODE SYS_MODE_MODE 2

theorem witness_RegisterAccessCodes :
    SysPlain SYS_HOLDPOL ∧ (regRow? SYS_HOLDPOL).isSome = true ∧ com.regShut .pcie SYS_HOLDPOL = false ∧
    com.regShut .keep (SYS_E_ECC 0) = false ∧ ¬(SYS_HOLDPOL % 4 = 0 ∧ 2 = 4) ∧ on.regShut .pcie (ALM_TC_NOW0 0) = true := by
  refine ⟨⟨by decide, by decide, by decide +kernel, by decide +kernel, by decide +kernel, by decide +kernel⟩, by decide +kernel⟩

theorem witness_LatchingReadsOfClocks : com.regShut .pcie (ALM_TC_NOW0 3) = false ∧ com.regShut .pcie (ALM_TC_NOW1 3) = false ∧
    Init.pcie.rpn < 64 := by decide +kernel

theorem witness_FabricTransactions :
    Direct on 0 ∧ Plain on 0x48000000 4 ∧
    (let t : Txn := ⟨0, .engine 0, .write 0x48000000 [1, 2, 3, 4], none⟩;
      let s : State := { on with outst := [t] }
      s.outst = [t] ∧ s.boot.held = false ∧ s.outst[0]? = some t ∧ t.done = none ∧ s.region t.op.addr ≠ .outbound) ∧
    (let s : State := { run0 with outst := [⟨0, .engine 0, .write 0x48000000 [1], some .ok⟩,
      ⟨0, .engine 0, .write 0x48000000 [1], some .busError⟩] };
      s.outst[0]? = some ⟨0, .engine 0, .write 0x48000000 [1], some .ok⟩ ∧
        s.outst[1]? = some ⟨0, .engine 0, .write 0x48000000 [1], some .busError⟩ ∧ (s.eng 0).st ≠ .isolated) :=
  ⟨⟨by decide, rfl, rfl, by decide +kernel⟩, plain_on _ _ _ (by decide) (by decide) (by decide +kernel) rfl, by decide +kernel,
    by decide +kernel⟩

theorem plain_held : Plain { on with outst := [⟨0, .engine 0, .write 0x48000000 [1, 2, 3, 4], none⟩] } 0x48000000 4 :=
  plain_on _ _ _ (by decide) (by decide) (by decide +kernel) rfl

/-- The PCIe link is up in COMMISSION; with MSI-X enabled and message 0 held. -/
def pcie : State := { com with host := { com.host with linkUp := true } }
def pba : State := { com with host := { com.host with linkUp := true, msixEn := true, msixFm := false, pba := 1 } }

theorem witness_PcieEndpoint :
    pcie.host.linkUp = true ∧ (pcie.barAddr .bar0 0).isSome = true ∧ pcie.barAddr .bar0 3 ≠ none ∧
    (let f := (pcie.barAddr .bar0 0).getD 0;
      pcie.hostPieces f (.read 0 4) = [.read f 4] ∧ (accessWith stepEngine true .pcie (.read f 4) pcie).1.good = true) ∧
    pcie.barAddr .bar0 (2 ^ 40) = none ∧
    (pba.host.msixEn = true ∧ pba.host.msixFm = false ∧ pba.host.pba.getLsbD 0 = true ∧ (0 : Word).getLsbD 0 = false) ∧
    pcie.regShut .pcie SYS_HOST_BPAP = false ∧ SYS_HOST_BPAP_BASE.get 0 < 0x80 ∧ 0x80 ≤ SYS_HOST_BPAP_BASE.get 0xFFFFFFFF ∧
    com.boot.held = false := by decide +kernel

theorem witness_LocalBusCycles :
    (accessWith stepEngine true .localBus (.read 0x60000000 4) com).1.good = true ∧
    (let s : State := { com with host := { com.host with held := .read 0x60000000 7 } };
      s.host.held = .read 0x60000000 7) ∧
    (let s : State := { com with host := { com.host with held := .write SYS_HOLDPOL 7 } };
      s.host.held = .write SYS_HOLDPOL 7 ∧ (accessWith stepEngine true .localBus (.write SYS_HOLDPOL (toBytes 7 4)) s).1 = .ok) ∧
    (accessWith stepEngine true .localBus (.read 0x4C000000 2) com).1 = .data [0, 0] := by decide +kernel

/-! ### Network clocks, bases, Calendar, captures -/

theorem witness_ClockRatesAndSlews :
    com.regShut .pcie (ALM_TC_RATE 3) = false ∧ com.owns 3 0 = true ∧ com.regShut .pcie (ALM_TC_SLEW 3) = false ∧
    com.owns 3 (1 + 5) = false ∧ com.regShut .pcie (0x60080C00 + 0x1000 * 5 + 0x40 * 3 + 0x24) = false ∧
    (let s := (com.setFld (ALM_TC_CTL 3) ALM_TC_CTL_OWN 1).setFld (ALM_TC_CTL 3) ALM_TC_CTL_OPORT 5;
      s.owns 3 (1 + 5) = true ∧ s.owns 3 0 = false ∧ s.regShut .pcie (ALM_TC_RATE 3) = false ∧
      s.regShut .pcie (0x60080C00 + 0x1000 * 5 + 0x40 * 3 + 0x24) = false) := by decide +kernel

theorem witness_ClockStepsAndSets :
    com.regShut .pcie (ALM_TC_CTL 0) = false ∧ com.fld (ALM_TC_CTL 0) ALM_TC_CTL_OWN = 0 ∧
    com.reg (ALM_TC_CTL 0) &&& 0xE0 = 0 ∧ com.armedEntries = [] ∧ (com.reg (ALM_TC_SET0 0)).toNat % 2 ^ 30 < 1000000000 ∧
    -999999999 ≤ (com.reg (ALM_TC_STEPNS 0)).toInt ∧ (com.reg (ALM_TC_STEPNS 0)).toInt ≤ 999999999 ∧
    (0 : Int) ≤ (com.clock 0).t + ((com.reg (ALM_TC_STEPS 0)).toInt * 1000000000 + (com.reg (ALM_TC_STEPNS 0)).toInt) * 65536 ∧
    999999999 < ((com.setReg (ALM_TC_STEPNS 0) 1000000000).reg (ALM_TC_STEPNS 0)).toInt := by decide +kernel

/-- Angle base 1 is enabled and has seen a record. -/
def angle1 : State := (com.setFlag (ALM_ANG_CTL 1) ALM_ANG_CTL_EN true).updAngle 1 fun x => { x with seen := true }

theorem witness_AngleAndLineBases :
    angle1.flag (ALM_ANG_CTL 1) ALM_ANG_CTL_EN = true ∧ (angle1.angle 1).seen = true ∧
    ¬((angle1.angle 1).pos = 5 ∧ (angle1.angle 1).stamp = 7) ∧ (angle1.angle 1).revset = none ∧
    angle1.regShut .pcie (ALM_ANG_REVSET 1) = false ∧ angle1.regShut .pcie ALM_LIN_CTL = false := by decide +kernel

theorem witness_MainsBase :
    (let s := (com.setFlag ALM_MNS_CTL ALM_MNS_CTL_EN true).setFlag ALM_MNS_STAT ALM_MNS_STAT_LOCK true;
      s.flag ALM_MNS_CTL ALM_MNS_CTL_EN = true ∧ s.armedEntries = [] ∧ s.flag ALM_MNS_STAT ALM_MNS_STAT_LOCK = true) ∧
    com.flag ALM_MNS_CTL ALM_MNS_CTL_EN = false ∧
    (com.setFlag ALM_MNS_STAT ALM_MNS_STAT_HOLD true).flag ALM_MNS_STAT ALM_MNS_STAT_HOLD = true := by decide +kernel

/-- Calendar entry 5 is armed on TC0 with a timed action of port 0, 1 us ahead; its firing is committed. -/
def armed5 : State := (com.setReg (CAL_W 5 0) 0x11).setTrig 5 1000
def committed5 : State := { armed5 with calPend := [⟨5, 0x11, 0, 1000, true⟩] }

theorem witness_CalendarArmingAndCommit :
    (∀ s ∈ [com, armed5, committed5], s.regShut .pcie (CAL_W 5 0) = false) ∧ com.armed 5 = false ∧
    (let w : Word := (0x48 ||| 1) &&& 0x00FF3FFF;
      com.calBad 5 w = false ∧ (predicted w = true → com.predCount < 256) ∧ 4 ≤ calBase w) ∧
    com.calBad 5 ((0xFC48 ||| 1) &&& 0x00FF3FFF) = true ∧ armed5.armed 5 = true ∧ armed5.committed 5 = false ∧
    committed5.armed 5 = true ∧ committed5.committed 5 = true ∧ calBase (armed5.cal 5 0) < 4 ∧
    timed (calAction (armed5.cal 5 0)) = true ∧ armed5.tcTime 5 ≤ armed5.clockNs (calBase (armed5.cal 5 0)) + 2000 := by
  decide +kernel

/-- Calendar entry 5 is armed on TC0 for event EV1 of engine 0, now; on the mains base for a doorbell. -/
def due5 : State := com.setReg (CAL_W 5 0) 0x41
def mains5 (w : Word) : State :=
  { (((com.setReg (CAL_W 5 0) w).setTrig 5 (2 ^ 32)).setFlag ALM_MNS_STAT ALM_MNS_STAT_LOCK true) with
    mns := { com.mns with run := true, period := 20000000 * 65536 } }

theorem witness_CalendarFiringAndPrediction :
    due5.armed 5 = true ∧ due5.calPend = [] ∧ calBase (due5.cal 5 0) < 4 ∧ calAction (due5.cal 5 0) = 4 ∧
    calRepeat (due5.cal 5 0) = false ∧ (due5.cal 5 0).getLsbD 9 = false ∧ due5.tcTime 5 ≤ due5.clockNs 0 ∧
    (due5.eng 0).st ≠ .isolated ∧ com.armed 5 = false ∧ com.calPend = [] ∧
    ((mains5 0x5F).armed 5 = true ∧ predicted ((mains5 0x5F).cal 5 0) = true ∧ (mains5 0x5F).committed 5 = false ∧
      ∃ x, (mains5 0x5F).predict 5 = some x ∧ (mains5 0x5F).clockNs 0 + (mains5 0x5F).leadNs (calBase ((mains5 0x5F).cal 5 0)) < x) ∧
    (let s := ((mains5 0x1F).setTrig 5 0);
      s.armed 5 = true ∧ predicted (s.cal 5 0) = true ∧ s.committed 5 = false ∧ timed (calAction (s.cal 5 0)) = true ∧
      ∃ x, s.predict 5 = some x ∧ x ≤ s.clockNs 0 + s.leadNs (calBase (s.cal 5 0))) := by
  refine ⟨by decide +kernel, by decide +kernel, by decide +kernel, by decide +kernel, by decide +kernel, by decide +kernel,
    by decide +kernel, by decide +kernel, by decide +kernel, by decide +kernel, ⟨by decide +kernel, by decide +kernel,
    by decide +kernel, ((mains5 0x5F).predict 5).getD 0, by decide +kernel, by decide +kernel⟩, by decide +kernel, by decide +kernel,
    by decide +kernel, by decide +kernel, (((mains5 0x1F).setTrig 5 0).predict 5).getD 0, by decide +kernel, by decide +kernel⟩

theorem witness_CrossStampsAndCaptures :
    com.regShut .pcie ALM_XS_CTL = false ∧ com.regShut .pcie ALM_CAP_SW = false ∧ com.unread < 256 ∧
    (com.setFlag ALM_CAP_CTL ALM_CAP_CTL_EN true).flag ALM_CAP_CTL ALM_CAP_CTL_EN = true ∧ com.regShut .pcie ALM_CAP_RD = false ∧
    (0 + 512 - (com.reg ALM_CAP_RD).toNat) % 512 ≤ com.unread ∧ com.unread < (1 + 512 - (com.reg ALM_CAP_RD).toNat) % 512 := by
  decide +kernel

/-! ### Ethernet -/

/-- Port 0 with its link up and enabled in mode `m` at speed `sp`. -/
def port0 (m sp : Nat) : State :=
  (((com.setFld (ETH_CTL 0) ETH_CTL_MODE m).setFlag (ETH_CTL 0) ETH_CTL_EN true).setFlag (ETH_STAT 0) ETH_STAT_LINK true).setFld
    (ETH_STAT 0) ETH_STAT_SPEED sp

/-- A handed action of kind `k` for port 0; a gate action that is due. -/
def handedTo (k : Nat) : State := { com with handed := [⟨5, k, 0, 0, 0⟩] }

theorem witness_EthernetPortControl :
    com.regShut .pcie (ETH_CTL 0) = false ∧ com.portQuiet 0 = true ∧ modeOk 0 (ETH_CTL_MODE.get 0) = true ∧
    com.regShut .pcie ETH_COM_CTL = false ∧ (port0 2 2).fld (ETH_CTL 0) ETH_CTL_MODE = 2 ∧ speedOk 2 2 = true ∧
    (let s := (com.setFld (ETH_CTL 0) ETH_CTL_MODE 1).setFlag (ETH_CTL 0) ETH_CTL_LSRC true;
      s.fld (ETH_CTL 0) ETH_CTL_MODE = 1 ∧ s.flag (ETH_CTL 0) ETH_CTL_LSRC = true ∧
        (resolve28 0x01E1 0x01E1 0x0300 0x0C00).isSome = true) ∧
    com.regShut .pcie ETH_COM_MDIO_CTL = false ∧ com.flag ETH_COM_MDIO_CTL ETH_COM_MDIO_CTL_GO = false ∧
    (∀ o ∈ [1, 2], let s := (com.setFlag ETH_COM_MDIO_CTL ETH_COM_MDIO_CTL_GO true).setFld ETH_COM_MDIO_CTL ETH_COM_MDIO_CTL_OP o;
      s.flag ETH_COM_MDIO_CTL ETH_COM_MDIO_CTL_GO = true ∧ s.fld ETH_COM_MDIO_CTL ETH_COM_MDIO_CTL_OP = o ∧
        s.regShut .pcie ETH_COM_MDIO_CTL = false) ∧
    com.regShut .pcie (ETH_GATE 0) = false ∧ (com.port 0).wire = none ∧
    (let s := com.updPort 0 fun x => { x with wire := some (7, false) };
      (s.port 0).wire = some (7, false) ∧ (0x7F : Word).getLsbD 7 = false ∧ s.gateOpen 0 7 = true ∧ s.preemptable 0 7 = false ∧
        s.regShut .pcie (ETH_GATE 0) = false) ∧
    (handedTo 2).takeHanded 0 2 = some (⟨5, 2, 0, 0, 0⟩, com) ∧ (com.port 0).gates.length < 16 ∧
    (let s := (handedTo 2).updPort 0 fun x => { x with gates := List.replicate 16 (0, 0, 0) };
      (s.takeHanded 0 2).isSome = true ∧ 16 ≤ (s.port 0).gates.length) ∧
    (let s := com.updPort 0 fun x => { x with gates := [(0, 0, 0x10000)] };
      (s.port 0).gates = [(0, 0, 0x10000)] ∧ 0 ≤ s.clockNs 0) ∧
    (let s := ((port0 0 0).setFlag (ETH_PRE_CFG 0) ETH_PRE_CFG_EN true).setFld (ETH_PRE_STAT 0) ETH_PRE_STAT_VSTAT 1;
      s.flag (ETH_PRE_CFG 0) ETH_PRE_CFG_EN = true ∧ s.flag (ETH_STAT 0) ETH_STAT_LINK = true ∧
        s.fld (ETH_PRE_STAT 0) ETH_PRE_STAT_VSTAT = 1 ∧ (s.port 0).vtry < max 1 (s.fld (ETH_PRE_CFG 0) ETH_PRE_CFG_VLIMIT) ∧
        max 1 (s.fld (ETH_PRE_CFG 0) ETH_PRE_CFG_VLIMIT) ≤ ((s.updPort 0 fun x => { x with vtry := 20 }).port 0).vtry) ∧
    (let s := (port0 1 2).setFlag (ETH_EEE 0) ETH_EEE_EN true;
      s.flag (ETH_EEE 0) ETH_EEE_EN = true ∧ s.flag (ETH_CTL 0) ETH_CTL_EN = true ∧ s.fld (ETH_CTL 0) ETH_CTL_MODE = 1 ∧
        s.fld (ETH_STAT 0) ETH_STAT_SPEED = 2 ∧ s.flag (ETH_STAT 0) ETH_STAT_LINK = true ∧
        s.flag (ETH_STAT 0) ETH_STAT_LPITX = false ∧ (s.port 0).wire = none ∧ (s.port 0).frag = none ∧ (s.port 0).gates = [] ∧
        (s.lane (egressLane 0)).tx = [] ∧ ∀ q, q < 8 → (s.txq 0 q).frames = []) ∧
    (let s := com.updPort 0 fun x => { x with gates := [(0, 0, 0x10100)] };
      s.wakeSoon 0 = true) ∧
    (let s := ((port0 1 2).setReg ETH_COM_SVC 1).setFlag (ETH_DSCFG 0) ETH_DSCFG_EN true;
      s.mayShift 0 = true ∧ s.fld (ETH_STAT 0) ETH_STAT_SPEED = 2) ∧
    (let s := (((port0 1 1).setReg ETH_COM_SVC 1).setFlag (ETH_DSCFG 0) ETH_DSCFG_EN true).setFlag (ETH_STAT 0) ETH_STAT_DSHIFT true;
      s.mayShift 0 = true ∧ s.fld (ETH_STAT 0) ETH_STAT_SPEED = 1 ∧ s.flag (ETH_STAT 0) ETH_STAT_DSHIFT = true) := by
  decide +kernel

/-- Port 0 up at 1,000 Mbit/s over a ring of 4 descriptors at 0x48000000, of which `d` is the first and is published. -/
def txRing (w1 w3 own : Word) : State :=
  ((((((port0 2 2).setFlag (ETH_TXQ_CFG 0 0) ETH_TXQ_CFG_EN true).setReg (ETH_TXQ_CFG 0 0 + 4) 0x48000000).setReg
    (ETH_TXQ_CFG 0 0 + 8) 4).setReg (ETH_TXQ_CFG 0 0 + 0x10) 1).setReg (ETH_GATE 0) 0xFF).setBytes 0x48000000
    ([0x48000100, w1, 0, w3, 0, 0, 0, own].flatMap fun x => toBytes x.toNat 4)

/-- A frame of 60 bytes that a queue holds; the queue with it. -/
def frame (w2 w3 : Word) (launch : Option (Nat × Int)) (data : Option (List Byte)) (st : Nat) : TxFrame :=
  ⟨0, 1, 60, w2, w3, 0, [(0x48000100, 60)], launch, data, st, 0, 0⟩
def withFrame (f : TxFrame) : State := (txRing 0 0 0).updTxq 0 0 fun x => { x with frames := [f] }
def data60 : Option (List Byte) := some (List.replicate 60 0)
/-- Queue 0 is preemptable and its frame is on the wire. -/
def onWire (f : TxFrame) : State :=
  (((withFrame f).updPort 0 fun x => { x with wire := some (0, false) }).setFlag (ETH_PRE_STAT 0) ETH_PRE_STAT_ACTIVE true).setReg
    (ETH_PRE_CFG 0) 4

theorem witness_EthernetTransmission :
    (∀ k : Fin 12, com.regShut .pcie (queueBase 0 k + 4) = false ∧ com.regShut .pcie (queueBase 0 k + 8) = false ∧
      com.regShut .pcie (queueBase 0 k + 0x10) = false ∧
      (if k.val < 8 then com.txQuiet 0 k else com.rxQuiet 0 (k.val - 8)) = true) ∧
    2 ≤ ETH_TXQ_LEN_LEN.get 2 ∧ ETH_TXQ_LEN_LEN.get 4096 ≤ 4096 ∧ (1 : Word).toNat % 4096 < com.ringLen (queueBase 0 0) ∧
    com.ringLen (queueBase 0 0) ≤ (2 : Word).toNat % 4096 ∧
    (let s := txRing 0x003CC03C 0 0x80000000
     let r := s.collect 0 0 16 (s.fetchIdx 0 0) []
     s.flag (ETH_CTL 0) ETH_CTL_EN = true ∧ s.flag (ETH_TXQ_CFG 0 0) ETH_TXQ_CFG_EN = true ∧
       s.flag (ETH_TXQ_CFG 0 0 + 0x14) ETH_TXQ_STAT_ERR = false ∧ r.2.1 = .whole ∧ (descWord (r.1.headD []) 3).toNat % 4 = 0 ∧
       descsOk r.1 = true ∧ bitsOf (descWord (r.1.headD []) 1).toNat 16 14 ≤ 9212 ∧ (r.2.2.txq 0 0).cancels = []) ∧
    (let s := txRing 0x003CC03C 0 0
     (s.collect 0 0 16 (s.fetchIdx 0 0) []).2.1 = .notOwned) ∧
    (let f := frame 2 1 (some (0, 5000)) none 0
     let s := (withFrame f).setFld (ETH_TXCFG 0) ETH_TXCFG_TLEAD 10
     f.timedWaiting = true ∧ s.fifoBytes 0 + f.flen ≤ 16384 ∧ 2 ≤ s.fld (ETH_TXCFG 0) ETH_TXCFG_TLEAD ∧
       s.fld (ETH_TXCFG 0) ETH_TXCFG_TLEAD ≤ 1000 ∧ 5000 ≤ s.clockNs 0 + 1000 * (s.fld (ETH_TXCFG 0) ETH_TXCFG_TLEAD : Int) ∧
       (s.readBufs 0 f.bufs).2.1 = none) ∧
    (let s := withFrame (frame 0 0 none data60 0)
     s.txFree 0 = true ∧ s.preActive 0 = false ∧ (s.port 0).frag = none ∧
       (∀ n : Fin 8, 0 < n.val → s.queueCands 0 n = []) ∧ s.queueCands 0 0 ≠ [] ∧ s.txChoice 0 = some (.ring 0)) := by
  decide +kernel

theorem witness_EthernetTransmission_starts :
    (txRing 0 0 0).txFree 0 = true ∧ (txRing 0 0 0).txChoice 0 = none ∧
    (let f := frame 0 1 (some (0, 0)) data60 0
     let s := withFrame f
     s.txFree 0 = true ∧ s.ringEligible 0 0 = true ∧ (s.port 0).frag = none ∧
       (∀ n : Fin 8, 0 < n.val → s.queueCands 0 n = []) ∧ f.w3.toNat % 4 ≠ 0 ∧ s.clockNs 0 ≤ 0) ∧
    (let f := { frame 0 0 none data60 1 with flen := 200 }
     let s := (onWire f).setFlag (ETH_GATE 0) ETH_GATE_HOLD true
     (s.port 0).wire = some (0, false) ∧ (s.port 0).frag = none ∧ s.preemptable 0 0 = true ∧
       s.flag (ETH_GATE 0) ETH_GATE_HOLD = true ∧ (s.txq 0 0).frames = [f] ∧ 64 + 140 ≤ max 60 f.flen + 4 ∧
       64 * (1 + s.fld (ETH_PRE_CFG 0) ETH_PRE_CFG_ADDFRAG) ≤ 64) ∧
    (let f := { frame 0 0 none data60 1 with flen := 200 }
     let s := (onWire f).setFld (ETH_TXQ_CFG 0 0) ETH_TXQ_CFG_THR 1
     (s.port 0).wire = some (0, false) ∧ (s.txq 0 0).frames = [f] ∧ s.cutThrough 0 0 f = true) ∧
    ((onWire (frame 0 0 none data60 1)).port 0).wire = some (0, false) ∧
    ((onWire (frame 0 0 none data60 1)).txq 0 0).held = none ∧
    (let s : State := { com with handed := [⟨5, 1, 0x30, 0, 0⟩] }
     s.takeHanded 0 1 = some (⟨5, 1, 0x30, 0, 0⟩, com) ∧ bitsOf (0x30 : Word).toNat 4 3 = 3 ∧ (com.txq 0 3).held = none ∧
       (com.txq 0 3).frames = []) ∧
    (let f := frame 0 1 (some (0, -1000000)) none 0
     let s := withFrame f
     f.timedWaiting = true ∧ -1000000 + ((s.reg (ETH_TXQ_LTOL 0 0)).toNat : Int) < s.clockNs 0) ∧
    (let s := withFrame (frame 0 0 none data60 0)
     s.regShut .pcie (ETH_TXQ_CANCEL 0 0) = false ∧ (0x80000000 : Word).getLsbD 31 = true ∧
       s.inRing (ETH_TXQ_CFG 0 0) ((0x80000000 : Word).toNat % 4096) = true) := by decide +kernel

/-- A frame of zero bytes of the broadcast type with a good FCS; the same with its last byte changed. -/
def good60 : List Byte := withFcs (List.replicate 60 0) false
/-- A PAUSE frame of 100 quanta. -/
def pauseFrame : List Byte :=
  withFcs ([0x01, 0x80, 0xC2, 0x00, 0x00, 0x01, 0, 0, 0, 0, 0, 0, 0x88, 0x08, 0x00, 0x01, 0x00, 0x64] ++ List.replicate 42 0) false
/-- Port 0 receives into queue 0: a ring of 4 at 0x48000000 whose first buffer has 256 bytes at 0x48000100. -/
def rxRing : State :=
  ((((((port0 2 2).setFlag (ETH_RXQ_CFG 0 0) ETH_TXQ_CFG_EN true).setReg (ETH_RXQ_CFG 0 0 + 4) 0x48000000).setReg
    (ETH_RXQ_CFG 0 0 + 8) 4).setReg (ETH_RXQ_CFG 0 0 + 0x10) 1).setFlag (ETH_RXCFG 0) ETH_RXCFG_MISS false).setBytes 0x48000000
    ([0x48000100, 256, 0, 0, 0, 0, 0, 0x80000000].flatMap fun (x : Word) => toBytes x.toNat 4)

theorem witness_EthernetReception :
    com.flag (ETH_CTL 0) ETH_CTL_EN = false ∧ be16 pauseFrame 12 = 0x8808 ∧ be16 pauseFrame 0 = 0x0180 ∧
    be16 pauseFrame 2 = 0xC200 ∧ be16 pauseFrame 4 = 0x0001 ∧ be16 pauseFrame 14 = 1 ∧ fcsGood pauseFrame = true ∧
    (let s := rxRing
     let way := s.rxWay 0 (s.rxRule 0 good60)
     s.flag (ETH_CTL 0) ETH_CTL_EN = true ∧ s.flag (ETH_STAT 0) ETH_STAT_LINK = true ∧ be16 good60 12 ≠ 0x8808 ∧
       way = .queue 0 ∧ fcsGood good60 = true ∧ good60.length = 64 ∧ 64 ≤ s.fld (ETH_RXCFG 0) ETH_RXCFG_MAXFRM ∧
       s.fld (ETH_RXCFG 0) ETH_RXCFG_MAXFRM ≤ 9216 ∧ fcsGood (good60.drop 1) = false ∧
       fcsGood (withFcs (List.replicate 20 0) false) = true ∧
       s.flag (ETH_RXQ_CFG 0 0) ETH_TXQ_CFG_EN = true ∧ s.flag (ETH_RXQ_CFG 0 0 + 0x14) ETH_TXQ_STAT_ERR = false ∧
       (let c := (s.count (ETH_RXOK 0) 1).count (ETH_RXOCT 0) 64
        let t := c.takeRx 0 (ETH_RXQ_CFG 0 0) 40 (s.ringHead (ETH_RXQ_CFG 0 0)) 64 []
        let w := t.2.2.storeRx 0 t.1 good60
        t.2.1 = .whole ∧ w.1 = none ∧
          (w.2.backRx 0 (ETH_RXQ_CFG 0 0) (s.rxMeta 0 good60 0 false (s.rxRule 0 good60)) 64 true 64 t.1).1 = none)) ∧
    (let s := rxRing.setFlag (ETH_RXCFG 0) ETH_RXCFG_MISS true
     s.rxWay 0 (s.rxRule 0 good60) = .drop) := by decide +kernel

/-! ### Campanile, Belfry, CAN FD -/

/-- A bus timing of 1 us macroticks and 100 of them a cycle; the node on both channels, in state `st`; entry 0 of its table is a slot of
type `ty` and 8 bytes that spans 40 macroticks on both channels. -/
def node (st ty : Nat) : State :=
  ((((((com.setReg CTB_TIMING (word (125 + 100 * 2 ^ 16))).setReg CTB_SEG (word (10 + 2 * 2 ^ 16))).setReg CTB_NODE 0xC3).setFld
    CTB_STAT CTB_STAT_STATE st).setReg (CTB_TBL 0 0 0) (word (ty * 2 ^ 14 + 8 * 2 ^ 16 + 3 * 2 ^ 28))).setReg (CTB_TBL 0 0 1)
    (word (5 + 40 * 2 ^ 16))).updCamp fun x => { x with valid := (true, false) }

/-- The frame that entry 0 expects in cycle 0 from node 3. -/
def slotFrame : List Byte := campFrame ⟨5, 0, 8, false, false, false, false, 3, 0⟩ (List.replicate 8 7)

theorem witness_CampanileNode :
    com.regShut .pcie CTB_CTL = false ∧ (node 0 1).ctb = 0 ∧ (node 0 1).timingOk = true ∧
    (node 0 1).flag CTB_NODE CTB_NODE_CSN = false ∧ validOf (node 0 1).camp.valid ((node 0 1).fld CTB_NODE CTB_NODE_TBLSEL) = true ∧
    (∀ m ∈ [1, 2, 3, 4, 5], (node m 1).ctb = m) ∧ ((node 4 1).updCamp fun x => { x with halt := true }).camp.halt = true ∧
    com.regShut .pcie CTB_SWITCH = false ∧ com.flag BFY_CTL BFY_CTL_SWFOLLOW = false ∧
    ((node 4 1).setFlag CTB_STAT CTB_STAT_ARMED true).flag CTB_STAT CTB_STAT_ARMED = true ∧
    (node 4 1).camp.sentCyc = false ∧ (node 4 1).flag CTB_STAT CTB_STAT_ARMED = false := by decide +kernel

theorem witness_CampanileNode_slots :
    ((node 2 2).camp.resp = false ∧ (node 2 2).fld CTB_STAT CTB_STAT_ATTEMPT + 1 < 32 ∧
      max 1 ((node 2 2).fld CTB_STARTUP CTB_STARTUP_CSMAX) ≤
        ((node 2 2).setFld CTB_STAT CTB_STAT_ATTEMPT 30).fld CTB_STAT CTB_STAT_ATTEMPT + 1) ∧
    ((node 1 1).setFlag CTB_NODE CTB_NODE_CSN true).flag CTB_NODE CTB_NODE_CSN = true ∧
    (let s := (node 4 2).setMemWord 0x4C000000 2
     let r := s.moverWord .campMover (s.entry 0 0).buf
     s.sends 0 = some none ∧ r.1 = 2 ∧ r.2.1 = none ∧
       (r.2.2.moverRead .campMover ((s.entry 0 0).buf + 16) (s.entry 0 0).plen).2.1 = none) ∧
    (let s := (node 4 2).updCamp fun x => { x with fetched := [(0, 2, List.replicate 8 7, false)] }
     s.sends 0 = some none ∧ (s.win 0).sent = none) ∧
    (let s := node 4 1
     let e := s.entry s.ctbTbl 0
     (s.reg CTB_NODE).getLsbD 6 = true ∧ (s.reg CTB_NODE).getLsbD 7 = true ∧ e.applies s.cyc = true ∧ s.effective e 0 = true ∧
       s.effective e 1 = true ∧ e.type = 1 ∧ frameCheck slotFrame = 0 ∧ (hdrOf slotFrame).tbl = s.ctbTbl ∧
       s.slotCheck e (hdrOf slotFrame) 5000 20000 = true ∧ (s.win 0).taken = none) ∧
    (let s := (node 4 2).setWin { (node 4 2).win 0 with sent := some [] }
     (s.win 0).sent ≠ none ∧ (s.entry s.ctbTbl 0).applies s.cyc = true ∧ (s.entry s.ctbTbl 0).type = 2) ∧
    (∀ m ∈ [2, 3, 4], let s := node m 1
      s.syncLost (s.correct s.camp.sync s.cyc (some s.nodeId)).sync = false) ∧
    com.regShut .pcie CTB_LEAPCFG = false ∧
    (com.setFlag CTB_LEAPCFG CTB_LEAPCFG_EN true).flag CTB_LEAPCFG CTB_LEAPCFG_EN = true := by decide +kernel

theorem witness_CampanileNode_valid :
    let s := (node 0 1).updCamp fun x => { x with jobs := [(0, 1)] }
    s.camp.jobs = [(0, 1)] ∧ s.ctb = 0 ∧ s.validateNode 0 = none := by decide +kernel

theorem witness_CampanileNode_violation :
    let s := ((node 0 2).updCamp fun x => { x with jobs := [(1, 1)] }).setReg (CTB_TBL 1 0 0) 0x4000
    s.camp.jobs = [(1, 1)] ∧ s.validateNode 1 = some (some 0, 2) := by decide +kernel

/-- The star in state `st`, both channels enabled, branches 2 and 3 on channel A; entry 0 of its table is a window of type `ty` of 40
macroticks that branch 2 owns on channel A. -/
def star (st ty : Nat) : State :=
  (((((node 0 1).setReg BFY_CTL 3).setReg BFY_PORTMAP 0x50).setFld BFY_STAT BFY_STAT_STATE st).setReg (BFY_TBL 0 0 0)
    (word (ty * 2 ^ 14))).setReg (BFY_TBL 0 0 1) (word (5 + 40 * 2 ^ 16)) |>.setReg (BFY_TBL 0 0 2) (if ty = 1 then 0x1F02 else 0x1F1F)

/-- Its branch 2 relays in that window. -/
def relaying (ty : Nat) : State := (star 2 ty).setRelay 0 (some ⟨2, some 0⟩)

theorem witness_BelfryStar :
    com.regShut .pcie BFY_CTL = false ∧
    (∀ m ∈ [0, 1, 2], (star m 1).bfy = m ∧ (star m 1).onChannel 2 0 = true ∧ (star m 1).isolated 2 = false ∧
      (star m 1).relay 0 = none) ∧
    ((star 2 1).setFlag (BFY_BR_STAT 2) BFY_BR_STAT_ISO true).isolated 2 = true ∧ ((star 1 1).setRelay 0 (some ⟨3, none⟩)).relay 0 ≠ none ∧
    (star 2 1).onChannel 3 0 = true ∧ (star 2 1).ownWindow 2 0 5000 = some 0 ∧
    ((star 2 1).starEntry (star 2 1).bfyTbl 0).type = 1 ∧ (relaying 2).relay 0 = some ⟨2, some 0⟩ ∧ frameCheck [] ≠ 0 ∧
    frameCheck slotFrame = 0 ∧ ((relaying 2).starEntry (relaying 2).bfyTbl 0).type = 2 ∧
    (relaying 2).lockOf (relaying 2).bfyTbl 0 0 = none ∧ (star 2 1).flag BFY_STAT BFY_STAT_ARMED = false ∧
    (star 2 1).syncLost ((star 2 1).correct (star 2 1).star.sync (star 2 1).bfyCyc none).sync = false ∧
    com.regShut .pcie BFY_REL = false ∧ com.regShut .pcie BFY_SWITCH = false ∧
    validOf (({ star 2 1 with star := { (star 2 1).star with valid := (true, false) } } : State)).star.valid ((0 : Word).toNat % 2) = true ∧
    ((star 2 1).setFlag BFY_STAT BFY_STAT_ARMED true).flag BFY_STAT BFY_STAT_ARMED = true := by decide +kernel

theorem witness_BelfryStar_enable :
    let s := (star 0 1).setReg BFY_CTL 0
    let v : Word := 3
    let s1 := ((s.setFlag BFY_CTL BFY_CTL_SWFOLLOW ((s.reg BFY_CTL ||| v).getLsbD 2)).setFlag BFY_CTL BFY_CTL_TBLSEL (v.getLsbD 4))
    s.bfy = 0 ∧ s.ctb = 0 ∧ s.reg BFY_CTL &&& 3 = 0 ∧ v &&& 3 ≠ 0 ∧
      (s1.setReg BFY_CTL ((s1.reg BFY_CTL &&& ~~~(3 : Word)) ||| (v &&& 3))).validateStar (bit (v.getLsbD 4)) = none := by
  decide +kernel

theorem witness_BelfryStar_noWindow : (star 2 1).ownWindow 3 0 5000 = none := by decide +kernel

/-- CAN controller 0 on the bus, its message RAM at 0x4C000000, 8 elements in queue A and in queue B; `h`: halted in place of that. -/
def canBus : State :=
  ((((com.setReg (CAN_RAMBASE 0) 0x4C000000).setReg (CAN_RXL 0) 0x0808).setReg (CAN_TNOM 0) 0xC0030E).setReg (CAN_STAT 0) 0).setReg
    (CAN_CTL 0) 0 |>.setFld (CAN_ERR 0) CAN_ERR_STATE 0
def canHalted0 : State := ((canBus.setFlag (CAN_STAT 0) CAN_STAT_HALTED true).setFlag (CAN_CTL 0) CAN_CTL_HALT true).setFld (CAN_ERR 0)
  CAN_ERR_STATE 3
/-- Buffer 3 is pending; its attempt is under way. -/
def canPend : State := canBus.setReg (CAN_TXGO 0) 8
def canTry : State := canPend.updCan 0 fun x => { x with attempt := some ⟨3, ⟨0x123, false, false, false, false, false, 0, []⟩, 0, 0⟩ }

/-- Buffer 3, its word 1 `w1`, is requested; its word 0 is read. -/
def asked (w1 : Word) : State :=
  let s := canBus.setMemWord (0x4C000000 + 240 + 4) w1
  (s.setReg (CAN_TXGO 0) (s.reg (CAN_TXGO 0) ||| 8)).txResult 0 3 0 false 0 (s.txClk 0 3)
def asked' (w1 : Word) : State := ((asked w1).canRead 0 ((asked w1).txBuf 0 3)).2

theorem witness_CanBus_request :
    ((asked 8).canRead 0 ((asked 8).txBuf 0 3)).1 = some 0 ∧ (asked' 8).txBuf 0 3 = 0x4C0000F0 ∧
    ((asked' 8).canRead 0 0x4C0000F4).1 = some 8 ∧ ((asked' 8).canRead 0 0x4C0000F4).2.txBad 0 0 8 = false := by decide +kernel

theorem witness_CanBus_badRequest :
    ((asked 0x48).canRead 0 ((asked 0x48).txBuf 0 3)).1 = some 0 ∧ (asked' 0x48).txBuf 0 3 = 0x4C0000F0 ∧
    ((asked' 0x48).canRead 0 0x4C0000F4).1 = some 0x48 ∧ ((asked' 0x48).canRead 0 0x4C0000F4).2.txBad 0 0 0x48 = true := by
  decide +kernel

theorem witness_CanBus :
    canBus.onBus 0 = true ∧ canBus.canCtl 0 CAN_CTL_LOOP = false ∧ canBus.fld (CAN_ACC 0) CAN_ACC_NSHORT = 0 ∧
    canBus.fld (CAN_ERR 0) CAN_ERR_REC < 128 ∧
    (let r := CAN_ROUTE 0 (canBus.fld (CAN_ACC 0) CAN_ACC_MISSS)
     let at' (k : Nat) : State := canBus.setReg r (word k)
     (at' 0).fld r CAN_ROUTE_TARGET = 0 ∧ (at' 0).flag r CAN_ROUTE_MARK = false ∧
       (at' 0).fld (CAN_QAST 0) CAN_QAST_LEVEL < (at' 0).qaLen 0 ∧ (at' 4).fld r CAN_ROUTE_TARGET = 4 ∧
       (at' 5).fld r CAN_ROUTE_TARGET = 5) ∧
    com.regShut .pcie (CAN_QARET 0) = false ∧ com.regShut .pcie (CAN_QBRET 0) = false ∧
    (∀ b : Bool, let s := canBus.setReg (queueReg b 0) (queueWord 0 2 2 8)
      s.fld (queueReg b 0) CAN_QAST_LEVEL = 2) ∧
    com.regShut .pcie (CAN_TXGO 0) = false ∧
    (canBus.reg (CAN_TXGO 0)).getLsbD 3 = false ∧
    com.regShut .pcie (CAN_TXSTOP 0) = false ∧ (canPend.reg (CAN_TXGO 0)).getLsbD 3 = true ∧ (canPend.can 0).attempt = none ∧
    (canTry.can 0).attempt.isSome = true ∧ canBus.canCtl 0 CAN_CTL_LISTEN = false ∧ canBus.canCtl 0 CAN_CTL_HALT = false ∧
    (let l := canPend.txPending 0 (List.range 32)
     let r := l.2.moverRead .canMover (l.2.txBuf 0 3) 8
     lowest l.1 = some 3 ∧ r.2.1 = none ∧ r.1 = List.replicate 8 0 ∧
       (r.2.2.moverRead .canMover (l.2.txBuf 0 3 + 16) 0).2.1 = none ∧ r.2.2.txBad 0 0 0 = false) ∧
    (canTry.reg (CAN_TXSTOP 0)).getLsbD 3 = false ∧ canTry.canCtl 0 CAN_CTL_ONCE = false ∧
    (canTry.setFlag (CAN_CTL 0) CAN_CTL_ONCE true).canCtl 0 CAN_CTL_ONCE = true ∧ canBus.fld (CAN_ERR 0) CAN_ERR_TEC + 8 < 256 ∧
    256 ≤ (canBus.setFld (CAN_ERR 0) CAN_ERR_TEC 248).fld (CAN_ERR 0) CAN_ERR_TEC + 8 ∧ (canBus.can 0).attempt = none ∧
    canBus.canCtl 0 CAN_CTL_PXFORM = false ∧
    (canBus.setFlag (CAN_STAT 0) CAN_STAT_BOREC true).flag (CAN_STAT 0) CAN_STAT_BOREC = true := by decide +kernel

theorem witness_CanBus_halting :
    com.regShut .pcie (CAN_CTL 0) = false ∧ canBus.flag (CAN_STAT 0) CAN_STAT_HALTED = false ∧
    (canBus.reg (CAN_CTL 0) ^^^ 1) &&& 0xFE = 0 ∧ canBus.flag (CAN_STAT 0) CAN_STAT_BUSY = false ∧
    (canBus.setFlag (CAN_STAT 0) CAN_STAT_BUSY true).flag (CAN_STAT 0) CAN_STAT_BUSY = true ∧
    canHalted0.canCtl 0 CAN_CTL_HALT = true ∧ (canHalted0.can 0).attempt = none ∧ canHalted0.flag (CAN_STAT 0) CAN_STAT_HALTED = true ∧
    canHalted0.canValidate 0 = none ∧ (canHalted0.setReg (CAN_TNOM 0) 0).canValidate 0 = some 1 ∧
    (let s := (canBus.updCan 0 fun x => { x with integrating := true }).setFld (CAN_ERR 0) CAN_ERR_STATE 3
     (s.can 0).integrating = true ∧ s.canErr 0 = 3 ∧ s.fld (CAN_ERR 0) CAN_ERR_TEC ≤ 127 ∧ s.fld (CAN_ERR 0) CAN_ERR_REC ≤ 127) ∧
    com.regShut .pcie (CAN_RXL 0) = false := by decide +kernel

/-! ### Carillon, Signal Mapper, exchange region -/

/-- Sequencer 0 of Carillon 0 in state `st` with word `w` at its PC; its window is GP0-GP7 with its bank supplied; queue word 9. -/
def car (st : Nat) (w : Word) : State :=
  ((((com.setFld (CAR_SEQ_STAT 0 0) CAR_SEQ_STAT_STATE st).setReg (CAR_PROG 0 0) w).setReg (CAR_COM_MAP 0) 0x200).setReg CAR_COM_BANK
    0xF).updSeq 0 0 fun x => { x with tx := [9] }

/-- The words of the instructions, written from R408-R420, and what they decode to. -/
theorem test_carillon_words :
    decodeCar 0x00904 = .out 2 1 4 ∧ decodeCar 0x00004 = .out 0 0 4 ∧ decodeCar 0x00C04 = .out 3 0 4 ∧
    decodeCar 0x10504 = .inp 1 1 4 ∧ decodeCar 0x10004 = .inp 0 0 4 ∧ decodeCar 0x209AA = .set 2 1 0xAA ∧
    decodeCar 0x20005 = .set 0 0 5 ∧ decodeCar 0x30803 = .wait true 0 3 ∧ decodeCar 0x40480 = .at 2 1 ∧
    decodeCar 0x50605 = .jmp 3 5 ∧ decodeCar 0x50030 = .jmp 0 48 ∧ decodeCar 0x60000 = .pull ∧ decodeCar 0x70000 = .push ∧
    decodeCar 0x80490 = .mov 2 1 1 0 0 ∧ decodeCar 0x90502 = .sig false true 1 2 ∧ decodeCar 0xF0000 = .invalid := by decide

theorem witness_CarillonInstructions :
    ([(0x00904 : Word), 0x00004, 0x00C04, 0x10504, 0x10004, 0x209AA, 0x20005, 0x30803, 0x40480, 0x50605, 0x50030, 0x60000,
      0x70000, 0x80490, 0x90502, 0xF0000].all fun w => (car 1 w).seqState 0 0 == 1 && (car 1 w).carWord 0 0 == w.toNat) = true ∧
    ({ car 1 0 with gp := 8 } : State).waitHolds 0 0 0 8 true 0 3 = true ∧
    ({ car 1 0 with gp := 0 } : State).waitHolds 0 0 0 0 true 0 3 = false ∧
    (let s := (car 1 0).setReg (wReg 0 0 1) 1000
     ((s.ptc : Int) < s.extendPtc (s.reg (wReg 0 0 1)).toNat - s.seqCfg 0 0 CAR_SEQ_CFG_ATLEAD)) ∧
    (let s := (car 1 0).setReg (wReg 0 0 1) ((car 1 0).reg (CAR_SEQ_CFG 0 0) >>> CAR_SEQ_CFG_ATLEAD.lo)
     ((s.ptc : Int) = s.extendPtc (s.reg (wReg 0 0 1)).toNat - s.seqCfg 0 0 CAR_SEQ_CFG_ATLEAD)) ∧
    (let s := (car 1 0).setReg (wReg 0 0 1) 0xFFFFFF00
     (s.extendPtc (s.reg (wReg 0 0 1)).toNat - s.seqCfg 0 0 CAR_SEQ_CFG_ATLEAD < (s.ptc : Int))) ∧
    (car 1 0).txCap 0 0 ≠ 0 ∧ ((car 1 0).seq 0 0).tx = [9] ∧ (((car 1 0).updSeq 0 0 fun x => { x with tx := [] }).seq 0 0).tx = [] ∧
    ((car 1 0).seq 0 0).rx.length < (car 1 0).rxCap 0 0 ∧
    (let s := (car 1 0).updSeq 0 0 fun x => { x with rx := [1, 2, 3, 4] }
     s.rxCap 0 0 ≠ 0 ∧ s.rxCap 0 0 ≤ (s.seq 0 0).rx.length) := by decide +kernel

/-- Sequencer 0 is stalled on word `w` for cause `k`. -/
def carStalled (w : Word) (k : Nat) : State :=
  ((car 2 w).setFld (CAR_SEQ_STAT 0 0) CAR_SEQ_STAT_CAUSE k).updSeq 0 0 fun x => { x with cur := some (w.toNat, false) }

theorem witness_CarillonInstructions_stalls :
    (∀ p ∈ [((0x60000 : Word), 1), (0x70000, 2), (0x30803, 3), (0x40480, 4)],
      ((carStalled p.1 p.2).seq 0 0).cur = some (p.1.toNat, false) ∧ (carStalled p.1 p.2).seqState 0 0 = 2 ∧
        (carStalled p.1 p.2).fld (CAR_SEQ_STAT 0 0) CAR_SEQ_STAT_CAUSE = p.2 ∧ (carStalled p.1 p.2).carWord 0 0 = p.1.toNat) ∧
    (carStalled 0x30803 3).waitHolds 0 0 0 8 true 0 3 = true ∧
    (((carStalled 0x40480 4).seq 0 0).att : Int) - (carStalled 0x40480 4).seqCfg 0 0 CAR_SEQ_CFG_ATLEAD ≤ (carStalled 0x40480 4).ptc ∧
    (carStalled 0x60000 1).txCap 0 0 ≠ 0 ∧ ((carStalled 0x60000 1).seq 0 0).tx = [9] ∧
    ((carStalled 0x70000 2).seq 0 0).rx.length < (carStalled 0x70000 2).rxCap 0 0 := by decide +kernel

theorem witness_CarillonControl :
    com.regShut .pcie (CAR_CTL 0) = false ∧ com.seqQuiet 0 0 = true ∧
    (let s := (car 1 0).setReg (CAR_CTL 0) 1
     s.seqState 0 0 = 1 ∧ (s.reg (CAR_CTL 0)).getLsbD (0 : Fin 4) = true) ∧
    com.regShut .pcie (CAR_SEQ_EXEC 0 0) = false ∧ com.seqState 0 0 = 0 ∧ (car 1 0).seqState 0 0 ≠ 0 ∧
    com.regShut .pcie (CAR_SEQ_TXF 0 0) = false ∧ com.seqCfg 0 0 CAR_SEQ_CFG_DIRECT ≠ 1 ∧
    (com.seq 0 0).tx.length < com.txCap 0 0 ∧
    (let s := com.updSeq 0 0 fun x => { x with tx := [1, 2, 3, 4] }
     s.txCap 0 0 ≤ (s.seq 0 0).tx.length) ∧
    ((car 0 0).setFld (CAR_SEQ_CFG 0 0) CAR_SEQ_CFG_DIRECT 1).seqCfg 0 0 CAR_SEQ_CFG_DIRECT = 1 ∧ ((car 0 0).seq 0 0).tx ≠ [] ∧
    com.regShut .pcie (CAR_SEQ_RXF 0 0) = false ∧ (com.seq 0 0).rx = [] ∧
    ((com.updSeq 0 0 fun x => { x with rx := [7] }).seq 0 0).rx = [7] ∧ com.regShut .pcie (CAR_PROG 0 47) = false ∧
    com.regShut .pcie (CAR_COM_MAP 0) = false ∧ com.carQuiet 0 = true ∧ (∀ d : Fin 8, com.winCnt d = 0) ∧
    (((8 : Word) * 64 + 56) ^^^ com.reg (CAR_COM_MAP 0)) &&& 0xFFF ≠ 0 ∧ 56 + bitsOf ((8 : Word) * 64 + 56).toNat 6 6 ≤ 64 ∧
    64 < bitsOf ((8 : Word) * 64 + 57).toNat 0 6 + bitsOf ((8 : Word) * 64 + 57).toNat 6 6 := by decide +kernel

theorem witness_CarillonControl_movers :
    com.regShut .pcie (CAR_SEQ_MVCTL 0 0) = false ∧ (1 : Word).getLsbD 0 = true ∧ (1 : Word).getLsbD 1 = false ∧
    com.flag (CAR_SEQ_MVCTL 0 0) CAR_SEQ_MVCTL_TXGO = false ∧ com.flag (CAR_SEQ_MVCTL 0 0) CAR_SEQ_MVCTL_RXGO = false ∧
    (4 : Word).getLsbD 2 = true ∧
    (let s := com.setFlag (CAR_SEQ_MVCTL 0 0) CAR_SEQ_MVCTL_TXGO true
     s.flag (CAR_SEQ_MVCTL 0 0) CAR_SEQ_MVCTL_TXGO = true ∧ s.flag (CAR_SEQ_MVCTL 0 0) CAR_SEQ_MVCTL_RXGO = false ∧
       (s.seq 0 0).errTx = false ∧ (s.seq 0 0).mvTx = 0 ∧ s.flag (CAR_SEQ_MVCTL 0 0) CAR_SEQ_MVCTL_TXRING = false) := by
  decide +kernel

/-- The Signal Mapper enabled, its lists at 0x4C000000 with list 0 of word 0 `w`, its trigger area at 0x4C000400. -/
def mapper (w : Word) : State :=
  (((com.setFlag SGM_CTL SGM_CTL_EN true).setReg SGM_TBASE0 0x4C000000).setReg SGM_TWBASE 0x4C000401).setMemWord 0x4C000000 w

theorem witness_SignalMapper :
    com.regShut .pcie SGM_CTL = false ∧ com.regShut .pcie SGM_TRIG = false ∧ (mapper 0).flag SGM_CTL SGM_CTL_EN = true ∧
    com.flag SGM_CTL SGM_CTL_EN = false ∧ (com.setFlag SGM_STAT SGM_STAT_SWPEND true).flag SGM_STAT SGM_STAT_SWPEND = true ∧
    (mapper 0).sgmOrder = [] ∧ (mapper 0).boot.held = false ∧ (mapper 0).mode ≠ 1 ∧ (mapper 0).mark 0x4C000404 = none ∧
    ((mapper 0).reg SGM_TWBASE).getLsbD 0 = true ∧ ((mapper 0).reg SGM_TWBASE).toNat / 1024 * 1024 ≤ 0x4C000404 ∧
    0x4C000404 < ((mapper 0).reg SGM_TWBASE).toNat / 1024 * 1024 + 1024 ∧ (mapper 0).flag SGM_STAT SGM_STAT_SWPEND = false ∧
    (let l := (mapper 0).sgmRead ((mapper 0).tbase 0) 128
     l.1.isSome = true ∧ (listOf (l.1.getD [])).en = false) := by decide +kernel

theorem witness_SignalMapper_run :
    let l := (mapper 1).sgmRead ((mapper 1).tbase 0) 128
    let d := listOf (l.1.getD [])
    let a := l.2.snapshots d.srcs
    let b := a.2.shadows d.dsts
    l.1.isSome = true ∧ d.en = true ∧ l.2.listValid (l.1.getD []) = true ∧ a.1.toOption = some [[], [], [], []] ∧
      b.1 = some [[], [], [], []] ∧ (b.2.runEntries ((mapper 1).tbase 0) 0 d [] d.first d.count [[], [], [], []]).1.toOption =
        some [[], [], [], []] ∧ (b.2.commits 0 (d.dsts.zip [[], [], [], []])).1 = true := by decide +kernel

/-- Mailbox 5, livestone 2 and semaphore 3 with sender and receiver 7, holding a word; semaphore 3 held by agent 7. -/
def posted : State :=
  ((((com.setFlag (mbx 5).stat XCH_MBX_STAT_FULL true).setFlag (lvs 2).stat XCH_MBX_STAT_FULL true).setReg (XCH_SEM_STAT 3)
    (word (1 + 7 * 256))).setFld (mbx 5).cfg XCH_MBX_CFG_SND 7).setFld (mbx 5).cfg XCH_MBX_CFG_RCV 7 |>.setFld (lvs 2).cfg
    XCH_MBX_CFG_SND 7 |>.setFld (lvs 2).cfg XCH_MBX_CFG_RCV 7

theorem witness_ExchangeObjects :
    com.regShut (.engine 3) (XCH_A_MBX 7 5) = false ∧ pageOk (.engine 3) 7 = true ∧ posted.sender (mbx 5) = 7 ∧
    posted.receiver (mbx 5) = 7 ∧ posted.full (mbx 5) = true ∧ (posted.setFlag (mbx 5).stat XCH_MBX_STAT_FULL false).full (mbx 5) = false ∧
    (let s := (com.setFlag PLM_STAT PLM_STAT_READY true).setFld (mbx 0).cfg XCH_MBX_CFG_SND 7
     s.sender (mbx 0) = 7 ∧ s.full (mbx 0) = false ∧ s.flag PLM_STAT PLM_STAT_READY = true ∧ s.cmdq.length < 8 ∧
       s.rspq.length < 32) ∧
    pageOk (.engine 3) 8 = false ∧ com.sender (mbx 5) ≠ 7 ∧ com.receiver (mbx 5) ≠ 7 ∧
    com.regShut (.engine 3) (XCH_A_LVS 7 2) = false ∧ posted.sender (lvs 2) = 7 ∧ posted.receiver (lvs 2) = 7 ∧
    posted.full (lvs 2) = true ∧ com.full (lvs 2) = false ∧ com.regShut (.engine 3) (XCH_A_SEM 7 3) = false ∧
    posted.flag (XCH_SEM_STAT 3) XCH_SEM_STAT_HELD = true ∧ posted.fld (XCH_SEM_STAT 3) XCH_SEM_STAT_OWNER = 7 ∧
    com.flag (XCH_SEM_STAT 3) XCH_SEM_STAT_HELD = false ∧ com.regShut .keep XCH_SEM_FREL = false := by decide +kernel

theorem witness_ExchangeObjects_doors :
    com.regShut .pcie XCH_SEM_FREL = false ∧ com.regShut (.engine 3) (XCH_A_DB_RING 7) = false ∧ doorOk (.engine 3) 7 = true ∧
    XCH_A_DB_RING_AGENT.get (word (35 * 2 ^ XCH_A_DB_RING_AGENT.lo)) = 35 ∧
    XCH_A_DB_RING_AGENT.get (word (36 * 2 ^ XCH_A_DB_RING_AGENT.lo)) = 36 ∧ com.regShut (.engine 3) (XCH_A_DB_PEND 7) = false ∧
    com.regShut (.engine 3) (XCH_A_DB_MASK 7) = false ∧ com.regShut .pcie XCH_HOSTRST = false ∧ commonOk .pcie = true := by
  decide +kernel

/-! ### Memories, Vigil, modes, resets, boot -/

theorem witness_MemoryCommands :
    com.regShut .keep MEM_ERRQ0 = false ∧ com.errq = [] ∧ com.region 0x4C000000 = .exchange ∧ com.mark 0x4C000000 = none ∧
    (com.setFlag MEM_SCRUB_CTL MEM_SCRUB_CTL_EN true).flag MEM_SCRUB_CTL MEM_SCRUB_CTL_EN = true ∧
    (com.setMark 0x4C000000 (some (.single 3))).mark 0x4C000000 = some (.single 3) ∧ com.errq.length < 16 ∧
    com.regShut .keep (bankCtl 0) = false ∧ com.regShut .pcie (bankCtl 0) = false ∧
    ([0, 1, 2, 3, 4, 5].all fun st => (com.setBankState 0 st).bankState 0 == st) = true ∧
    MEM_TB_CTL_PWR.get (word (2 * 2 ^ MEM_TB_CTL_PWR.lo)) = 2 ∧ MEM_TB_CTL_PWR.get (word (2 ^ MEM_TB_CTL_PWR.lo)) = 1 ∧
    MEM_TB_CTL_PWR.get 0 = 0 ∧
    (com.setFlag (bankCtl 0) MEM_TB_CTL_AUTORET true).flag (bankCtl 0) MEM_TB_CTL_AUTORET = true ∧ com.plm.tests = [] ∧
    com.regShut .keep MEM_DDR_CTL = false ∧ com.regShut .pcie MEM_DDR_CTL = false ∧
    (com.setReg MEM_DDR_CTL 7).flag MEM_DDR_CTL MEM_DDR_CTL_EN = true ∧
    (com.setFlag MEM_DDR_CTL MEM_DDR_CTL_TRAIN true).flag MEM_DDR_CTL MEM_DDR_CTL_TRAIN = true ∧
    (com.setFlag MEM_DDR_CTL MEM_DDR_CTL_INIT true).flag MEM_DDR_CTL MEM_DDR_CTL_INIT = true ∧
    (com.setFlag MEM_DDR_STAT MEM_DDR_STAT_READY true).flag MEM_DDR_STAT MEM_DDR_STAT_READY = true ∧
    com.regShut .keep (MEM_DDR_RSEG 0) = false ∧ com.flag (MEM_DDR_RSEG 0) MEM_DDR_RSEG_VALID = false ∧
    MEM_DDR_RSEG_SEG.get 255 * 0x100000 < (com.setFld MEM_DDR_STAT MEM_DDR_STAT_SIZE 1).dramSize ∧
    (com.setFld MEM_DDR_STAT MEM_DDR_STAT_SIZE 1).dramSize ≤ MEM_DDR_RSEG_SEG.get 256 * 0x100000 := by decide +kernel

/-- An event without a resource. -/
def vigEvent : VigEvent := ⟨0, 12, 0, 0, 0, 0, 0, [], true, false, false⟩
/-- It waits in the queue, the Keep ready. -/
def queued : State := { com.setFlag PLM_STAT PLM_STAT_READY true with vigil := { com.vigil with queue := [vigEvent] } }

theorem witness_VigilCommands :
    namesResource (resId 1 31) = true ∧ com.vigil.queue.length < 64 ∧
    (let s : State := { com with vigil := { com.vigil with queue := List.replicate 64 vigEvent } }
     64 ≤ s.vigil.queue.length) ∧
    queued.flag PLM_STAT PLM_STAT_READY = true ∧ queued.vigil.taken = [] ∧ queued.vigil.queue = [vigEvent] ∧ queued.mramStop = false ∧
    queued.mramQ = [] ∧ com.regShut .keep VIG_EVQ0 = false ∧ com.vigil.queue = [] ∧ com.regShut .pcie VIG_EVQ0 = false ∧
    com.regShut .pcie VIG_READMIT = false ∧ hostOrKeep .pcie = true ∧ com.mode = 2 ∧
    (com.setFld SYS_MODE SYS_MODE_MODE 3).mode ≠ 2 ∧ com.vigil.record = [] ∧
    (let s : State := { com with vigil := { com.vigil with record := [(resId 1 4, 5)] } }
     ∃ q, q ∈ s.vigil.record ∧ q.1 = (BitVec.ofNat 16 (resId 1 4)).toNat) := by
  refine ⟨by decide +kernel, by decide +kernel, by decide +kernel, by decide +kernel, by decide +kernel, by decide +kernel,
    by decide +kernel, by decide +kernel, by decide +kernel, by decide +kernel, by decide +kernel, by decide +kernel,
    by decide +kernel, by decide +kernel, by decide +kernel, by decide +kernel, (resId 1 4, 5), by decide +kernel, by decide +kernel⟩

/-- COMMISSION with everything that RUN needs. -/
def runnable : State :=
  (((((com.setFlag CUP_STAT CUP_STAT_RUNPERM true).setFlag CUP_STAT CUP_STAT_PSVALID true).setFlag CUP_STAT CUP_STAT_PSCONF true).setFlag
    CUP_STAT CUP_STAT_SEALBRK false).setReg CUP_SW 0x1000).setFlag PLM_STAT PLM_STAT_READY true

/-- A world with no image in the flash. -/
def noImage : BootWorld := ⟨none, none, [], [], 3, true, true⟩

theorem witness_ModesAndBoot :
    com.regShut .pcie SYS_MODE_REQ = false ∧ hostOrKeep .pcie = true ∧
    ([1, 2, 3, 4, 5].all fun m => (com.setFld SYS_MODE SYS_MODE_MODE m).mode == m) = true ∧ runnable.mode = 2 ∧
    runnable.runBars = 0 ∧ com.runBars ≠ 0 ∧ State.reset.boot.held = false ∧ State.reset.mode = 1 ∧ State.reset.reg SYS_BOOT_STAT = 0 ∧
    (let s := State.reset.setFld SYS_BOOT_STAT SYS_BOOT_STAT_STAGE 5
     let s : State := { s with cup := { s.cup with link := 2 } }
     s.mode = 1 ∧ s.fld SYS_BOOT_STAT SYS_BOOT_STAT_STAGE = 5 ∧ s.cup.link = 2 ∧ s.holdStands = false ∧
       s.flag CUP_STAT CUP_STAT_RUNPERM = false) ∧
    State.reset.cup.link ≠ 2 ∧
    (let s := State.reset.setFlag SYS_BOOT_STAT SYS_BOOT_STAT_FAIL true
     s.regShut .pcie SYS_RECOV = false ∧ s.flag SYS_BOOT_STAT SYS_BOOT_STAT_FAIL = true ∧
       s.fld SYS_BOOT_STAT SYS_BOOT_STAT_ERR0 ≠ 6 ∧ s.fld SYS_BOOT_STAT SYS_BOOT_STAT_ERR1 ≠ 6) ∧
    com.regShut .pcie SYS_KEY_CTL = false ∧ com.boot.keyOp = none ∧
    (com.fuses.slots.getD 2 ⟨none, false, false⟩).programmed = false ∧
    (com.fuses.slots.getD 0 ⟨none, false, false⟩).revoked = false ∧ (com.fuses.slots.get 1).programmed = true ∧
    (com.fuses.slots.get 1).revoked = false ∧ com.fuses.rollback < ({ com with boot := { com.boot with svn := 5 } } : State).boot.svn ∧
    ({ com with boot := { com.boot with keyOp := some (.revoke 0) } } : State).boot.keyOp = some (.revoke 0) ∧
    ({ com with boot := { com.boot with keyOp := some .advance } } : State).boot.keyOp = some .advance := by decide +kernel

/-- A boot image: header, a KEEPCODE module of one word at 0x60, a DDRP module at 0x64, the key and the signature at the end. -/
def image : List Byte :=
  ([0x4D4C4456, 0x301, 256, 1, 0, 1, 0, 2, 0, 0, 0, 0, 0, 0, 0, 0, 3, 0x60, 4, 0, 4, 0x64, 16, 0, 0, 5, 0, 0, 0].flatMap fun (x : Word) =>
    toBytes x.toNat 4) ++ List.replicate 140 0

theorem tryImage_good (s : State) (l : List Byte) (src : Nat) (tr : Bool) (h1 : formatOk l src = true) (h2 : bootModules l = true)
    (h3 : (s.applyDdrp l tr).flag MEM_DDR_STAT MEM_DDR_STAT_READY = true)
    (h4 : ((s.applyDdrp l tr).copyImage l).verify l src = 0) (h5 : cProfile l = 3) : (s.tryImage l src tr).1 = 0 := by
  simp [State.tryImage, h1, h2, h3, h4, h5]

theorem verify_good (s : State) (l : List Byte) (src : Nat) (h1 : formatOk l src = true)
    (h2 : (s.fuses.slots.getD (cKeyslot l) ⟨none, false, false⟩).programmed = true)
    (h3 : (s.fuses.slots.getD (cKeyslot l) ⟨none, false, false⟩).revoked = false) (h4 : cSvn l = s.fuses.rollback)
    (hk : ∀ w, Config.digest ((l.drop (cLength l - 128)).take 64) w = s.slotHash (cKeyslot l) w)
    (hs : Config.signatureValid (l.take (cLength l)) = true) : s.verify l src = 0 := by
  simp [State.verify, h1, h2, h3, h4, hk, hs]

/-- An image boots and is recovered where its key and its signature are good. -/
theorem witness_ModesAndBoot_image (hk : ∀ w, Config.digest ((image.drop (cLength image - 128)).take 64) w = Config.factoryHash 0 w)
    (hs : Config.signatureValid (image.take (cLength image)) = true) (s : State) (src : Nat) (hsrc : formatOk image src = true)
    (hd : (s.applyDdrp image true).flag MEM_DDR_STAT MEM_DDR_STAT_READY = true)
    (hf : ((s.applyDdrp image true).copyImage image).fuses = Fuses.init) : (s.tryImage image src true).1 = 0 := by
  refine tryImage_good s image src true hsrc (by decide +kernel) hd (verify_good _ image src hsrc ?_ ?_ ?_ ?_ hs) (by decide +kernel)
  · rw [hf]; decide +kernel
  · rw [hf]; decide +kernel
  · rw [hf]; decide +kernel
  · intro w; rw [hk]; simp only [State.slotHash, hf]; rfl

theorem witness_ModesAndBoot_imageStates :
    formatOk image 0x1000000 = true ∧ formatOk image 256 = true ∧
    (State.reset.applyDdrp image true).flag MEM_DDR_STAT MEM_DDR_STAT_READY = true ∧
    ((State.reset.applyDdrp image true).copyImage image).fuses = Fuses.init := by decide +kernel

/-- No reserve is asked of any tower. -/
def idle0 : State := { com with plm := { com.plm with reserve := 0 } }

theorem witness_ResetsAndPower :
    com.boot.held = false ∧ com.boot.keyOp = none ∧ com.mramQ = [] ∧ com.regShut .pcie SYS_RST_CTL = false ∧
    bitsOf (0xC301 : Word).toNat 8 8 = 0xC3 ∧ (0xC301 : Word).getLsbD 0 = true ∧ com.ticks < com.boot.kwd + 1250000 ∧
    (let s : State := { com with ticks := 1250000 }
     s.boot.kwd + 1250000 ≤ s.ticks) ∧
    com.regShut .keep SYS_KWD = false ∧ com.regShut .pcie SYS_KWD = false ∧ com.regShut .keep SYS_TW_RST = false ∧
    com.reg SYS_TW_RST = 0 ∧ com.towerBusy 0 = false ∧ (com.setReg PWR_PD_STAT 1).towerBusy 0 = true ∧
    com.regShut .pcie SYS_TW_RST = false ∧ com.regShut .pcie PWR_PD_CTL = false ∧ com.boot.asks = [] ∧ com.boot.serving = none ∧
    com.domain 0 = 0 ∧ com.domain 5 = 0 ∧ idle0.offAllowed 0 = true ∧ com.offAllowed 5 = true ∧ com.offAllowed 4 = true ∧
    (com.setReg PWR_PD_STAT 1).domain 0 = 1 ∧ ((com.setFld (ETH_CTL 0) ETH_CTL_MODE 1)).offAllowed 4 = false ∧
    ({ com with boot := { com.boot with serving := some (0, true) } } : State).boot.serving = some (0, true) := by decide +kernel

/-! ### Backplane bridge -/

/-- The bridge enabled on P0, outbound window 0 of 64 KiB at 0x80000000, inbound window 0 of 4 KiB at 0 to 0x4C000000, and what else `f`
sets of its state. -/
def bridge (f : Bridge → Bridge) : State :=
  ((((((com.setReg BPB_CTL 0x21).setReg (BPB_OB_BASE 0) 0x80000001).setFld (BPB_OB_ATTR 0) BPB_OB_ATTR_SIZE 16).setReg (BPB_IB_TGT 0)
    0x4C000000).setReg (BPB_IB_ATTR 0) (word (1 + 8 + 16 + 12 * 64))).setReg BPB_ARB 1).updBb f

/-- A posted write that the bridge holds, and its cycle. -/
def held0 : BbAcc := ⟨.access, .pcie, 0, .write 0x80000000 [1, 2], true⟩
def cycle0 : FarCyc := ⟨0, 2, 0x29, some [1, 2]⟩

theorem witness_BridgeOutbound :
    (let s := bridge fun x => x
     s.boot.held = false ∧ s.mode ≠ 1 ∧ rights .pcie .outbound = true ∧ s.obDecode 0x90000000 = none ∧ s.obDecode 0x80000000 = some 0 ∧
       s.bbHeld < 64 ∧ s.bridge.pref = [] ∧ s.bridge.queue = [] ∧ s.bridge.due = [] ∧ s.bridge.lock = none ∧ s.bridge.head = none ∧
       s.bbEn = true ∧ s.bridge.sysIn = false ∧ s.bridge.run = none ∧ s.bbProf = 0 ∧ s.logLevel BPB_ELOG_WR BPB_ELOG_RD ≠ 16 ∧
       s.bbLive = false ∧ s.prefBlk 0 = none ∧ s.regShut .pcie BPB_ABORT = false ∧ bpbWriter .pcie = true) ∧
    64 ≤ (bridge fun x => { x with queue := List.replicate 64 held0 }).bbHeld ∧
    (bridge fun x => { x with head := some held0 }).bridge.head = some held0 ∧
    held0.kind = .access ∧ held0.posted = true ∧ held0.op.isWrite = true ∧
    (let s := bridge fun x => { x with head := some held0, run := some ⟨[cycle0, cycle0], [], false, true⟩ }
     s.bbLive = true ∧ s.bridge.run = some ⟨[cycle0, cycle0], [], false, true⟩) ∧
    (bridge fun x => { x with lock := some ⟨1, 0, 3, 0, .read 0x80000000 4⟩ }).bridge.lock = some ⟨1, 0, 3, 0, .read 0x80000000 4⟩ ∧
    (bridge fun x => { x with pref := [(0, some ⟨0, List.replicate 32 0, 0, 0⟩)] }).prefBlk 0 = some ⟨0, List.replicate 32 0, 0, 0⟩ ∧
    (0 : BitVec 32) ≠ BitVec.allOnes 32 ∧
    ((bridge fun x => x).setFlag BPB_STAT BPB_STAT_OWN true).flag BPB_STAT BPB_STAT_OWN = true ∧
    (let s := (bridge fun x => x).setFld BPB_CTL BPB_CTL_PROF 1
     s.bbProf ≠ 0 ∧ s.bbEn = true ∧ s.bbLive = false ∧ s.flag BPB_STAT BPB_STAT_YLD = false) ∧
    com.regShut (.engine 0) BPB_ABORT = false ∧ bpbWriter (.engine 0) = false := by decide +kernel

theorem witness_BridgeInbound :
    com.bbEn = false ∧
    (let s := bridge fun x => x
     let r := (s.answer .idle).drainInbound.moverRead .bridge 0x4C000010 4
     s.bbEn = true ∧ s.flag BPB_CTL BPB_CTL_INEN = true ∧ s.bbProf = 0 ∧ s.ibDecode 0x10 0x29 = some 0 ∧ s.ibDecode 0x10 0x39 = none ∧
       s.flag (BPB_IB_ATTR 0) BPB_IB_ATTR_WR = true ∧ s.flag (BPB_IB_ATTR 0) BPB_IB_ATTR_RD = true ∧ s.bridge.inq.length < 16 ∧
       swapAddr (swapUnit (s.fld (BPB_IB_ATTR 0) BPB_IB_ATTR_SWAP)) (s.ibTgt 0 + (0x10 - s.ibFar 0)) 4 = 0x4C000010 ∧ r.2.1 = none ∧
       s.flag BPB_ARB BPB_ARB_SYSCON = true ∧ arbitrate (s.fld BPB_ARB BPB_ARB_ARBMODE) s.bridge.lastLevel 6 = some 2 ∧
       s.bbLive = false ∧ s.regShut .pcie BPB_CTL = false) ∧
    16 ≤ (bridge fun x => { x with inq := List.replicate 16 (0, 0, .write 0x4C000000 [1]) }).bridge.inq.length ∧
    (let s := bridge fun x => { x with inq := [(0, 0, .write 0x4C000000 [1])] }
     s.bridge.inq = [(0, 0, .write 0x4C000000 [1])] ∧
       ((s.updBb fun x => { x with inq := [] }).moverWrite .bridge 0x4C000000 [1]).1 = none) := by decide +kernel

theorem witness_BridgeControl :
    (let s := (bridge fun x => { x with head := some held0 }).setReg (BPB_POLL 0 0) 1
     (s.reg (BPB_POLL 0 0)).getLsbD 0 = true ∧ s.bridge.due = [] ∧ held0.kind = .access) ∧
    (let s := (bridge fun x => x).setReg BPB_IRQCTL 0xFFFF
     (s.reg BPB_IRQCTL).getLsbD 3 = true ∧ (s.reg BPB_IRQCTL).getLsbD (8 + 3) = true ∧ s.bbProf = 0 ∧
       (s.setFld BPB_CTL BPB_CTL_PROF 2).bbProf ≠ 0 ∧ s.logLevel BPB_VLOG_WR BPB_VLOG_RD ≠ 16 ∧ s.regShut .pcie BPB_IRQCTL = false) ∧
    BPB_IRQCTL_IACKW.get 0x20000 ≠ 3 ∧ ({ bridge (fun x => x) with irqReq := 8 } : State).irqReq.getLsbD (3 : Fin 8) = true ∧
    com.irqReq.getLsbD 3 = false ∧ com.regShut .pcie (BPB_IB_ATTR 0) = false ∧ com.flag (BPB_IB_ATTR 0) BPB_IB_ATTR_EN = false ∧
    ((com.setReg (BPB_IB_TGT 0) 0x4C000000).ibCheck 0 (word (1 + 8 + 12 * 64)) = 0) ∧ com.ibCheck 0 1 ≠ 0 ∧
    com.regShut .pcie BPB_VLOG_RD = false ∧
    (0 + 32 - (com.reg BPB_VLOG_RD).toNat) % 32 ≤ com.logLevel BPB_VLOG_WR BPB_VLOG_RD ∧
    com.logLevel BPB_VLOG_WR BPB_VLOG_RD < (1 + 32 - (com.reg BPB_VLOG_RD).toNat) % 32 := by decide +kernel

/-! ### The placement manager -/

/-- A channel image of one program word, 256 bytes; an image of Keep firmware. -/
def chanImage : List Byte :=
  ([0x4D4C4456, 0x001, 256, 1, 0, 1, 0, 1, 0, 0, 0, 0, 0, 0, 0, 0, 1, 0x50, 4, 0].flatMap fun (x : Word) => toBytes x.toNat 4) ++
    List.replicate 176 0
def keepImage : List Byte :=
  ([0x4D4C4456, 0x201, 256, 1, 0, 1, 0, 1, 0, 0, 0, 0, 0, 0, 0, 0, 3, 0x50, 4, 0].flatMap fun (x : Word) => toBytes x.toNat 4) ++
    List.replicate 176 0

/-- A valid descriptor: its image at 0x4C010000, no port, no buffer, no period, a state of 64 bytes, a stack of 64. -/
def desc3 : List Word := [1, 0x4C010000, 256, 0, 0, 0, 0, 0, 0, 0, 64, 0x1000] ++ List.replicate 20 0

/-- Channel 3 as that descriptor makes it, in state `st` on engine 2. -/
def chan3 (st : Nat) : Chan :=
  { Chan.init with st := st, eng := 2, desc := desc3, code := 0x4C010050, words := 1, priv := 0x48000000, seq := 1 }

/-- COMMISSION with the image in the exchange memory, the descriptor in slot 3, no reserve, and banks 0-3 ON. -/
def plm0 : State :=
  let s := ((((com.setBankState 1 0).setBankState 2 0).setBankState 3 0).setBytes 0x4C010000 chanImage)
  let s := desc3.zipIdx.foldl (fun (s : State) p => s.setReg (PLM_DESC 3 p.2) p.1) s
  s.updPlm fun p => { p with reserve := 0 }

/-- With channel 3 in state `st`; with the command OP `op`, OBJ `obj`, ARG `arg`, TAG 7 held. -/
def withChan (st : Nat) : State := plm0.updPlm fun p => { p with chans := [(3, chan3 st)] }
def asks (s : State) (op obj arg : Nat) : State := { s with cmdq := [word (op + 7 * 2 ^ 8 + obj * 2 ^ 16 + arg * 2 ^ 24)] }

theorem asks_met (s : State) (op obj arg : Nat) (h : 1 ≤ op ∧ op ≤ 9) (ho : obj < 256) (ha : arg < 256) :
    Asks (asks s op obj arg) op 7 obj arg := by
  refine ⟨_, _, rfl, ?_, ?_, ?_, ?_, h⟩ <;> simp [cOp, cTag, cObj, cArg, bitsOf, word] <;> omega

theorem readImage_good (s s1 : State) (a n : Nat) (l : List Byte) (h : s.moverRead .keep a n = (l, none, s1)) (hv : s1.verify l n = 0)
    (hp : cProfile l = 0) (hm : (cModule l 1).isNone = false) : s.readImage a n = (0, l, s1) := by
  simp only [State.readImage, h, hv, hp, hm]; simp

theorem readChan_good (s s1 : State) (c : Nat) (l : List Byte) (hd : s.descBad (fun k => (s.reg (PLM_DESC c k)).toNat) = none)
    (h : s.readImage (s.reg (PLM_DESC c 1)).toNat (s.reg (PLM_DESC c 2)).toNat = (0, l, s1)) (hl : cUsesLane l = false)
    (hp : s1.portConflict c (fun k => (s.reg (PLM_DESC c k)).toNat) = false)
    (hb : (usedBufs fun k => (s.reg (PLM_DESC c k)).toNat).length + (windows (s.reg (PLM_DESC c 4)).toNat).length ≤ 5) :
    ∃ y, s.readChan c = (0, 0, y, s1) := by
  simp only [State.readChan, hd, h, hl, hp]
  exact ⟨_, by simp [Nat.not_lt.mpr hb]; rfl⟩

/-- What the Keep reads of the image, and the state after it. -/
def readBack : List Byte × Option Resp × State := (asks plm0 1 3 0).popCmd.moverRead .keep 0x4C010000 256

/-- A channel is read, where its key and signature are good. -/
theorem witness_PlacementCommands_declare
    (hk : ∀ w, Config.digest ((chanImage.drop (cLength chanImage - 128)).take 64) w = Config.factoryHash 0 w)
    (hs : Config.signatureValid (chanImage.take (cLength chanImage)) = true) :
    ∃ y, (asks plm0 1 3 0).popCmd.readChan 3 = (0, 0, y, readBack.2.2) := by
  have h1 : readBack = (chanImage, none, readBack.2.2) := by
    have a : readBack.1 = chanImage := by decide +kernel
    have b : readBack.2.1 = none := by decide +kernel
    rw [← a, ← b]
  have hf : readBack.2.2.fuses = Fuses.init := by decide +kernel
  refine readChan_good _ _ 3 chanImage (by decide +kernel) ?_ (by decide +kernel) (by decide +kernel) (by decide +kernel)
  have e1 : ((asks plm0 1 3 0).popCmd.reg (PLM_DESC 3 1)).toNat = 0x4C010000 := by decide +kernel
  have e2 : ((asks plm0 1 3 0).popCmd.reg (PLM_DESC 3 2)).toNat = 256 := by decide +kernel
  rw [e1, e2]
  refine readImage_good _ _ _ _ chanImage h1 (verify_good _ chanImage 256 (by decide +kernel) ?_ ?_ ?_ ?_ hs) (by decide +kernel)
    (by decide +kernel)
  · rw [hf]; decide +kernel
  · rw [hf]; decide +kernel
  · rw [hf]; decide +kernel
  · intro w; rw [hk]; simp only [State.slotHash, hf]; rfl

theorem witness_PlacementCommands_place :
    (readBack.2.2.placeChan 3 { chan3 0 with eng := 0 }).1 = 0 ∧ (readBack.2.2.pickNew (chan3 0).w false).isSome = true ∧
    ((asks plm0 1 255 0).popCmd.placeChan 3 (chan3 5)).1 = 0 ∧ plm0.deferred = [] ∧
    ((withChan 5).deferred = [(3, chan3 5)]) ∧
    com.descBad (fun k => (com.reg (PLM_DESC 3 k)).toNat) = some 0 := by decide +kernel

theorem witness_PlacementCommands_channels :
    ([0, 1, 2, 3, 4, 5, 6].all fun st => (withChan st).chan 3 == chan3 st && (withChan st).chanBusy 3 == false) = true ∧
    (chan3 2).startTag = 0 ∧ (chan3 2).stopReq = false ∧ (withChan 2).mig 3 = none ∧
    ({ chan3 1 with startTag := 8 }).startTag ≠ 0 ∧
    ((asks (withChan 2) 4 3 0).popCmd.openMig 3 7 .migrate false true (chan3 2) false 99).1 = 0 ∧
    ((withChan 2).setReg PWR_PD_STAT 0x55).pickTarget (chan3 2).w false true 0 99 = none ∧
    (let s := withChan 2
     let d (k : Nat) : Nat := if k = 1 ∨ k = 2 ∨ k = 10 ∨ k = 11 then (s.reg (PLM_DESC 3 k)).toNat else (chan3 2).w k
     [1, 2, 10, 11].find? (s.descWordBad d) = none ∧ (s.setReg (PLM_DESC 3 10) 1).reg (PLM_DESC 3 10) = 1 ∧
       (s.openMig 3 7 .update false false (chan3 2) false 99).1 = 0) ∧
    (let s := (withChan 2).setReg (PLM_DESC 3 10) 1
     [1, 2, 10, 11].find? (s.descWordBad fun k => (s.reg (PLM_DESC 3 k)).toNat) = some 10) ∧
    (((withChan 2).setReg (PLM_DESC 3 1) 0x4C020000).readImage 0x4C020000 256).1 = 0x15 ∧ cLayout chanImage = (chan3 2).layout := by
  decide +kernel

/-- Channel 3 in migration, with the record that `f` makes. -/
def mig3 (f : Mig → Mig) : State :=
  (withChan 3).updPlm fun p => { p with migs := [f ⟨3, 7, .migrate, 1, 2, 3, false, false, { chan3 2 with eng := 3, priv := 0x48000400 }, 0, 0,
    false, 0, 0, false, false, false, (0, 0)⟩] }

theorem witness_PlacementCommands_rest :
    (mig3 fun m => { m with committed := true }).mig 3 ≠ none ∧ ((mig3 fun m => { m with committed := true }).eng 2).st ≠ .isolated ∧ (mig3 fun m => m).mig 3 ≠ none ∧
    com.plm.update = none ∧ ({ com with plm := { com.plm with update := some (7, 2) } } : State).plm.update.isSome = true ∧
    (let s := ((com.setReg PLM_KIMGA 0x4C010000).setReg PLM_KIMGL 256).setBytes 0x4C010000 keepImage
     let r := s.moverRead .keep (s.reg PLM_KIMGA).toNat (s.reg PLM_KIMGL).toNat
     r.1 = keepImage ∧ r.2.1 = none ∧ (cModule keepImage 3).isSome = true ∧ formatOk keepImage 256 = true ∧
       r.2.2.fuses = Fuses.init ∧ cProfile keepImage = 2) ∧
    (com.moverRead .keep 0x30000000 256).2.1.isSome = true ∧ ((com.setReg (PLM_BRES 9 1) 4).reg (PLM_BRES 9 1)).getLsbD 2 = true ∧
    (com.reg (PLM_BRES 9 1)).getLsbD 2 = false ∧ declBad 0 0 = some 0 ∧ declBad 0x1000040 0 = none ∧
    (com.placeItem (128 + 9) 0 true false (pow2up (bSize 0x1000040)) ((classesOf (bLmax 0x1000040)).filter fun k => k != 0)).isSome = true ∧
    (com.setReg (PLM_BRES 9 1) 4).fld (PLM_BRES 9 1) ⟨8, 8⟩ = 0 ∧ com.engineUsable 2 = true ∧
    (com.setReg PWR_PD_STAT 0x55).engineUsable 2 = false ∧ com.plm.tests = [] ∧ com.role 2 = 0 ∧
    (com.setBankState 5 6).bankUsable 5 = false := by decide +kernel

theorem witness_PlacementEvents :
    ({ chan3 1 with startTag := 8 }).startTag ≠ 0 ∧ ({ chan3 2 with stopReq := true }).stopReq = true ∧
    com.plm.tests = [] ∧ com.vigil.res = [] ∧ com.mig 3 = none ∧
    (let s := mig3 fun m => m
     (s.loadEngine 3 (chan3 2)).1 = true ∧ (s.loadEngine 3 { chan3 2 with code := 0xF0000000 }).1 = false) ∧
    (chan3 2).w 5 = 0 ∧ 30500 + copyTime ((chan3 2).w 10) ≤ ({ chan3 2 with desc := desc3.set 5 50000 }).w 5 ∧
    ((chan3 2).w 3).testBit 3 = false ∧
    (let s := mig3 fun m => { m with phase := 7, k := 5 }
     let a := ((s.ecbPut 3 0x14 (s.ecbGet 2 0x14)).ecbPut 3 0x18 (s.ecbGet 2 0x18)).keepCopy (0x48000000 + 6 % 2 * 64) 0x48000400 64
     a.1 = true ∧ (a.2.keepCopy (0x48000000 + 6 % 2 * 64) (0x48000400 + 64) 64).1 = true) ∧
    (let s := mig3 fun m => { m with phase := 3 }
     let t := (s.ecbPut 2 8 0).ecbPut 3 8 0
     t.ecbGet 2 0x14 = t.ecbGet 3 0x14 ∧ t.ecbGet 2 0x18 = t.ecbGet 3 0x18) ∧
    (let t := (mig3 fun m => { m with phase := 3, retried := true }).ecbPut 2 0x14 1
     t.ecbGet 2 0x14 ≠ t.ecbGet 3 0x14) ∧
    ((mig3 fun m => { m with conv := true, phase := 2 }).ecbPut 3 0x10 0xFFFFFFFF).ecbGet 3 0x10 = 0xFFFFFFFF := by decide +kernel

/-- Channel 3 runs audited; engine 4 audits it, engine 5 votes where `v`. -/
def audited (v : Option Nat) : State :=
  (withChan 2).updPlm fun p => { p with
    chans := [(3, { chan3 2 with desc := desc3.set 0 0x201 })], audits := [⟨3, 9, 4, v⟩] }

theorem witness_PlacementEvents_audits :
    (let s := ((audited none).setFlag PLM_CFG PLM_CFG_AUDEN true).updPlm fun p => { p with audits := [] }
     ((s.chan 3).w 0).testBit 9 = true ∧ s.flag PLM_CFG PLM_CFG_AUDEN = true ∧ s.auditEngine 0 false = some 2 ∧
       (s.setReg PWR_PD_STAT 0x55).auditEngine 0 false = none ∧ (s.startAudit 3 4 3 9 0x48000000).isSome = true) ∧
    (audited none).sameResult 4 2 = true ∧ ((audited none).ecbPut 4 0x14 1).sameResult 4 2 = false ∧
    (let s := (audited none).ecbPut 4 0x14 1
     let u := ((s.count PLM_CNT_AUD 1).count PLM_CNT_AUDF 1).result' 3 fun s => s.count (PLM_RES 3 12) 1
     u.auditEngine 0 false = some 2 ∧ (u.startAudit 3 2 4 9 0x48000000).isSome = true) ∧
    (audited (some 5)).sameResult 2 5 = true ∧ ((audited (some 5)).ecbPut 2 0x14 1).sameResult 2 5 = false ∧
    ((audited (some 5)).ecbPut 2 0x14 1).sameResult 4 5 = true ∧
    (((audited (some 5)).ecbPut 2 0x14 1).ecbPut 4 0x14 2).sameResult 4 5 = false := by decide +kernel

theorem witness_PlacementEvents_failures :
    (withChan 2).engineFailed 2 (chan3 2) = false ∧ (withChan 2).engineFailed 2 { chan3 2 with voteLost := true } = true ∧
    (let s := ((withChan 2).calOff (cycleEntry 2)).setRole 2 0 0
     s.pickTarget (chan3 2).w false true 0 2 = some 3 ∧ (s.loadEngine 3 (chan3 2)).1 = true ∧
       (s.setReg PWR_PD_STAT 0x55).pickTarget (chan3 2).w false true 0 2 = none) ∧
    (com.resource (bankRes 5)).state ≠ 2 ∧ (com.resource (bankRes 5)).state ≠ 4 ∧ bankTestOf com.plm.tests 5 = none ∧
    ((com.updResource (bankRes 5) fun r => { r with state := 2 }).resource (bankRes 5)).state = 2 ∧ inBank com.plm.allocs 5 = [] ∧
    ((com.updEng 4 fun g => { g with st := .test }).eng 4).st = .test ∧ com.plmIdle = true ∧ com.flag PLM_STAT PLM_STAT_SWAP = false ∧
    (com.setFlag PLM_STAT PLM_STAT_SWAP true).flag PLM_STAT PLM_STAT_SWAP = true ∧ com.regShut .pcie PLM_LXBASE = false ∧
    com.regShut .pcie PLM_LXSIZE = false ∧ hostOrKeep .pcie = true ∧ com.plm.chans = [] ∧ com.plm.allocs = [] ∧
    poolOk 0x4C020000 4096 = true ∧ poolOk 0x4C020000 100 = false ∧ hostOrKeep (.engine 0) = false ∧
    (0x4C010000 : Word) ≠ com.reg PLM_LXBASE ∧ poolOk 0x4C010000 4096 = true ∧ com.regShut (.engine 0) PLM_LXBASE = false := by decide +kernel

/-! ### The Cupola -/

theorem bytes_getD (s : State) (a n k : Nat) (h : k < n) : (s.bytes a n).getD k 0 = s.byte (a + k) := by
  induction n generalizing a k with
  | zero => omega
  | succ n ih =>
    cases k with
    | zero => simp [State.bytes]
    | succ k => simp only [State.bytes, List.getD_cons_succ]; rw [ih _ _ (by omega)]; congr 1; omega

theorem bytes_eq (s : State) (a : Nat) (d : List Byte) (h : ∀ k, k < d.length → s.byte (a + k) = d.getD k 0) :
    s.bytes a d.length = d := by
  induction d generalizing a with
  | nil => rfl
  | cons b t ih =>
    simp only [List.length_cons, State.bytes]
    have h0 := h 0 (by simp)
    simp at h0
    rw [h0, ih (a + 1)]
    intro k hk
    have := h (k + 1) (by simpa using hk)
    simp only [List.getD_cons_succ] at this
    rw [← this]; congr 1; omega

theorem mramGranule_eq (s : State) (h : s.mramQ = []) (g : Nat) : s.mramGranule g = s.bytes g 8 := by
  unfold State.mramGranule; rw [h]; rfl

theorem mramBytes_eq (s : State) (h : s.mramQ = []) (a n : Nat) : s.mramBytes a n = s.bytes a n := by
  induction n generalizing a with
  | zero => rfl
  | succ n ih =>
    rw [State.mramBytes, State.bytes, ih, mramGranule_eq s h, bytes_getD _ _ _ _ (Nat.mod_lt _ (by omega)), Nat.mul_comm,
      Nat.div_add_mod]

theorem checkGranules_clean (s : State) (h : s.ecc = []) (r : Region) (n : Nat) (b : Bool) (l : List Nat) :
    s.checkGranules r n b l = (false, s) := by
  induction l with
  | nil => rfl
  | cons g t ih => simp [State.checkGranules, State.checkGranule, State.mark, h, Tbl.get, ih]

/-- A stored block is read back. -/
theorem readMram_stored (s : State) (a : Nat) (d : List Byte) (n : Nat) (he : s.ecc = []) (hq : s.mramQ = []) (hn : d.length = n)
    (h : ∀ k, k < d.length → s.byte (a + k) = d.getD k 0) : s.readMram a n = (some d, s) := by
  subst hn
  simp [State.readMram, checkGranules_clean s he, mramBytes_eq s hq, bytes_eq s a d h]

/-- The first 128 words of parameter set 0 (R541): input 0 used from supply 0, every supply pulsed, output 0 tested. -/
def setHead : List Byte :=
  ([0x00105A3C, 0, 0, 0, 0x10100] ++ List.replicate 15 0x100 ++ List.replicate 4 (word (3 + 100 * 4 + 50 * 4096)) ++ [4, 0] ++
    List.replicate 38 0 ++ [0, 1, 0, 0, 0, 0, 0, 0, 0, 0, 0, 1] ++ List.replicate 20 0 ++ [0, 1, 0, 0, 0, 0, 0, 0, 0, 0, 0, 1] ++
    List.replicate 20 0).flatMap fun (x : Word) => toBytes x.toNat 4
def setBody : List Byte := setHead ++ List.replicate 1532 0
def set0 : List Byte := setBody ++ toBytes (crc32c setBody).toNat 4

theorem setHead_length : setHead.length = 512 := by decide +kernel
theorem setBody_length : setBody.length = 2044 := by
  rw [setBody, List.length_append, setHead_length, List.length_replicate]
theorem set0_length : set0.length = 2048 := by simp [set0, setBody_length, toBytes]

theorem ofBytes_toBytes4 (v : Word) : ofBytes (toBytes v.toNat 4) = v.toNat := by
  have := v.isLt
  simp [toBytes, ofBytes]; omega

theorem set0_crc : psW set0 0x7FC = (crc32c setBody).toNat := by
  have h : set0.drop 0x7FC = toBytes (crc32c setBody).toNat 4 := by
    rw [set0, List.drop_append, setBody_length, List.drop_of_length_le (by rw [setBody_length])]; simp
  rw [psW, h, List.take_of_length_le (by simp [toBytes]), ofBytes_toBytes4]

theorem set0_take : set0.take 0x7FC = setBody := by
  rw [set0, List.take_append, setBody_length, List.take_of_length_le (by rw [setBody_length])]; simp

theorem set0_zero (j : Nat) (h1 : 128 ≤ j) (h2 : j < 511) : psW set0 (4 * j) = 0 := by
  have h : (set0.drop (4 * j)).take 4 = List.replicate 4 0 := by
    rw [set0, setBody, List.append_assoc, List.drop_append, setHead_length, List.drop_of_length_le (by rw [setHead_length]; omega),
      List.nil_append, List.drop_append, List.length_replicate, List.drop_replicate, List.take_append, List.take_replicate,
      List.length_replicate]
    rw [show min 4 (1532 - (4 * j - 512)) = 4 by omega, show 4 - (1532 - (4 * j - 512)) = 0 by omega, List.take_zero,
      List.append_nil]
  rw [psW, h]; rfl

theorem set0_head0 : (List.range 32).all (fun j => psWordOk set0 0 (4 * (32 * 0 + j))) = true := by decide +kernel
theorem set0_head1 : (List.range 32).all (fun j => psWordOk set0 0 (4 * (32 * 1 + j))) = true := by decide +kernel
theorem set0_head2 : (List.range 32).all (fun j => psWordOk set0 0 (4 * (32 * 2 + j))) = true := by decide +kernel
theorem set0_head3 : (List.range 32).all (fun j => psWordOk set0 0 (4 * (32 * 3 + j))) = true := by decide +kernel

theorem set0_head (j : Nat) (h : j < 128) : psWordOk set0 0 (4 * j) = true := by
  have f (k : Nat) (hk : (List.range 32).all (fun j => psWordOk set0 0 (4 * (32 * k + j))) = true) (h : j / 32 = k) :
      psWordOk set0 0 (4 * j) = true := by
    have := List.all_eq_true.mp hk (j % 32) (by simpa using Nat.mod_lt j (by omega))
    rwa [← h, Nat.div_add_mod] at this
  have : j / 32 = 0 ∨ j / 32 = 1 ∨ j / 32 = 2 ∨ j / 32 = 3 := by omega
  rcases this with h | h | h | h
  · exact f 0 set0_head0 h
  · exact f 1 set0_head1 h
  · exact f 2 set0_head2 h
  · exact f 3 set0_head3 h

theorem psWordOk_zero (l : List Byte) (n o : Nat) (h : psW l o = 0) (h1 : 0x200 ≤ o) (h2 : o ≠ 0x7FC) : psWordOk l n o = true := by
  unfold psWordOk
  simp only [h]
  rw [if_neg (by omega), if_neg (by omega), if_neg (by simp; omega), if_neg (by simp; omega), if_neg (by simp; omega),
    if_neg (by simp; omega), if_neg (by omega)]
  simp

theorem psWordOk_crc (l : List Byte) (n : Nat) (h : word (psW l 0x7FC) = crc32c (l.take 0x7FC)) (hl : psW l 0x7FC < 2 ^ 32) :
    psWordOk l n 0x7FC = true := by
  have hm : psW l 0x7FC &&& psMask 0x7FC = psW l 0x7FC := by
    rw [show psMask 0x7FC = 2 ^ 32 - 1 from rfl, Nat.and_two_pow_sub_one_eq_mod, Nat.mod_eq_of_lt hl]
  simp [psWordOk, hm, h]

theorem set0_last : psWordOk set0 0 0x7FC = true := by
  apply psWordOk_crc
  · rw [set0_crc, set0_take]; simp [word]
  · rw [set0_crc]; exact (crc32c setBody).isLt

theorem set0_valid : psValid set0 0 = true := by
  have h : psBad set0 0 = none := by
    rw [psBad, List.find?_eq_none]
    intro j hj
    have hj : j < 512 := List.mem_range.mp hj
    suffices psWordOk set0 0 (4 * j) = true by rw [this]; exact Bool.false_ne_true
    rcases Nat.lt_or_ge j 128 with h1 | h1
    · exact set0_head j h1
    · rcases Nat.lt_or_ge j 511 with h2 | h2
      · exact psWordOk_zero set0 0 (4 * j) (set0_zero j h1 h2) (by omega) (by omega)
      · have h0 : 4 * j = 0x7FC := by omega
        rw [h0]; exact set0_last
  rw [psValid, set0_length, h]; rfl

/-- Both copies of the set in MRAM, and the switches that select set 0 with both permits. -/
def cupWith (s : State) : State := { com with mem := s.mem, cup := { com.cup with sw := 0xBF0 } }
def cup0 : State := cupWith ((com.setBytes (copyA 0) set0).setBytes (copyB 0) set0)

theorem cupWith_byte (s : State) (c : Nat) : (cupWith s).byte c = s.byte c := rfl

theorem witness_setsRead :
    cup0.readMram (copyA 0) 2048 = (some set0, cup0) ∧ cup0.readMram (copyB 0) 2048 = (some set0, cup0) ∧ psValid set0 0 = true := by
  refine ⟨readMram_stored cup0 _ set0 2048 rfl rfl set0_length ?_, readMram_stored cup0 _ set0 2048 rfl rfl set0_length ?_, set0_valid⟩
  · intro k hk
    rw [cup0, cupWith_byte, State.byte_setBytes, State.byte_setBytes, set0_length]
    rw [set0_length] at hk
    rw [if_neg (by simp only [copyA, copyB]; omega), if_pos (by omega), Nat.add_sub_cancel_left]
  · intro k hk
    rw [cup0, cupWith_byte, State.byte_setBytes, set0_length]
    rw [set0_length] at hk
    rw [if_pos (by omega), Nat.add_sub_cancel_left]

/-- The island holds a whole request (TAG 7); the state `f` of the island besides. -/
def requestOn (s : State) (f : Cup → Cup) (op arg : Nat) (data : List Word) : State :=
  { s with cup := f { s.cup with req := word (op + 7 * 2 ^ 8 + arg * 2 ^ 16) :: data } }
def request (f : Cup → Cup) (op arg : Nat) (data : List Word) : State := requestOn cup0 f op arg data

theorem requestOn_met (s : State) (f : Cup → Cup) (op arg : Nat) (data : List Word)
    (h : s.flag (XCH_MBX_STAT 124) XCH_MBX_STAT_FULL = false) (ho : op < 256) (ha : arg < 65536)
    (hf : ∀ x, (f x).req = x.req) (hd : data.length + 1 = reqWords op) : Request (requestOn s f op arg data) op 7 arg data := by
  refine ⟨h, _, hf _, ?_, ?_, ?_, hd⟩ <;> simp [bitsOf, word] <;> omega

theorem request_met (f : Cup → Cup) (op arg : Nat) (data : List Word) (ho : op < 256) (ha : arg < 65536)
    (hf : ∀ x, (f x).req = x.req) (hd : data.length + 1 = reqWords op) : Request (request f op arg data) op 7 arg data :=
  requestOn_met cup0 f op arg data (by decide +kernel) ho ha hf hd

/-- Set 0 as the active set in short: one byte, its CRC word 0, confirmed. -/
def shortSet : State := { cup0 with cup := { cup0.cup with set := [1] }, sealw := { cup0.sealw with conf := [(0, some 0)] } }

theorem witness_CupolaRequests :
    cup0.flag (XCH_MBX_STAT 124) XCH_MBX_STAT_FULL = false ∧ com.cup.req = [] ∧ cup0.mode = 2 ∧
    (cup0.setFld SYS_MODE SYS_MODE_MODE 3).mode = 3 ∧ cup0.sw9 = true ∧ cup0.sw8 = true ∧ com.sw9 = false ∧ com.sw8 = false ∧
    cup0.cup.job = none ∧ cup0.holdStands = false ∧ cup0.setConf = false ∧ shortSet.setConf = true ∧ shortSet.sealw.brk = false ∧
    shortSet.sealw.recBrk = false ∧ cup0.cup.active ≤ 1 ∧
    (let s : State := { cup0 with cup := { cup0.cup with hold := 7, live := 0x80 } }
     s.cup.hold ≠ 0 ∧ s.cup.live.getLsbD s.cup.hold = true) ∧
    (let s : State := { cup0.setFld SYS_MODE SYS_MODE_MODE 5 with cup := { cup0.cup with hold := 7 } }
     s.cup.hold ≠ 0 ∧ s.cup.live.getLsbD s.cup.hold = false ∧ s.mode = 5 ∧ s.flag VIG_STAT VIG_STAT_HOLDREQ = false) := by
  decide +kernel

/-- A request of each kind is held; a confirmation reads both copies of a valid set. -/
theorem witness_CupolaRequests_held (l : List Word) (h : l = [0x4C000000] ∨ l = [crc32c setBody]) :
    Request (request id 1 3 l) 1 7 3 l ∧ Request (request id 2 0 l) 2 7 0 l ∧ Request (request id 3 1 []) 3 7 1 [] ∧
    Request (request id 7 0 [0x4C000000, 4096]) 7 7 0 [0x4C000000, 4096] ∧ Request (request id 5 0x400 []) 5 7 0x400 [] ∧
    Request (request id 9 0 []) 9 7 0 [] := by
  have hl : l.length = 1 := by rcases h with h | h <;> rw [h] <;> rfl
  refine ⟨request_met id 1 3 l (by decide) (by decide) (fun _ => rfl) (by rw [hl]; rfl),
    request_met id 2 0 l (by decide) (by decide) (fun _ => rfl) (by rw [hl]; rfl),
    request_met id 3 1 [] (by decide) (by decide) (fun _ => rfl) rfl, request_met id 7 0 _ (by decide) (by decide) (fun _ => rfl) rfl,
    request_met id 5 0x400 [] (by decide) (by decide) (fun _ => rfl) rfl, request_met id 9 0 [] (by decide) (by decide) (fun _ => rfl) rfl⟩

/-- An order of 8 bytes from 0x4C000000 to the staging area is held by the Keep, the window open over it. -/
def ordered : State :=
  { cup0 with cup := { cup0.cup with taken := [word (0x81 + 7 * 2 ^ 8 + 2 ^ 16), 0x4C000000, 0x54178000], wwa := 0x54178000, wwl := 8 } }
/-- The Keep's reply 0 with TAG 7 waits in MBX125 for that order. -/
def replied (r : Word) : State :=
  { ((com.setFlag (XCH_MBX_STAT 125) XCH_MBX_STAT_FULL true).setReg (XCH_MBX_PEEK 125) r) with
    cup := { com.cup with order := some ⟨7, 8, 0x4C000000, 0x54178000⟩ } }

theorem witness_CupolaOrders :
    cup0.cup.resps = [] ∧ cup0.cup.orders = [] ∧ cup0.flag (XCH_MBX_STAT 127) XCH_MBX_STAT_FULL = false ∧ cup0.cup.taken = [] ∧
    (let w : Word := word (0x81 + 7 * 2 ^ 8 + 2 ^ 16)
     ordered.cup.taken = [w, 0x4C000000, 0x54178000] ∧ bitsOf w.toNat 16 16 * 8 = 8 ∧
       (({ cup0 with cup := { ordered.cup with taken := [] } } : State).orderSource 0x4C000000 8).isSome = true ∧ w.toNat % 256 = 0x81 ∧
       safetyArea 0x54178000 = true ∧ ordered.mramAllowed .keep 0x54178000 8 = true ∧ ordered.mramStop = false ∧
       cup0.mramAllowed .keep 0x54178000 8 = false ∧ cup0.orderSource 0x48000000 8 = none) ∧
    com.flag (XCH_MBX_STAT 125) XCH_MBX_STAT_FULL = false ∧ com.cup.order = none ∧ (replied 0x700).cup.order ≠ none ∧
    ([(0x700 : Word), 0x701].all fun r =>
      let s := replied r
      let c := mailboxConsume .gateway 2 125 s
      s.flag (XCH_MBX_STAT 125) XCH_MBX_STAT_FULL && c.resp == .data (toBytes r.toNat 4) &&
        c.cup.order == some ⟨7, 8, 0x4C000000, 0x54178000⟩ && bitsOf (ofBytes (toBytes r.toNat 4)) 8 8 == 7) = true := by decide +kernel

theorem witness_CupolaOrders_reply :
    let s := replied 0x700
    let q := ((mailboxConsume .gateway 2 125 s).answer s.resp).updCup fun x => { x with wwl := 0, order := none }
    let r := q.readMram 0x54178000 8
    r.1 = some (List.replicate 8 0) ∧ r.2.orderSource 0x4C000000 8 = some (List.replicate 8 0) ∧
      (r.2.setByte 0x4C000000 1).orderSource 0x4C000000 8 ≠ some (List.replicate 8 0) := by decide +kernel

theorem witness_CupolaOrders_cores :
    (com.resource (resId 8 1)).state ≠ 6 ∧ ((com.updResource (resId 8 1) fun r => { r with state := 6 }).resource (resId 8 1)).state = 6 ∧
    ((com.updEng 34 fun g => { g with st := .test }).eng 34).st = .test ∧ (com.eng 34).st ≠ .test ∧ swValid com.cup.sw = false ∧
    swValid cup0.cup.sw = true ∧ bitsOf cup0.cup.sw.toNat 0 4 = 0 ∧ cup0.cup.order = none ∧ com.cup.takeover = false ∧
    com.cup.active ≤ 1 ∧ com.mode = 2 ∧ com.holdStands = false ∧
    (let s : State := { com.setFld SYS_MODE SYS_MODE_MODE 3 with cup := { com.cup with sw := 0xBF0 } }
     (s.readMram (copyA 0) 2048).1.isSome = true ∧ (s.readMram (copyB 0) 2048).1.isSome = true ∧ s.mode = 3 ∧ s.cup.hold = 0 ∧
       s.cup.newCore = 0 ∧ s.reg SYS_HOLDPOL = 0 ∧ psWordOk (List.replicate 2048 0) 0 0 = false) := by decide +kernel

/-- Core CUP-A runs; the mode is RUN. -/
def cupRun : State := (com.setFld SYS_MODE SYS_MODE_MODE 3).updEng 33 fun g => { g with st := .running, run := true }

theorem witness_SafetyCycle :
    com.cupRuns = false ∧ cupRun.cupRuns = true ∧ com.mode = 2 ∧ cupRun.mode = 3 ∧ com.cup.active = 0 ∧
    (cupRun.eng 33).pfsig = Tbl.get (fun _ => 0) cupRun.cup.sig (64 * 0 + 0) ∧ cupRun.cup.chk = none ∧
    ((cupRun.updEng 33 fun g => { g with pfsig := 1 }).eng 33).pfsig ≠ Tbl.get (fun _ => 0) cupRun.cup.sig (64 * 0 + 0) ∧
    cupRun.cup.hold = 0 ∧ cupRun.cup.newCore = 0 ∧ cupRun.reg SYS_HOLDPOL = 0 ∧ safetyArea (0x48000000 / 4 * 4) = false ∧
    safetyArea (0x54178004 / 4 * 4) = true ∧ (cupRun.readMram 0x54178004 4).1.isSome = true ∧
    cupRun.cup.chk63 = false ∧ ({ cupRun with cup := { cupRun.cup with chk0 := true } } : State).cup.chk0 = true ∧
    -100 ≤ (100 : BitVec 16).toInt ∧ (100 : BitVec 16).toInt ≤ 100 ∧ 100 < (101 : BitVec 16).toInt := by decide +kernel

/-- A link frame of type `ty` with sequence number 1, safe sequence number 1 and output command 1. -/
def frameBody (ty : Byte) : List Byte := [ty, 1] ++ List.replicate 38 0 ++ [1, 0, 1, 2] ++ List.replicate 52 0
def linkFrame (ty : Byte) : List Byte := frameBody ty ++ toBytes (crc32c (frameBody ty)).toNat 4

theorem frame_ok (d : List Byte) (seq pos : Nat) (hl : d.length = 96) (h1 : (d.getD 1 0).toNat = (seq + 1) % 256)
    (h2 : (d.getD 0 0).toNat % 16 = if pos = 4 then 2 else 1) :
    frameOk (d ++ toBytes (crc32c d).toNat 4) true seq pos = true := by
  have hd : (d ++ toBytes (crc32c d).toNat 4).drop 96 = toBytes (crc32c d).toNat 4 := by rw [← hl, List.drop_left]
  have ht : (d ++ toBytes (crc32c d).toNat 4).take 96 = d := by rw [← hl, List.take_left]
  have g (k : Nat) (hk : k < 96) : (d ++ toBytes (crc32c d).toNat 4).getD k 0 = d.getD k 0 := by
    simp [List.getD_eq_getElem?_getD, List.getElem?_append_left (show k < d.length by omega)]
  simp only [frameOk, hd, ht, g 0 (by omega), g 1 (by omega), h1, h2, ofBytes_toBytes4]
  by_cases h : pos = 4 <;> simp [h, hl, word, toBytes]

/-- The field die runs and the link is up; frames of type `ty` have arrived on both sides, at position `pos`. -/
def linked (ty : Byte) (pos : Nat) : State :=
  { com with
    die := { com.die with run := true, linked := true, pos := pos }
    cup := { com.cup with link := 2, up := linkFrame ty, down := linkFrame ty, upPos := pos } }

theorem witness_FieldLink_frames :
    frameOk (linkFrame 2) true 0 4 = true ∧ frameOk (linkFrame 1) true 0 0 = true :=
  ⟨frame_ok (frameBody 2) 0 4 (by decide) (by decide) (by decide), frame_ok (frameBody 1) 0 0 (by decide) (by decide) (by decide)⟩

theorem witness_FieldLink_received :
    (linked 2 4).cup.up = linkFrame 2 ∧ (linked 2 4).cup.down = linkFrame 2 ∧ (linked 1 0).cup.up = linkFrame 1 := ⟨rfl, rfl, rfl⟩

theorem witness_FieldLink :
    com.die.run = true ∧ ({ com with die := { com.die with run := false } } : State).die.run = false ∧ com.cup.tx.length = 64 ∧
    (linked 2 4).cup.upSeq = 0 ∧ (linked 2 4).cup.upPos = 4 ∧ (linked 2 4).die.seq = 0 ∧ (linked 2 4).die.pos = 4 ∧
    (linked 1 0).cup.upPos = 0 ∧ (linked 1 0).outOff = true ∧ cupRun.outOff = false ∧ (linked 1 0).cup.link = 2 ∧ frameOk (linked 1 0).cup.up false 0 0 = false ∧
    ((linked 2 4).cup.up.getD 0 0).toNat % 16 = 2 ∧
    ((linked 1 0).cup.up.getD 0 0).toNat % 16 ≠ 2 ∧
    (((linkFrame 2).getD 43 0).toNat % 4 = 3 - ((linkFrame 2).getD 42 0).toNat % 4 ∧
      ofBytes (((linkFrame 2).drop 40).take 2) = ((linked 2 4).die.sseq + 1) % 65536) ∧
    (linked 1 0).cup.hold = 0 ∧ (linked 1 0).cup.newCore = 0 ∧ (linked 1 0).mode = 2 ∧ (linked 1 0).reg SYS_HOLDPOL = 0 ∧
    com.cup.link ≠ 2 ∧ com.cup.link = 0 ∧ com.fld FLD_LINK ⟨2, 4⟩ = 0 ∧ (com.setFld FLD_LINK ⟨2, 4⟩ 1).fld FLD_LINK ⟨2, 4⟩ ≠ 0 ∧
    (∀ l : Fin 4, (com.resource (resId 9 l)).state ≠ 5) := by decide +kernel

/-- The set is active and the link up; the field die as `f` makes it. -/
def inputs (f : Die → Die) : State :=
  { com with cup := { com.cup with set := setHead }, die := f { com.die with run := true, linked := true } }

theorem witness_SafeInputsAndOutputs :
    (∀ i : Fin 16, ((inputs id).safeIn i).suspect = none) ∧ (inputs id).inSup 0 < 4 ∧ ((inputs id).supply 0).pulse = false ∧
    5 ≤ ((inputs id).supply 0).age ∧ (inputs id).inUsed 0 = true ∧ (inputs id).inSup 0 = 0 ∧ (inputs id).die.run = true ∧
    psF (setHead.set 16 0x80) 0x10 7 1 = 1 ∧
    (let s : State := { inputs id with cup := { com.cup with set := setHead.set 16 0x80, rx := List.replicate 42 0 ++ [1, 0] ++ List.replicate 56 0 } }
     s.inOne 0 ≠ s.inOne 1) ∧
    (inputs id).inOne 0 = (inputs id).inOne 1 ∧ (inputs id).cup.set ≠ [] ∧ psF (inputs id).cup.set 0x50 0 2 = 3 ∧
    (inputs id).die.linked = true ∧ ((inputs id).supply 0).ovl = false ∧ com.cup.set = [] := by decide +kernel

/-- Supply 0, or 1, pulses; input 0 as `x`. -/
def pulsing (j : Nat) (x : SafeIn) : State :=
  inputs fun d => { d with sup := d.sup.setIfInBounds j ⟨false, true, 0, 1, 0, false, false⟩, ins := d.ins.setIfInBounds 0 x }

theorem witness_SafeInputs_pulse :
    (let s := pulsing 0 ⟨true, true, 0, 0, false, false, false, 0, none⟩
     (s.supply 0).pulse = true ∧ s.inUsed 0 = true ∧ s.inSup 0 = 0 ∧ (s.safeIn 0).logical = true) ∧
    (let s := pulsing 1 ⟨true, true, 0, 0, false, false, false, 0, none⟩
     (s.supply 1).pulse = true ∧ s.inSup 0 < 4 ∧ s.inSup 0 ≠ 1 ∧ (s.supply 1).pre.getLsbD 0 = true) ∧
    (let s := pulsing 0 ⟨true, true, 0, 0, true, false, true, 2, none⟩
     (s.safeIn 0).demand = true ∧ (s.supply 0).bad = false ∧ 2 ≤ (s.safeIn 0).passes) := by decide +kernel

/-- Both safe outputs as `x` and `y`. -/
def outputs (x y : SafeOut) : State := inputs fun d => { d with outs := #v[x, y] }

theorem witness_SafeOutputs :
    (let s := outputs ⟨true, false, true, 0, 99, false, false⟩ ⟨true, false, true, 0, 0, false, false⟩
     (s.die.outs.get 0).test = false ∧ (s.die.outs.get 0).on = true ∧ (s.die.outs.get 0).stuck = false ∧
       99 ≤ (s.die.outs.get 0).lows ∧ (s.die.outs.get (1 - 0)).test = false ∧ (s.die.outs.get (1 - 0)).on = true ∧
       (s.die.outs.get (1 - 0)).stuck = false ∧ psF s.cup.set 0x60 2 1 = 1 ∧ s.die.linked = true) ∧
    (let s := outputs ⟨false, false, true, 99, 0, false, false⟩ ⟨true, false, true, 0, 0, false, false⟩
     (s.die.outs.get 0).on = false ∧ (s.die.outs.get 0).highs = 99 ∧ (s.die.outs.get (1 - 0)).on = true ∧ s.cup.hold = 0 ∧
       s.cup.newCore = 0 ∧ s.mode = 2 ∧ s.reg SYS_HOLDPOL = 0) := by decide +kernel

/-! ### The queue, the tick and every step -/

/-- One command waits. -/
def waiting1 : State := { State.reset with pending := [.mov 0 1 (.d 2)] }

theorem witness_QueueStep : waiting1.pending = [.mov 0 1 (.d 2)] := rfl

/-- Processor `e` runs with TMR at `v` and `ns` nanoseconds of the present count passed. -/
def timing (v : Word) (ns : Nat) : State := on.setEng 0 { running with tmr := v, tmrNs := ns }

theorem witness_TickStep : State.reset.pending = [] ∧ State.reset.boot.held = false ∧
    { State.reset with boot := { State.reset.boot with held := true } }.pending = [] ∧
    ((0 : Nat) < 4 ∧ (State.reset.clock 0).slew = 0) ∧ ((3 : Nat) < 4 ∧ (State.reset.clock 3).slew = 0) ∧
    ((timing 0 2).eng 0).st = .running ∧ ((timing 0 2).eng 0).tmr = 0 ∧
    (2 ≤ ((timing 1 2).eng 0).tmrNs ∧ ((timing 1 2).eng 0).tmr = 1) ∧ (2 ≤ ((timing 2 9).eng 0).tmrNs ∧ ((timing 2 9).eng 0).tmr ≠ 0) ∧
    ((timing 1 1).eng 0).tmrNs < 2 ∧ ((timing 1 1).eng 34).st ≠ .running ∧ ((timing 1 1).eng 34).st ≠ .waiting ∧
    (timing 1 1).pending = [] ∧ (timing 1 1).boot.held = false := by decide +kernel

theorem witness_StepKeepsForms : Memory.wf State.reset.mem ∧ Registers.wf State.reset.regs ∧ step State.reset = .next State.reset.tick :=
  ⟨by decide, by decide, rfl⟩

theorem witness_FusesNeverUndone : step State.reset = .next State.reset.tick ∧
    (State.reset.fuses.slots.get 0).programmed = true ∧
    (({ State.reset with fuses := ⟨#v[⟨none, true, true⟩, ⟨none, true, false⟩, ⟨none, false, false⟩, ⟨none, false, false⟩], 64⟩ } : State).fuses.slots.get
      0).revoked = true := ⟨rfl, by decide, by decide⟩

/-! ### Effects worked out by hand from the rules -/

/-- The state after a command. -/
def after (i : Instr) (s : State) : State := match exec i s with
  | .next t => t
  | _ => s

/-- Engine 0 with D1 = `a` and D2 = `b`. -/
def withD (a b : Word) : State := on.setEng 0 { running with d := #v[0, a, b, 0, 0, 0, 0, 0] }
/-- D1 and PSW[5:0] (S, DZ, Z, N, V, C) of engine 0. -/
def dFlags (s : State) : Word × Nat := (s.dreg 0 1, (s.eng 0).psw.toNat % 64)
/-- PSW.SAT set in engine 0. -/
def saturating (s : State) : State := s.updEng 0 fun x => { x with psw := 0x100 }

-- 0xFFFFFFFF + 1 = 0 with a carry and no signed overflow (R56).
theorem test_add_wraps : dFlags (after (.add 0 1 (.d 2)) (withD 0xFFFFFFFF 1)) = (0, 0b001001) := by decide +kernel
-- 0x7FFFFFFF + 1 clamps under SAT: V and S (R57).
theorem test_add_clamps : dFlags (after (.add 0 1 (.d 2)) (saturating (withD 0x7FFFFFFF 1))) = (0x7FFFFFFF, 0b100010) := by decide +kernel
-- 1 - 2 borrows (R56).
theorem test_sub_borrows : dFlags (after (.sub 0 1 (.d 2)) (withD 1 2)) = (0xFFFFFFFF, 0b000101) := by decide +kernel
-- -0x80000000 overflows and borrows (R59, R115).
theorem test_neg_overflow : dFlags (after (.neg 0 1 (.d 2)) (withD 0 0x80000000)) = (0x80000000, 0b000111) := by decide +kernel
-- -7 / 2 is -3, remainder -1 in D0, the other register of the pair (R59, R117).
theorem test_div : dFlags (after (.div 0 1 (.d 2)) (withD (-7) 2)) = (-3, 0b000100) ∧
    (after (.div 0 1 (.d 2)) (withD (-7) 2)).dreg 0 0 = -1 := by decide +kernel
-- 7 / 0 unsigned: quotient all ones, DZ set (R59).
theorem test_divu_zero : (after (.divu 0 1 (.d 2)) (withD 7 0)).dreg 0 1 = 0xFFFFFFFF ∧
    ((after (.divu 0 1 (.d 2)) (withD 7 0)).eng 0).psw.getLsbD 4 = true := by decide +kernel
-- A shift left by exactly 32 leaves bit 0 in C (R59).
theorem test_shl_32 : dFlags (after (.shlv 0 1 (.d 2)) (withD 5 32)) = (0, 0b001001) := by decide +kernel
-- A count of 33 leaves C clear (R59).
theorem test_shl_33 : dFlags (after (.shlv 0 1 (.d 2)) (withD 5 33)) = (0, 0b001000) := by decide +kernel
-- The example of R55: the sum 0x2B3A1 folds to 0xB3A3.
theorem test_fold : (after (.acr 0 1 .f 1) (on.setEng 0 { running with ac := #v[0, 0x2B3A1, 0, 0] })).dreg 0 1 = 0xB3A3 := by
  decide +kernel

/-- The example of R79: 64 bytes from 0x48001000, the 24th of them 0x7E. -/
def scan0 : State := (on.setEng 0 { running with
    d := #v[0, 0, 0, 0, 0, 0, 0x7E, 64]
    a := #v[0, 0, 0, 0, 0, 0x48001000, 0, 0x48007F00] }).setByte 0x48001017 0x7E
/-- The repeated scan of the example. -/
def scan : Instr := .repne 0 (.str (.scas .b false))
-- The first group: four elements, no match.
theorem test_scan_group : (let t := after scan scan0; (t.dreg 0 7, t.areg 0 5)) = (60, 0x48001004) := by decide +kernel
-- Element 24 matches: D7 = 40, A5 = 0x48001018, Z = 1.
theorem test_scan_match :
    (let t := (List.range 6).foldl (fun s _ => after scan s) scan0
     (t.dreg 0 7, t.areg 0 5, (t.eng 0).psw.getLsbD 3, (t.eng 0).pc)) = (40, 0x48001018, true, 4) := by decide +kernel

/-- The bytes 0x31-0x39 at 0x48002000, D6 the polynomial and D7 = 9 (example of R142). -/
def crc0 : State := (on.setEng 0 { running with
    d := #v[0, 0, 0, 0, 0, 0, 0x82F63B78, 9]
    a := #v[0, 0, 0, 0, 0, 0x48002000, 0, 0x48007F00] }).setBytes 0x48002000 [0x31, 0x32, 0x33, 0x34, 0x35, 0x36, 0x37, 0x38, 0x39]
-- The check value of the nine bytes.
theorem test_crc :
    (let t := (List.range 3).foldl (fun s _ => after (.rep 0 (.str (.crcs 0 .b false true true))) s) crc0
     (t.accu 0 0, t.areg 0 5, t.dreg 0 7)) = (0xE3069283, 0x48002009, 0) := by decide +kernel

/-- The example of R106: regions 0 to 3 of engine E2.5. -/
def mpu0 : State := [(0, 0x48480000, 0x1007), (1, 0x4C003000, 0xC07), (2, 0x4C003C00, 0xA03), (3, 0x4849F000, 0xC07)].foldl
  (fun (s : State) (r : Nat × Word × Word) => (s.setReg (SYS_E_MPU_BASE 21 r.1) r.2.1).setReg (SYS_E_MPU_ATTR 21 r.1) r.2.2)
  (on.setReg (SYS_E_MPU_CTL 21) 1)
-- A store to 0x4C003C10 is refused, a load permitted; the stack and the lower image may be written; the next page may not be read.
theorem test_mpu : mpu0.mpuOk 21 0x4C003C10 true = false ∧ mpu0.mpuOk 21 0x4C003C10 false = true ∧ mpu0.mpuOk 21 0x4C003BFC true = true ∧
    mpu0.mpuOk 21 0x4849FFFC true = true ∧ mpu0.mpuOk 21 0x4C004000 false = false := by decide +kernel
-- The address of the example of R105.
theorem test_mpu_address : SYS_E_MPU_ATTR 21 3 = 0x60002624 := by decide

/-- The node of the example of chapter 09: 250 macroticks of 1 µs; OCLIM 1,000, RCLIM 300, RCSHIFT 1. -/
def camp0 : State := (((State.reset.setFld CTB_TIMING CTB_TIMING_CYCLEN 250).setFld CTB_TIMING CTB_TIMING_MTLEN 125).setFld
  CTB_SYNCCFG CTB_SYNCCFG_OCLIM 1000 |>.setFld CTB_SYNCCFG CTB_SYNCCFG_RCLIM 300).setFld CTB_SYNCCFG CTB_SYNCCFG_RCSHIFT 1
-- Cycle 36: OC = 18 ns; rho stays 4 ns.
theorem test_cycle36 :
    (let y := (camp0.correct { Sync.init with rho := 64, vals := [⟨0, 42, 0⟩, ⟨1, 18, 1⟩, ⟨2, -30, 2⟩] } 36 (some 5)).sync
     (y.oc, y.rho)) = (18, 64) := by decide +kernel
-- Cycle 37: OC = 15 ns, rho becomes 10 ns.
theorem test_cycle37 :
    (let y := (camp0.correct ⟨64, 18, 0, [⟨0, 36, 0⟩, ⟨1, 15, 1⟩, ⟨2, -39, 2⟩], [⟨0, 42, 0⟩, ⟨1, 18, 1⟩, ⟨2, -30, 2⟩], 0, 0, 0⟩ 37 (some 5)).sync
     (y.oc, y.rho)) = (15, 160) := by decide +kernel

/-- The payload of the example of chapter 12. -/
def payload : List Byte := [0x00, 0x12, 0xD6, 0x87, 0x42, 0x7E, 0x00, 0x00, 0xFF, 0x06]
/-- The entry of the words `l`. -/
def entry (l : List Nat) : List Byte := l.flatMap fun w => toBytes w 4
/-- What an entry writes from the payload. -/
def mapped (l : List Nat) : Nat × Nat × Bool :=
  transform (entry l) (sigFld (l.getD 1 0)) (sigValue (sigFld (l.getD 0 0)) ((sigFld (l.getD 0 0)).read payload)) (fun _ => 0) 0
theorem test_map_speed : mapped [0x006F8000, 0x00478000, 0x0147AE14, 31, 0, 0, 0, 0] = (0x303A, 0, false) := by decide +kernel
theorem test_map_temperature : mapped [0x00AF8080, 0x00478040, 10, 0, 0, 0xFFFFFE70, 0x5DC, 1] = (0x27B, 0, false) := by decide +kernel
theorem test_map_torque : mapped [0x00678100, 0x00038080, 0x0147AE14, 31, 0, 0, 0x64, 1] = (0, 1, true) := by decide +kernel

end Sys2Proof.Tests
end

section
/-! # Rules of reasoning about one Yofiaz instruction

How a command that issues comes down to its body, how a body that updates one processor is read off, and what each flag operation
does to the bits of the PSW (R56-R60). -/

set_option autoImplicit false

namespace Sys2Proof.Claims

open Sys2Proof Sys2Proof.Machine

/-! ### Changes of one processor -/

theorem OnlyEngine.refl (s : State) (e : Nat) : OnlyEngine s s e (s.eng e) := ⟨rfl, fun _ _ => rfl, rfl⟩

/-- A further update of the same processor changes nothing else. -/
theorem OnlyEngine.updEng {s t : State} {e : Nat} {y : Engine} (h : OnlyEngine s t e y) (f : Engine → Engine) :
    OnlyEngine s (t.updEng e f) e (f y) := by
  obtain ⟨hy, hk, hs⟩ := h
  exact ⟨by rw [State.eng_updEng_same, hy], fun k hne => by rw [State.eng_updEng_other t f hne, hk k hne], hs⟩

section
variable {s t : State} {e : Nat} {y : Engine}

theorem OnlyEngine.setD (h : OnlyEngine s t e y) (d : Fin 8) (w : Word) :
    OnlyEngine s (t.setD e d w) e { y with d := y.d.set d w } := h.updEng _

theorem OnlyEngine.setA (h : OnlyEngine s t e y) (a : Fin 8) (w : Word) :
    OnlyEngine s (t.setA e a w) e { y with a := y.a.set a w } := h.updEng _

theorem OnlyEngine.setAcc (h : OnlyEngine s t e y) (n : Fin 4) (w : Acc) :
    OnlyEngine s (t.setAcc e n w) e { y with ac := y.ac.set n w } := h.updEng _

theorem OnlyEngine.setPsw (h : OnlyEngine s t e y) (q : Word) :
    OnlyEngine s (t.setPsw e q) e { y with psw := q } := h.updEng _

theorem OnlyEngine.finish (h : OnlyEngine s t e y) (n : Nat) : OnlyEngine s (t.finish e n) e (y.finish n) := h.updEng _
end

/-- The state in which the body of an instruction runs: the PC is kept in SYS_Ete_PC. -/
abbrev issued (s : State) (e : Nat) : State := s.updEng e fun x => { x with lastPc := x.pc }

theorem onlyEngine_issued (s : State) (e : Nat) : OnlyEngine s (issued s e) e { s.eng e with lastPc := (s.eng e).pc } :=
  (OnlyEngine.refl s e).updEng _

section
variable (s : State) (e : Nat)

@[simp] theorem dreg_issued (d : Fin 8) : (issued s e).dreg e d = s.dreg e d := by simp [State.dreg]
@[simp] theorem areg_issued (a : Fin 8) : (issued s e).areg e a = s.areg e a := by simp [State.areg]
@[simp] theorem accu_issued (n : Fin 4) : (issued s e).accu e n = s.accu e n := by simp [State.accu]
@[simp] theorem psw_issued : (issued s e).psw e = s.psw e := by simp [State.psw]
@[simp] theorem src_issued (r : Src) : (issued s e).src e r = s.src e r := by cases r <;> simp [State.src]
@[simp] theorem asrc_issued (r : ASrc) : (issued s e).asrc e r = s.asrc e r := by cases r <;> simp [State.asrc]
end

/-! ### Issue -/

/-- A command whose meaning is the issue of `c` with `body` runs `body`. -/
theorem exec_of_issues {i : Instr} {s : State} {e : Eng} {c : Code} {body : State → State}
    (hexec : exec i s = .next (s.issue e c body)) (hcode : instrCode? i = some (e, c)) (h : IssuesCmd s e i) :
    exec i s = .next (body (issued s e)) := by
  obtain ⟨e', c', hc, -, hready, hext, hfetch⟩ := h
  obtain ⟨rfl, rfl⟩ : e = e' ∧ c = c' := by simpa [hcode] using hc
  rw [hexec, s.issue_clean e c body hready hext hfetch]

/-- A command whose body updates its processor only makes that update. -/
theorem makes_of_body {i : Instr} {s : State} {e : Eng} {c : Code} {body : State → State} {y : Engine}
    (hexec : exec i s = .next (s.issue e c body)) (hcode : instrCode? i = some (e, c)) (h : IssuesCmd s e i)
    (hbody : OnlyEngine s (body (issued s e)) e y) : Makes i s e y :=
  ⟨_, exec_of_issues hexec hcode h, hbody⟩

/-- A command whose body ends in a result for D[d] with PSW `q` makes that result. -/
theorem putsD_of_result {i : Instr} {s : State} {e : Eng} {c : Code} {body : State → State} {d : Fin 8} {r q : Word} {n : Nat}
    {cy v clamped : Bool} (hexec : exec i s = .next (s.issue e c body)) (hcode : instrCode? i = some (e, c))
    (h : IssuesCmd s e i) (hbody : body (issued s e) = (issued s e).result e c d r q)
    (hlen : c.len = n) (hflags : Flags (s.psw e) q cy v (r.getLsbD 31) (r == 0) clamped) : PutsD i s e n d r cy v clamped := by
  subst hlen
  exact ⟨q, hflags, makes_of_body hexec hcode h <| hbody ▸
    (((onlyEngine_issued s e).setD d r).setPsw q).finish c.len⟩

/-! ### Bits of the PSW -/

theorem getLsbD_putBit (w : Word) {k : Nat} (b : Bool) (hk : k < 32) (i : Nat) :
    (putBit w k b).getLsbD i = if i = k then b else w.getLsbD i := by
  have hbit : (word (2 ^ k)).getLsbD i = decide (i = k) := by
    rw [word, BitVec.getLsbD_ofNat, Nat.testBit_two_pow]
    by_cases h : i = k
    · simp [h, hk]
    · simp [h, Ne.symm h]
  by_cases hi : i = k
  · subst hi
    cases b <;> simp [putBit, hbit]
  · cases b
    · simp only [putBit, Bool.false_eq_true, if_false, BitVec.getLsbD_and, BitVec.getLsbD_not, hbit, hi, decide_false]
      have := @BitVec.lt_of_getLsbD 32 w i
      grind
    · simp [putBit, hbit, hi]

/-- S is sticky: a clamp sets it, nothing clears it (R56). -/
theorem stickS_eq_putBit (p : Word) (clamped : Bool) : stickS p clamped = putBit p 5 (p.getLsbD 5 || clamped) := by
  refine BitVec.eq_of_getLsbD_eq fun i _ => ?_
  have h20 : (0x20 : Word) = word (2 ^ 5) := rfl
  rw [getLsbD_putBit _ _ (by decide)]
  cases clamped
  · by_cases hi : i = 5 <;> simp [stickS, hi]
  · have h : stickS p true = putBit p 5 true := rfl
    rw [h, getLsbD_putBit _ _ (by decide), Bool.or_true]

section
variable {p q : Word} {c v n z clamped : Bool}

theorem Flags.refl (p : Word) : Flags p p (fC p) (fV p) (fN p) (fZ p) false :=
  ⟨rfl, rfl, rfl, rfl, (Bool.or_false _).symm, fun _ _ _ => rfl⟩

/-- One flag is set: the others and every mode bit stay. -/
theorem Flags.putBit (h : Flags p q c v n z clamped) {k : Nat} (hk : k < 4) (b : Bool) :
    Flags p (putBit q k b) (if k = 0 then b else c) (if k = 1 then b else v) (if k = 2 then b else n) (if k = 3 then b else z)
      clamped := by
  obtain ⟨hc, hv, hn, hz, hs, hrest⟩ := h
  have hbit := fun i => getLsbD_putBit q b (by omega : k < 32) i
  refine ⟨?_, ?_, ?_, ?_, ?_, fun i hi hne => ?_⟩
  · simpa [fC, eq_comm, ← hc] using hbit 0
  · simpa [fV, eq_comm, ← hv] using hbit 1
  · simpa [fN, eq_comm, ← hn] using hbit 2
  · simpa [fZ, eq_comm, ← hz] using hbit 3
  · rw [hbit, if_neg (by omega), hs]
  · rw [hbit, if_neg (by omega), hrest i hi hne]

theorem Flags.setC (h : Flags p q c v n z clamped) (b : Bool) : Flags p (setC q b) b v n z clamped :=
  h.putBit (k := 0) (by decide) b

theorem Flags.setV (h : Flags p q c v n z clamped) (b : Bool) : Flags p (setV q b) c b n z clamped :=
  h.putBit (k := 1) (by decide) b

/-- Z and N follow a result (R108). -/
theorem Flags.setZN (h : Flags p q c v n z clamped) (r : Word) : Flags p (setZN q r) c v (r.getLsbD 31) (r == 0) clamped :=
  (h.putBit (k := 3) (by decide) (r == 0)).putBit (k := 2) (by decide) (r.getLsbD 31)

theorem Flags.stickS (h : Flags p q c v n z false) (b : Bool) : Flags p (stickS q b) c v n z b := by
  obtain ⟨hc, hv, hn, hz, hs, hrest⟩ := h
  have hbit := fun i => getLsbD_putBit q (q.getLsbD 5 || b) (by decide : 5 < 32) i
  rw [stickS_eq_putBit]
  exact ⟨(hbit 0).trans hc, (hbit 1).trans hv, (hbit 2).trans hn, (hbit 3).trans hz, by rw [hbit, if_pos rfl, hs, Bool.or_false],
    fun i hi hne => by rw [hbit, if_neg hne, hrest i hi hne]⟩
end

/-- The flags of a shift or rotate (R60). -/
theorem flags_shiftFlags (p r : Word) (cy : Bool) : Flags p (shiftFlags p r cy) cy false (r.getLsbD 31) (r == 0) false :=
  (((Flags.refl p).setZN r).setC cy).setV false

/-- The flags of a comparison (R115). -/
theorem flags_cmpFlags (p a b : Word) : Flags p (cmpFlags p a b) (decide (a.toNat < b.toNat)) (!in32 (a.toInt - b.toInt))
    ((a - b).getLsbD 31) (a - b == 0) false :=
  (((Flags.refl p).setC _).setV _).setZN _

end Sys2Proof.Claims
end

section
/-! # Shifts and rotates (R59, R60, R118, R119, R143) -/

set_option autoImplicit false

namespace Sys2Proof.Claims

open Sys2Proof Sys2Proof.Machine

/-! ### Value and carry of each operation, for every count -/

theorem shlOp_eq (p a : Word) (k : Nat) :
    shlOp p a k = (a <<< k, shiftFlags p (a <<< k) (decide (0 < k ∧ k ≤ 32) && a.getLsbD (32 - k))) := by
  rcases Nat.eq_zero_or_pos k with rfl | hpos
  · simp [shlOp]
  · by_cases h : k ≤ 32 <;> simp [shlOp, h, hpos, Nat.ne_of_gt hpos]

theorem shrOp_eq (p a : Word) (k : Nat) :
    shrOp p a k = (a >>> k, shiftFlags p (a >>> k) (decide (0 < k) && a.getLsbD (k - 1))) := by
  rcases Nat.eq_zero_or_pos k with rfl | hpos
  · simp [shrOp]
  · simp [shrOp, hpos, Nat.ne_of_gt hpos]

/-- A count of 32 or more shifts the sign out last. -/
theorem sarOp_eq (p a : Word) (k : Nat) :
    sarOp p a k = (a.sshiftRight k, shiftFlags p (a.sshiftRight k) (decide (0 < k) && a.getLsbD (min k 32 - 1))) := by
  rcases Nat.eq_zero_or_pos k with rfl | hpos
  · simp [sarOp]
  · by_cases h : 32 ≤ k
    · simp [sarOp, h, hpos, Nat.ne_of_gt hpos]
    · simp [sarOp, h, hpos, Nat.ne_of_gt hpos, Nat.min_eq_left (Nat.le_of_not_le h)]

theorem rolOp_eq (p a : Word) (k : Nat) :
    rolOp p a k = (a.rotateLeft k, shiftFlags p (a.rotateLeft k) (decide (0 < k) && (a.rotateLeft k).getLsbD 0)) := by
  have hmod : a.rotateLeft (k % 32) = a.rotateLeft k := BitVec.rotateLeft_mod_eq_rotateLeft
  rcases Nat.eq_zero_or_pos k with rfl | hpos
  · simp [rolOp]
  · simp [rolOp, hmod, hpos, Nat.ne_of_gt hpos]

theorem rorOp_eq (p a : Word) (k : Nat) :
    rorOp p a k = (a.rotateRight k, shiftFlags p (a.rotateRight k) (decide (0 < k) && (a.rotateRight k).getLsbD 31)) := by
  have hmod : a.rotateRight (k % 32) = a.rotateRight k := BitVec.rotateRight_mod_eq_rotateRight
  rcases Nat.eq_zero_or_pos k with rfl | hpos
  · simp [rorOp]
  · simp [rorOp, hmod, hpos, Nat.ne_of_gt hpos]

/-- A command whose body puts the value and flags of a shift into D[d]. -/
theorem putsD_of_shift {i : Instr} {s : State} {e : Eng} {c : Code} {body : State → State} {d : Fin 8} {n : Nat} {r : Word} {cy : Bool}
    (hexec : exec i s = .next (s.issue e c body)) (hcode : instrCode? i = some (e, c)) (h : IssuesCmd s e i)
    (hbody : body (issued s e) = (issued s e).result e c d r (shiftFlags (s.psw e) r cy)) (hlen : c.len = n) :
    PutsD i s e n d r cy false false :=
  putsD_of_result hexec hcode h hbody hlen (flags_shiftFlags _ r cy)

/-- Settles O3: each operation's value and carry (`shlOp_eq` and the like) go through the one rule for a result in D[d]; an immediate
count is below 32, so the bounds of the register forms fall away. -/
theorem shiftRotateResults : Obligations.ShiftRotateResults := by
  intro s e d r k
  have hk := k.isLt
  have hpos : decide (k.val ≠ 0) = decide (0 < k.val) := by simp [Nat.pos_iff_ne_zero]
  have hle : decide (k.val ≠ 0) = decide (0 < k.val ∧ k.val ≤ 32) := by simp [Nat.pos_iff_ne_zero, hk.le]
  have hmin : min k.val 32 = k.val := Nat.min_eq_left hk.le
  refine ⟨fun h => ?shl, fun h => ?shr, fun h => ?sar, fun h => ?rol, fun h => ?ror, fun h => ?shlv, fun h => ?shrv,
    fun h => ?sarv, fun h => ?rolv, fun h => ?rorv⟩
  case shl => rw [hle]; exact putsD_of_shift rfl rfl h (by simp only [iShl, shlOp_eq, psw_issued, dreg_issued]) rfl
  case shr => rw [hpos]; exact putsD_of_shift rfl rfl h (by simp only [iShr, shrOp_eq, psw_issued, dreg_issued]) rfl
  case sar => rw [hpos]; exact putsD_of_shift rfl rfl h (by simp only [iSar, sarOp_eq, hmin, psw_issued, dreg_issued]) rfl
  case rol => rw [hpos]; exact putsD_of_shift rfl rfl h (by simp only [iRol, rolOp_eq, psw_issued, dreg_issued]) rfl
  case ror => rw [hpos]; exact putsD_of_shift rfl rfl h (by simp only [iRor, rorOp_eq, psw_issued, dreg_issued]) rfl
  case shlv => exact putsD_of_shift rfl rfl h (by simp only [iShlv, State.dOnly, shlOp_eq, psw_issued, dreg_issued]) rfl
  case shrv => exact putsD_of_shift rfl rfl h (by simp only [iShrv, State.dOnly, shrOp_eq, psw_issued, dreg_issued]) rfl
  case sarv => exact putsD_of_shift rfl rfl h (by simp only [iSarv, State.dOnly, sarOp_eq, psw_issued, dreg_issued]) rfl
  case rolv => exact putsD_of_shift rfl rfl h (by simp only [iRolv, rolOp_eq, psw_issued, dreg_issued]) rfl
  case rorv => exact putsD_of_shift rfl rfl h (by simp only [iRorv, rorOp_eq, psw_issued, dreg_issued]) rfl

end Sys2Proof.Claims
end

section
/-! # Address registers, accumulators and the program-flow signature (R52, R53, R124, R126-R128, R151) -/

set_option autoImplicit false

namespace Sys2Proof.Claims

open Sys2Proof Sys2Proof.Machine

/-- MAC in the terms of R53: the 48-bit sum, its overflow, and the clamp under SAT. -/
theorem macOp_eq (p : Word) (ac : Acc) (a b : Word) :
    let v := ac.toInt + (a.truncate 16 : BitVec 16).toInt * (b.truncate 16 : BitVec 16).toInt
    let o := !(decide (-2 ^ 47 ≤ v) && decide (v < 2 ^ 47))
    macOp p ac a b =
      (if o && fSat p then (if 0 < v then BitVec.ofNat 48 (2 ^ 47 - 1) else BitVec.ofNat 48 (2 ^ 47)) else BitVec.ofInt 48 v,
        stickS (setV p o) (o && fSat p)) := by
  intro v o
  have hlow : decide (-140737488355328 ≤ v) = decide (-2 ^ 47 ≤ v) := by norm_num
  have hhigh : decide (v ≤ 140737488355327) = decide (v < 2 ^ 47) := decide_eq_decide.2 (by norm_num; omega)
  simp only [macOp, o, v, ← hlow, ← hhigh]
  rfl

/-- CSUM adds both halves of the register (R127). -/
theorem csumOp_eq (ac : Acc) (a : Word) :
    csumOp ac a = ac + (a &&& 0xFFFF).zeroExtend 48 + (a >>> 16).zeroExtend 48 := by
  have hlow : (a &&& 0xFFFF).toNat = a.toNat % 65536 := by
    rw [BitVec.toNat_and]
    exact Nat.and_two_pow_sub_one_eq_mod a.toNat 16
  have ha := a.isLt
  refine BitVec.eq_of_toNat_eq ?_
  simp only [csumOp, BitVec.toNat_add, BitVec.truncate_eq_setWidth, BitVec.toNat_setWidth, BitVec.toNat_ofNat, hlow,
    BitVec.toNat_ushiftRight, Nat.shiftRight_eq_div_pow]
  omega

/-- Settles O5: each body is one or two updates of its processor and the completion. -/
theorem addressAndAccumulatorResults : Obligations.AddressAndAccumulatorResults := by
  intro s e a b n x y g
  have hissued := onlyEngine_issued s e
  refine ⟨fun h => ?mova, fun h => ?adda, fun h => ?suba, ?mac, fun h => ?csum, fun h => ?acw, fun h => ?acwGuard,
    fun hsafe h => ?pfs⟩
  case mova =>
    refine makes_of_body rfl rfl h ?_
    rw [iMova, asrc_issued]
    exact (hissued.setA a _).finish _
  case adda =>
    refine makes_of_body rfl rfl h ?_
    rw [iAdda, asrc_issued, areg_issued]
    exact (hissued.setA a _).finish _
  case suba =>
    refine makes_of_body rfl rfl h ?_
    rw [iSuba, src_issued, areg_issued]
    exact (hissued.setA a _).finish _
  case mac =>
    intro v o r h
    refine ⟨_, ((Flags.refl (s.psw e)).setV o).stickS (o && fSat (s.psw e)), makes_of_body rfl rfl h ?_⟩
    simp only [iMac, psw_issued, accu_issued, dreg_issued, macOp_eq]
    exact ((hissued.setAcc n r).setPsw _).finish 1
  case csum =>
    refine makes_of_body rfl rfl h ?_
    rw [iCsum, accu_issued, dreg_issued, csumOp_eq]
    exact (hissued.setAcc n _).finish 1
  case acw =>
    refine makes_of_body rfl rfl h ?_
    simp only [iAcw, accu_issued, dreg_issued]
    exact (hissued.setAcc n _).finish 1
  case acwGuard =>
    refine makes_of_body rfl rfl h ?_
    simp only [iAcw, accu_issued, dreg_issued]
    exact (hissued.setAcc n _).finish 1
  case pfs =>
    have hs : isSafe e = true := Nat.ble_eq_true_of_le hsafe
    refine makes_of_body rfl rfl h ?_
    rw [iPfs, if_pos hs, dreg_issued]
    exact (hissued.updEng _).finish 1

end Sys2Proof.Claims
end

section
/-! # Accesses of an engine to tower SRAM

What a read and a write of bytes that stand without error in a bank that is ON do (R22, R466, R469-R472, R619). -/

set_option autoImplicit false

namespace Sys2Proof.Claims

open Sys2Proof Sys2Proof.Machine

/-! ### Bytes of a number (R5) -/

theorem ofBytes_lt (l : List Byte) : ofBytes l < 256 ^ l.length := by
  induction l with
  | nil => simp [ofBytes]
  | cons b t ih =>
    have hb := b.isLt
    rw [ofBytes, List.length_cons, Nat.pow_succ]
    omega

/-- Bytes are the bytes of the number they spell. -/
theorem toBytes_ofBytes (l : List Byte) : toBytes (ofBytes l) l.length = l := by
  induction l with
  | nil => rfl
  | cons b t ih =>
    have hb := b.isLt
    have hhead : BitVec.ofNat 8 (b.toNat + 256 * ofBytes t) = b := BitVec.eq_of_toNat_eq (by simp; omega)
    have htail : (b.toNat + 256 * ofBytes t) / 256 = ofBytes t := by omega
    rw [ofBytes, List.length_cons, toBytes, hhead, htail, ih]

theorem length_toBytes (v n : Nat) : (toBytes v n).length = n := by
  induction n generalizing v with
  | zero => rfl
  | succ n ih => simp [toBytes, ih]

theorem length_bytes (s : State) (a n : Nat) : (s.bytes a n).length = n := by
  induction n generalizing a with
  | zero => rfl
  | succ n ih => simp [State.bytes, ih]

/-- The word of at most 4 bytes spells them again. -/
theorem toBytes_word_ofBytes (l : List Byte) (h : l.length ≤ 4) : toBytes (word (ofBytes l)).toNat l.length = l := by
  have hlt : ofBytes l < 2 ^ 32 := (ofBytes_lt l).trans_le (Nat.pow_le_pow_right (n := 256) (by decide) h)
  rw [word, BitVec.toNat_ofNat, Nat.mod_eq_of_lt hlt, toBytes_ofBytes]

theorem sizeBytes_le (z : Size) : sizeBytes z ≤ 4 := by cases z <;> decide

/-! ### Granules without error -/

/-- Every granule that bytes touch is the granule of one of them. -/
theorem mem_granules {a n g : Nat} (hn : 0 < n) (h : g ∈ granules 4 a n) : ∃ j, j < n ∧ g = (a + j) / 4 * 4 := by
  obtain ⟨i, hi, rfl⟩ : ∃ i, i < (a + n + 4 - 1) / 4 - a / 4 ∧ (a / 4 + i) * 4 = g := by simpa [granules] using h
  rcases Nat.eq_zero_or_pos i with rfl | hpos
  · exact ⟨0, hn, by simp⟩
  · exact ⟨(a / 4 + i) * 4 - a, by omega, by omega⟩

theorem checkGranules_clean (s : State) (r : Region) (rpn : Nat) (scrub : Bool) (l : List Nat) (h : ∀ g ∈ l, s.mark g = none) :
    s.checkGranules r rpn scrub l = (false, s) := by
  induction l with
  | nil => rfl
  | cons g t ih =>
    rw [State.checkGranules, State.checkGranule, h g (by simp)]
    simp only [ih fun k hk => h k (by simp [hk]), Bool.or_false]

/-- Every processor has the right to tower SRAM (R33). -/
theorem rights_eInit_tower (e : Nat) : rights (eInit e) .tower = true := by
  unfold eInit
  split <;> rfl

section
variable {s : State} {a n : Nat} (h : Plain s a n)
include h

theorem Plain.pos : 0 < n := by
  obtain ⟨hn, -⟩ := h
  omega

theorem Plain.region_eq : s.region a = .tower := by
  obtain ⟨-, hlo, hhi, -⟩ := h
  simp only [State.region]
  repeat rw [if_neg (by omega)]
  rw [if_pos (by omega)]

theorem Plain.mark_eq {g : Nat} (hg : g ∈ granules 4 a n) : s.mark g = none := by
  obtain ⟨j, hj, rfl⟩ := mem_granules h.pos hg
  obtain ⟨-, -, -, -, -, hmark⟩ := h
  exact hmark j hj

theorem Plain.blocked_eq (w : Bool) : s.blocked a w = none := by
  have hr := h.region_eq
  obtain ⟨-, -, -, -, hbank, -⟩ := h
  simp [State.blocked, hr, hbank]

/-- Bytes without error are read as they stand, and nothing changes. -/
theorem Plain.memAccess_read {e : Nat} : s.memAccess (eInit e) (.read a n) = (.data (s.bytes a n), s) := by
  have hcheck := checkGranules_clean s .tower (eInit e).rpn false _ fun g hg => h.mark_eq hg
  simp [State.memAccess, Access.addr, Access.isWrite, h.region_eq, h.blocked_eq, rights_eInit_tower, State.readMem, granSize, hcheck]
end

/-! ### Writing -/

/-- The bytes written one by one are the only change of memory. -/
theorem foldl_setByte (s : State) (a : Nat) (d : List Byte) (n : Nat) :
    ∃ m, (List.range n).foldl (fun s j => s.setByte (a + j) (d.getD j 0)) s = { s with mem := m } ∧
      ∀ c, ({ s with mem := m } : State).byte c = if a ≤ c ∧ c < a + n then d.getD (c - a) 0 else s.byte c := by
  induction n with
  | zero => exact ⟨s.mem, rfl, fun c => by rw [if_neg (by omega)]⟩
  | succ n ih =>
    obtain ⟨m, hm, hbyte⟩ := ih
    rw [List.range_succ, List.foldl_append, hm]
    refine ⟨_, rfl, fun c => ?_⟩
    have hset : ∀ k, ((({ s with mem := m } : State).setByte (a + n) (d.getD n 0)).byte k) =
        if k = a + n then d.getD n 0 else if a ≤ k ∧ k < a + n then d.getD (k - a) 0 else s.byte k := by
      intro k
      by_cases hk : k = a + n
      · rw [if_pos hk, hk, State.byte_setByte_same]
      · rw [if_neg hk, State.byte_setByte_other _ _ hk, hbyte]
    refine (hset c).trans ?_
    by_cases hc : c = a + n
    · subst hc
      rw [if_pos rfl, if_pos (by omega), Nat.add_sub_cancel_left]
    · rw [if_neg hc]
      by_cases hin : a ≤ c ∧ c < a + n
      · rw [if_pos hin, if_pos (by omega)]
      · rw [if_neg hin, if_neg (by omega)]

/-- Granules without error stay so when they are written whole; only error marks and the tracking of Vigil are touched. -/
theorem foldl_freshGranule (s : State) (narrow l : List Nat) (h : ∀ g ∈ l, s.mark g = none) :
    ∃ ecc bad, l.foldl (fun s g => if narrow.contains g then s else s.freshGranule g) s =
        { s with ecc := ecc, vigil := { s.vigil with bad := bad } } ∧
      ∀ g, ({ s with ecc := ecc } : State).mark g = s.mark g := by
  induction l generalizing s with
  | nil => exact ⟨s.ecc, s.vigil.bad, rfl, fun _ => rfl⟩
  | cons g t ih =>
    rw [List.foldl_cons]
    by_cases hg : narrow.contains g = true
    · rw [if_pos hg]
      exact ih s fun k hk => h k (by simp [hk])
    · have hmark : ∀ k, (s.freshGranule g).mark k = s.mark k := by
        intro k
        by_cases hk : k = g
        · subst hk
          exact (s.mark_setMark_same k none).trans (h k (by simp)).symm
        · exact s.mark_setMark_other none hk
      rw [if_neg hg]
      obtain ⟨ecc, bad, heq, hk⟩ := ih (s.freshGranule g) fun k hk => (hmark k).trans (h k (by simp [hk]))
      exact ⟨ecc, bad, heq, fun k => (hk k).trans (hmark k)⟩

/-- Bytes without error take what is written, and nothing else that can be seen changes. -/
theorem Plain.memAccess_write {s : State} {a : Nat} {d : List Byte} {e : Nat} (h : Plain s a d.length) :
    ∃ t, s.memAccess (eInit e) (.write a d) = (.ok, t) ∧ ∀ k, Stores s t k (s.eng k) a d := by
  have hnarrow : ∀ g ∈ narrowGranules .tower a d.length, s.mark g = none := fun g hg =>
    h.mark_eq (List.mem_of_mem_filter hg)
  have hbad : (narrowGranules .tower a d.length).filter (fun g => s.mark g == some .uncorrectable) = [] := by
    simpa using fun g hg => by simp [hnarrow g hg]
  obtain ⟨ecc, bad, hfresh, hmark⟩ := foldl_freshGranule s (narrowGranules .tower a d.length) _ fun g hg => h.mark_eq hg
  obtain ⟨m, hset, hbyte⟩ :=
    foldl_setByte { s with ecc := ecc, vigil := { s.vigil with bad := bad } } a d d.length
  refine ⟨{ s with mem := m, ecc := ecc, vigil := { s.vigil with bad := bad } }, ?_, fun k =>
    ⟨rfl, fun _ _ => rfl, hbyte, hmark, rfl, rfl⟩⟩
  have hcheck := checkGranules_clean s .tower (eInit e).rpn false _ hnarrow
  have hwrite : s.memAccess (eInit e) (.write a d) = s.writeMem (eInit e) a d := by
    simp [State.memAccess, Access.addr, Access.isWrite, h.region_eq, h.blocked_eq, rights_eInit_tower]
  rw [hwrite]
  simp only [State.writeMem, h.region_eq, granSize, hcheck, hbad, hfresh, reduceCtorEq, if_false, List.contains_nil,
    Bool.false_eq_true, hset, decide_false, Bool.and_false]

/-! ### An engine's access carried to its end -/

/-- Without other transactions, an engine's access to tower SRAM that completes well is the access at the memory itself. -/
theorem engAccess_of_memAccess {s t : State} {e : Nat} {op : Access} {r : Resp} (hd : Direct s e)
    (hr : s.region op.addr = .tower) (hm : s.memAccess (eInit e) op = (r, t)) (hgood : r.good = true) :
    s.engAccess e op = (r, t) := by
  obtain ⟨he, houtst, hheld, -⟩ := hd
  have hsafe : isSafe e = false := Bool.eq_false_iff.2 fun h => absurd (Nat.le_of_ble_eq_true h) (by omega)
  have hinit : eInit e = .engine ⟨e, he⟩ := by simp [eInit, he]
  have hclosed : s.hostClosed (eInit e) op.addr = false := by simp [State.hostClosed, hinit]
  have hblock : s.sameBlock (eRpn e) op.addr = [] := by simp [State.sameBlock, houtst]
  have haccess : accessWith lateStep true (eInit e) op s = (r, t) := by
    cases r <;> simp_all [accessWith, State.memAccessWait, Resp.good]
  cases r <;> simp_all [State.engAccess, State.reportedAccess, Resp.good]

theorem engAccess_read {s : State} {e a n : Nat} (hd : Direct s e) (h : Plain s a n) :
    s.engAccess e (.read a n) = (.data (s.bytes a n), s) :=
  engAccess_of_memAccess hd h.region_eq h.memAccess_read rfl

theorem engAccess_write {s : State} {e a : Nat} {d : List Byte} (hd : Direct s e) (h : Plain s a d.length) :
    ∃ t, s.engAccess e (.write a d) = (.ok, t) ∧ Stores s t e (s.eng e) a d := by
  obtain ⟨t, ht, hstores⟩ := h.memAccess_write (e := e)
  exact ⟨t, engAccess_of_memAccess hd h.region_eq ht rfl, hstores e⟩

end Sys2Proof.Claims
end

section
/-! # String instructions (R76-R82, R139-R141) -/

set_option autoImplicit false

namespace Sys2Proof.Claims

open Sys2Proof Sys2Proof.Machine

/-! ### The accesses of one element -/

theorem Plain.aligned {s : State} {a n : Nat} (h : Plain s a n) : a % n = 0 := by
  obtain ⟨-, -, -, halign, -⟩ := h
  exact halign

section
variable {s : State} {e : Nat} (hd : Direct s e)
include hd

/-- With its MPU off an engine may access every address (R106). -/
theorem Direct.mpuOk_eq (a : Nat) (w : Bool) : s.mpuOk e a w = true := by
  obtain ⟨-, -, -, hoff⟩ := hd
  simp [State.mpuOk, hoff]

theorem Direct.elemFault_eq {z : Size} {l : List (Word × Bool)} (h : ∀ q ∈ l, q.1.toNat % sizeBytes z = 0) :
    s.elemFault e z l = none := by
  have halign : l.find? (fun q => q.1.toNat % sizeBytes z != 0) = none := by simpa using h
  have hmpu : l.find? (fun q => !s.mpuOk e q.1.toNat q.2) = none := by simp [hd.mpuOk_eq]
  simp only [State.elemFault, halign, hmpu, Option.map_none]

theorem Direct.elemFault_one {z : Size} {a : Word} (w : Bool) (h : Plain s a.toNat (sizeBytes z)) :
    s.elemFault e z [(a, w)] = none :=
  hd.elemFault_eq (by simpa using h.aligned)

theorem Direct.elemFault_two {z : Size} {a b : Word} (w w' : Bool) (ha : Plain s a.toNat (sizeBytes z))
    (hb : Plain s b.toNat (sizeBytes z)) : s.elemFault e z [(a, w), (b, w')] = none :=
  hd.elemFault_eq (by simpa using ⟨ha.aligned, hb.aligned⟩)

theorem Direct.elemRead_eq {z : Size} {a : Word} (h : Plain s a.toNat (sizeBytes z)) :
    s.elemRead e z a = (.inl (word (ofBytes (s.bytes a.toNat (sizeBytes z)))), s) := by
  simp only [State.elemRead, engAccess_read hd h]

theorem Direct.elemWrite_stores {z : Size} {a : Word} (v : Word) (h : Plain s a.toNat (sizeBytes z)) :
    Stores s (s.elemWrite e z a v) e (s.eng e) a.toNat (toBytes v.toNat (sizeBytes z)) := by
  obtain ⟨t, ht, hstores⟩ := engAccess_write (d := toBytes v.toNat (sizeBytes z)) hd (by rwa [length_toBytes])
  simpa only [State.elemWrite, ht, Resp.good, if_true] using hstores
end

/-! ### One element of each operation -/

/-- The element's value at a pointer. -/
abbrev elemVal (s : State) (a : Word) (z : Size) : Word := word (ofBytes (s.bytes a.toNat (sizeBytes z)))

section
variable {s : State} {e : Nat} {z : Size} {v : Bool} (hd : Direct s e)
include hd

theorem element_movs (hp : Plain s (elemAt (s.areg e 5) z v).toNat (sizeBytes z))
    (hq : Plain s (elemAt (s.areg e 6) z v).toNat (sizeBytes z)) :
    s.element e (.movs z v) = (none,
      ((s.elemWrite e z (elemAt (s.areg e 6) z v) (elemVal s (elemAt (s.areg e 5) z v) z)).setA e 5
        (elemNext (s.areg e 5) z v)).setA e 6 (elemNext (s.areg e 6) z v)) := by
  simp only [State.element, strAcc, hd.elemFault_two _ _ hp hq, hd.elemRead_eq hp]

theorem element_stos (hq : Plain s (elemAt (s.areg e 6) z v).toNat (sizeBytes z)) :
    s.element e (.stos z v) = (none,
      (s.elemWrite e z (elemAt (s.areg e 6) z v) (s.dreg e 6)).setA e 6 (elemNext (s.areg e 6) z v)) := by
  simp only [State.element, strAcc, hd.elemFault_one _ hq]

theorem element_cmps (hp : Plain s (elemAt (s.areg e 5) z v).toNat (sizeBytes z))
    (hq : Plain s (elemAt (s.areg e 6) z v).toNat (sizeBytes z)) :
    s.element e (.cmps z v) = (none,
      ((s.setPsw e (cmpFlags (s.psw e) (elemVal s (elemAt (s.areg e 5) z v) z) (elemVal s (elemAt (s.areg e 6) z v) z))).setA e 5
        (elemNext (s.areg e 5) z v)).setA e 6 (elemNext (s.areg e 6) z v)) := by
  simp only [State.element, strAcc, hd.elemFault_two _ _ hp hq, hd.elemRead_eq hp, hd.elemRead_eq hq]

variable (hp : Plain s (elemAt (s.areg e 5) z v).toNat (sizeBytes z))
include hp

theorem element_scas :
    s.element e (.scas z v) = (none,
      (s.setPsw e (cmpFlags (s.psw e) (lowOf (s.dreg e 6) z) (elemVal s (elemAt (s.areg e 5) z v) z))).setA e 5
        (elemNext (s.areg e 5) z v)) := by
  simp only [State.element, strAcc, hd.elemFault_one _ hp, hd.elemRead_eq hp]

theorem element_lods (d : Fin 8) :
    s.element e (.lods d z v) = (none,
      ((s.setD e d (elemVal s (elemAt (s.areg e 5) z v) z)).setPsw e
        (setZN (s.psw e) (elemVal s (elemAt (s.areg e 5) z v) z))).setA e 5 (elemNext (s.areg e 5) z v)) := by
  simp only [State.element, strAcc, hd.elemFault_one _ hp, hd.elemRead_eq hp]

/-- CRCS folds the bytes of memory themselves. -/
theorem element_crcs (n : Fin 4) (rin inv : Bool) :
    s.element e (.crcs n z v rin inv) = (none,
      (s.setAcc e n (((s.bytes (elemAt (s.areg e 5) z v).toNat (sizeBytes z)).foldl (crcsByte (s.dreg e 6) rin inv)
        ((s.accu e n).truncate 32)).zeroExtend 48)).setA e 5 (elemNext (s.areg e 5) z v)) := by
  have hbytes := toBytes_word_ofBytes (s.bytes (elemAt (s.areg e 5) z v).toNat (sizeBytes z))
  rw [length_bytes] at hbytes
  simp only [State.element, strAcc, hd.elemFault_one _ hp, hd.elemRead_eq hp, hbytes (sizeBytes_le z)]
end

end Sys2Proof.Claims
end

section
/-! # String instructions as commands (R78) -/

set_option autoImplicit false

namespace Sys2Proof.Claims

open Sys2Proof Sys2Proof.Machine

/-! ### A store and updates of the processor -/

section
variable {s t : State} {e : Nat} {y : Engine} {a : Nat} {d : List Byte}

theorem Stores.updEng (h : Stores s t e y a d) (f : Engine → Engine) : Stores s (t.updEng e f) e (f y) a d := by
  obtain ⟨hy, hk, hbyte, hmark, hqueue, hs⟩ := h
  exact ⟨by rw [State.eng_updEng_same, hy], fun k hne => by rw [State.eng_updEng_other t f hne, hk k hne], hbyte, hmark, hqueue, hs⟩

theorem Stores.setA (h : Stores s t e y a d) (r : Fin 8) (w : Word) : Stores s (t.setA e r w) e { y with a := y.a.set r w } a d :=
  h.updEng _

theorem Stores.finish (h : Stores s t e y a d) (n : Nat) : Stores s (t.finish e n) e (y.finish n) a d := h.updEng _

/-- What is stored from the issued state on is stored from the state before. -/
theorem Stores.of_issued (h : Stores (issued s e) t e y a d) : Stores s t e y a d := by
  obtain ⟨hy, hk, hbyte, hmark, hqueue, hs⟩ := h
  exact ⟨hy, fun k hne => by rw [hk k hne, State.eng_updEng_other s _ hne], hbyte, hmark, hqueue,
    congrArg (fun u : State => { u with engines := s.engines }) hs⟩
end

@[simp] theorem bytes_issued (s : State) (e a n : Nat) : (issued s e).bytes a n = s.bytes a n := by
  induction n generalizing a with
  | zero => rfl
  | succ n ih => simp only [State.bytes, ih, State.updEng_reads]

/-! ### One element, not repeated -/

/-- A string instruction whose element raises nothing performs it and completes (R78). -/
theorem exec_strInstr {s t : State} {e : Eng} {o : StrOp} (h : IssuesCmd s e (strInstr e o)) (ho : strReserved o = false)
    (hel : (issued s e).element e o = (none, t)) : exec (strInstr e o) s = .next (t.finish e 1) := by
  have hexec : exec (strInstr e o) s = .next (s.issue e ⟨[], strCode o, none⟩ (iStr e o)) := by cases o <;> rfl
  have hcode : instrCode? (strInstr e o) = some (e, ⟨[], strCode o, none⟩) := by cases o <;> rfl
  rw [exec_of_issues hexec hcode h]
  simp only [iStr, ho, Bool.false_eq_true, if_false, hel]

theorem makes_of_element {s t : State} {e : Eng} {o : StrOp} {y : Engine} (h : IssuesCmd s e (strInstr e o))
    (ho : strReserved o = false) (hel : (issued s e).element e o = (none, t)) (ht : OnlyEngine s t e y) :
    Makes (strInstr e o) s e (y.finish 1) :=
  ⟨_, exec_strInstr h ho hel, ht.finish 1⟩

theorem stores_of_element {s t : State} {e : Eng} {o : StrOp} {y : Engine} {a : Nat} {d : List Byte}
    (h : IssuesCmd s e (strInstr e o)) (ho : strReserved o = false) (hel : (issued s e).element e o = (none, t))
    (ht : Stores (issued s e) t e y a d) :
    ∃ u, exec (strInstr e o) s = .next u ∧ Stores s u e (y.finish 1) a d :=
  ⟨_, exec_strInstr h ho hel, ht.of_issued.finish 1⟩

/-- The element at a pointer stands as plainly once the instruction has issued. -/
theorem Plain.issued {s : State} {e : Nat} {r : Fin 8} {z : Size} {v : Bool} {n : Nat}
    (h : Plain s (elemAt (s.areg e r) z v).toNat n) : Plain (issued s e) (elemAt ((issued s e).areg e r) z v).toNat n := by
  rw [areg_issued]
  exact h

theorem stringElements : StringElements := by
  intro s e z v rin inv d n x p q pa qa src dst step5 step6 hd
  have hissued := onlyEngine_issued s e
  have hd' : Direct (issued s e) e := hd
  refine ⟨fun h hp hq => ?movs, fun h hq => ?stos, fun h hp hq => ?cmps, fun h hp => ?scas, fun h hne hp => ?lods,
    fun h hp => ?crcs⟩
  case movs =>
    have hel := element_movs hd' hp.issued hq.issued
    have hstore := hd'.elemWrite_stores src hq.issued
    simp only [areg_issued, elemVal, bytes_issued, State.eng_updEng_same] at hel hstore
    exact stores_of_element (o := .movs z v) h rfl hel ((hstore.setA 5 _).setA 6 _)
  case stos =>
    have hel := element_stos hd' hq.issued
    have hstore := hd'.elemWrite_stores (s.dreg e 6) hq.issued
    simp only [areg_issued, dreg_issued, State.eng_updEng_same] at hel hstore
    exact stores_of_element (o := .stos z v) h rfl hel (hstore.setA 6 _)
  case cmps =>
    have hel := element_cmps hd' hp.issued hq.issued
    simp only [areg_issued, psw_issued, elemVal, bytes_issued] at hel
    exact ⟨_, flags_cmpFlags (s.psw e) src dst,
      makes_of_element (o := .cmps z v) h rfl hel (((hissued.setPsw _).setA 5 _).setA 6 _)⟩
  case scas =>
    have hel := element_scas hd' hp.issued
    simp only [areg_issued, dreg_issued, psw_issued, elemVal, bytes_issued] at hel
    exact ⟨_, flags_cmpFlags (s.psw e) (lowOf (s.dreg e 6) z) src,
      makes_of_element (o := .scas z v) h rfl hel ((hissued.setPsw _).setA 5 _)⟩
  case lods =>
    have hres : strReserved (.lods d z v) = false := beq_false_of_ne hne
    have hel := element_lods hd' hp.issued d
    simp only [areg_issued, psw_issued, elemVal, bytes_issued] at hel
    exact ⟨_, (Flags.refl (s.psw e)).setZN src,
      makes_of_element (o := .lods d z v) h hres hel (((hissued.setD d src).setPsw _).setA 5 _)⟩
  case crcs =>
    have hel := element_crcs hd' hp.issued n rin inv
    simp only [areg_issued, dreg_issued, accu_issued, bytes_issued] at hel
    exact makes_of_element (o := .crcs n z v rin inv) h rfl hel ((hissued.setAcc n _).setA 5 _)

end Sys2Proof.Claims
end

section
/-! # Repeated string instructions (R79, R80, R82) -/

set_option autoImplicit false

namespace Sys2Proof.Claims

open Sys2Proof Sys2Proof.Machine

/-- The command of a string instruction under REP, REPE or REPNE. -/
def repInstr (e : Eng) (p : Prefix) (o : StrOp) : Instr :=
  match p with
  | .rep => .rep e (.str o)
  | .repe => .repe e (.str o)
  | .repne => .repne e (.str o)

/-- Words free of errors are fetched and the body runs. -/
theorem execute_clean (s : State) (e : Nat) (c : Code) (body : State → State) (hx : c.x = [])
    (h : 32 ≤ e ∨ ∀ j, j < c.len → s.mark (progAddr e ((s.eng e).pc.toNat + j)) = none) :
    s.execute e c body = body (issued s e) := by
  have hfetch : (issued s e).fetch e (s.eng e).pc.toNat 0 c.len = (none, issued s e) :=
    State.fetch_clean _ e _ 0 c.len (by simpa using h)
  simp only [State.execute, hx, List.length_nil, Nat.not_lt_zero, if_false, hfetch]

/-- REP before any string instruction, REPE and REPNE before CMPS and SCAS, perform the next element group (R79). -/
theorem iRep_str {e : Eng} {p : Prefix} {o : StrOp} {z : Size} {v : Bool} (t : State) (hres : strReserved o = false)
    (hpre : p = .rep ∨ o = .cmps z v ∨ o = .scas z v) : iRep e p (.str o) t = t.repStr e p o := by
  rcases hpre with rfl | rfl | rfl
  · cases o <;> simp [iRep, hres]
  · simp [iRep, hres]
  · simp [iRep, hres]

theorem exec_repInstr {s : State} {e : Eng} {p : Prefix} {o : StrOp} {z : Size} {v : Bool} (hready : s.readyRep e = true)
    (hres : strReserved o = false) (hpre : p = .rep ∨ o = .cmps z v ∨ o = .scas z v)
    (hfetch : 32 ≤ e.val ∨ s.mark (progAddr e (s.eng e).pc.toNat) = none ∧
      s.mark (progAddr e ((s.eng e).pc.toNat + 1)) = none) :
    exec (repInstr e p o) s = .next ((issued s e).repStr e p o) := by
  have hexec : exec (repInstr e p o) s =
      .next (if s.readyRep e then s.execute e (repLen p (.str o)) (iRep e p (.str o)) else s) := by cases p <;> rfl
  have hwords : 32 ≤ e.val ∨ ∀ j, j < (repLen p (.str o)).len → s.mark (progAddr e ((s.eng e).pc.toNat + j)) = none := by
    refine hfetch.imp_right fun ⟨h0, h1⟩ j hj => ?_
    obtain rfl | rfl : j = 0 ∨ j = 1 := by
      have hlen : (repLen p (.str o)).len = 2 := rfl
      omega
    · exact h0
    · exact h1
  rw [hexec, if_pos hready, execute_clean s e _ _ rfl hwords, iRep_str _ hres hpre]

/-- After an element D7 counts one down; then Z may end the repetition, D7 may, or the next element follows, within the
command where it lies in the group of the first (R80, R82). -/
theorem repGroup_of_element {t u c : State} {e : Eng} {p : Prefix} {o : StrOp} (g : Option (List Nat)) (fuel : Nat)
    (hel : t.element e o = (none, u)) (hc : u.setD e 7 (u.dreg e 7 - 1) = c) :
    t.repGroup e p o g (fuel + 1) =
      if prefixEnds p (c.psw e) then (c.updEng e fun x => { x with stall := .none }).finish e 2
      else if c.dreg e 7 = 0 then
        if (c.eng e).imprecise.isSome || (c.eventDue e).isSome then c.updEng e fun x => { x with stall := .rep }
        else (c.updEng e fun x => { x with stall := .none }).finish e 2
      else if g.isSome && c.group e o = g then c.repGroup e p o g fuel
      else c.updEng e fun x => { x with stall := .rep } := by
  simp only [State.repGroup, hel, hc]

theorem repeatedStringElements : RepeatedStringElements := by
  intro s u e z v p o cmd sl counted y ends hready hres hpre hfetch
  have hexec : exec (cmd p o) s = .next (sl.repStr e p o) := by
    have h := exec_repInstr hready hres hpre hfetch
    cases p <;> exact h
  have hends : prefixEnds p (counted.psw e) = ends := by cases p <;> rfl
  have hD7 : sl.dreg e 7 = s.dreg e 7 := dreg_issued s e 7
  refine ⟨fun hzero => ?done, fun hne hel => ?element⟩
  case done =>
    refine ⟨_, hexec, ?_⟩
    rw [State.repStr, hD7, if_pos hzero]
    exact ((onlyEngine_issued s e).updEng _).finish 2
  case element =>
    have hgroup := repGroup_of_element (c := counted) (p := p) (sl.group e o) 3 hel rfl
    have hrep : sl.repStr e p o = sl.repGroup e p o (sl.group e o) 4 := by rw [State.repStr, hD7, if_neg hne]
    rw [hends] at hgroup
    rw [hexec, hrep, hgroup]
    refine ⟨fun h => ?ends, fun h (hy : counted.dreg e 7 ≠ 0) hg => ?leaves,
      fun h (hy : counted.dreg e 7 ≠ 0) hsome hg => ?goesOn,
      fun h (hy : counted.dreg e 7 = 0) (himp : (counted.eng e).imprecise = none) hev => ?last⟩
    case ends => rw [if_pos h]
    case leaves =>
      have hother : ¬((sl.group e o).isSome && decide (counted.group e o = sl.group e o)) = true := by
        rcases hg with hg | hg <;> simp [hg]
      rw [if_neg (Bool.eq_false_iff.1 h), if_neg hy, if_neg hother]
    case goesOn =>
      have hsame : ((sl.group e o).isSome && decide (counted.group e o = sl.group e o)) = true := by
        simp [hg, Option.isSome_iff_ne_none.2 hsome]
      rw [if_neg (Bool.eq_false_iff.1 h), if_neg hy, if_pos hsame]
    case last =>
      have hquiet : ¬((counted.eng e).imprecise.isSome || (counted.eventDue e).isSome) = true := by
        rw [himp, hev]
        decide
      rw [if_neg (Bool.eq_false_iff.1 h), if_pos hy, if_neg hquiet]

/-- Settles O52: one element by itself (`stringElements`), and elements under REP, REPE, REPNE (`repeatedStringElements`). -/
theorem stringElementsAndRepeats : Obligations.StringElementsAndRepeats := ⟨stringElements, repeatedStringElements⟩

end Sys2Proof.Claims
end

section
/-! # Addition, subtraction, negation and comparison (R58, R115, R120, R125) -/

set_option autoImplicit false

namespace Sys2Proof.Claims

open Sys2Proof Sys2Proof.Machine

/-! ### Results and flags of signed arithmetic -/

/-- The PSW after a signed operation with result `r` (R115, R116). -/
def arithFlags (p r : Word) (cy v clamped : Bool) : Word := setZN (stickS (setV (setC p cy) v) clamped) r

theorem flags_arithFlags (p r : Word) (cy v clamped : Bool) :
    Flags p (arithFlags p r cy v clamped) cy v (r.getLsbD 31) (r == 0) clamped :=
  ((((Flags.refl p).setC cy).setV v).stickS clamped).setZN r

/-- A signed result is wrapped, or clamped where it overflows under SAT. -/
theorem clamp_eq_wrapOrClamp (sat : Bool) (x : Int) :
    (if !in32 x && sat then clamp32 x else BitVec.ofInt 32 x) = wrapOrClamp sat x := by
  cases h : in32 x <;> cases sat <;> simp [wrapOrClamp, clamp32, h]

theorem addSub_add_eq (p a b : Word) :
    addSub false p a b = (wrapOrClamp (fSat p) (a.toInt + b.toInt),
      arithFlags p (wrapOrClamp (fSat p) (a.toInt + b.toInt)) (decide (2 ^ 32 ≤ a.toNat + b.toNat)) (!in32 (a.toInt + b.toInt))
        (!in32 (a.toInt + b.toInt) && fSat p)) := by
  simp only [addSub, Bool.false_eq_true, if_false, clamp_eq_wrapOrClamp, arithFlags]

theorem addSub_sub_eq (p a b : Word) :
    addSub true p a b = (wrapOrClamp (fSat p) (a.toInt - b.toInt),
      arithFlags p (wrapOrClamp (fSat p) (a.toInt - b.toInt)) (decide (a.toNat < b.toNat)) (!in32 (a.toInt - b.toInt))
        (!in32 (a.toInt - b.toInt) && fSat p)) := by
  simp only [addSub, if_true, clamp_eq_wrapOrClamp, arithFlags]

/-- Only the least integer has no negation in 32 bits. -/
theorem not_in32_neg (b : Word) : (!in32 (-b.toInt)) = (b == 0x80000000) := by
  have hb := b.isLt
  have hleast : b = 0x80000000 ↔ b.toNat = 2147483648 := BitVec.toNat_inj.symm
  rw [Bool.eq_iff_iff, beq_iff_eq, hleast, BitVec.toInt_eq_toNat_cond]
  simp only [in32, Bool.not_eq_true', Bool.and_eq_false_iff, decide_eq_false_iff_not]
  split <;> omega

/-- NEG subtracts from 0 (R115): it borrows unless the operand is 0. -/
theorem addSub_neg_eq (p b : Word) :
    addSub true p 0 b = (wrapOrClamp (fSat p) (-b.toInt),
      arithFlags p (wrapOrClamp (fSat p) (-b.toInt)) (b != 0) (b == 0x80000000) (b == 0x80000000 && fSat p)) := by
  have hneg : (0 : Word).toInt - b.toInt = -b.toInt := by simp
  have hborrow : decide ((0 : Word).toNat < b.toNat) = (b != 0) := by
    rw [Bool.eq_iff_iff, bne_iff_ne, ne_eq, ← BitVec.toNat_inj]
    simp [Nat.pos_iff_ne_zero]
  rw [addSub_sub_eq, hneg, hborrow, not_in32_neg]

/-! ### The commands -/

section
variable {i : Instr} {s : State} {e : Eng} {c : Code} {body : State → State} {n : Nat}

/-- A command whose body puts the result and flags of a signed operation into D[d]. -/
theorem putsD_of_arith {d : Fin 8} {r : Word} {cy v clamped : Bool} (hexec : exec i s = .next (s.issue e c body))
    (hcode : instrCode? i = some (e, c)) (h : IssuesCmd s e i)
    (hbody : body (issued s e) = (issued s e).result e c d r (arithFlags (s.psw e) r cy v clamped)) (hlen : c.len = n) :
    PutsD i s e n d r cy v clamped :=
  putsD_of_result hexec hcode h hbody hlen (flags_arithFlags _ r cy v clamped)

/-- A command whose body sets the flags of a comparison and completes. -/
theorem compares_of_body {a b : Word} (hexec : exec i s = .next (s.issue e c body)) (hcode : instrCode? i = some (e, c))
    (h : IssuesCmd s e i) (hbody : body (issued s e) = ((issued s e).setPsw e (cmpFlags (s.psw e) a b)).finish e n) :
    Compares i s e n a b :=
  ⟨_, flags_cmpFlags _ a b, makes_of_body hexec hcode h (hbody ▸ ((onlyEngine_issued s e).setPsw _).finish n)⟩
end

/-- Settles O2: the sums and differences (`addSub_add_eq` and the like) go through the rule for a signed result, the comparisons
through the rule for their flags. -/
theorem addSubtractCompareResults : Obligations.AddSubtractCompareResults := by
  intro s e d r x y ext imm a sat sum
  refine ⟨fun h => ?add, fun h => ?sub, fun h => ?neg, fun h => ?addi, fun h => ?cmp, fun h => ?cmpi, fun h => ?cmpa⟩
  case add => exact putsD_of_arith rfl rfl h (by simp only [iAdd, addSub_add_eq, psw_issued, dreg_issued, src_issued, a, sat, sum]) rfl
  case sub => exact putsD_of_arith rfl rfl h (by simp only [iSub, addSub_sub_eq, psw_issued, dreg_issued, src_issued, a, sat]) rfl
  case neg => exact putsD_of_arith rfl rfl h (by simp only [iNeg, State.dOnly, addSub_neg_eq, psw_issued, dreg_issued, sat]) rfl
  case addi => exact putsD_of_arith rfl rfl h (by simp only [iAddi, addSub_add_eq, psw_issued, dreg_issued, a, sat, sum]) rfl
  case cmp => exact compares_of_body rfl rfl h (by rw [iCmp, psw_issued, dreg_issued, src_issued])
  case cmpi => exact compares_of_body rfl rfl h (by rw [iCmpi, psw_issued, dreg_issued]; rfl)
  case cmpa => exact compares_of_body rfl rfl h (by rw [iCmpa, psw_issued, areg_issued, asrc_issued])

end Sys2Proof.Claims
end

section
/-! # Multiplication and division (R59, R61, R116, R117) -/

set_option autoImplicit false

namespace Sys2Proof.Claims

open Sys2Proof Sys2Proof.Machine

theorem mulOp_eq (p a b : Word) :
    mulOp p a b = (wrapOrClamp (fSat p) (a.toInt * b.toInt),
      arithFlags p (wrapOrClamp (fSat p) (a.toInt * b.toInt)) false (!in32 (a.toInt * b.toInt))
        (!in32 (a.toInt * b.toInt) && fSat p)) := by
  simp only [mulOp, clamp_eq_wrapOrClamp, arithFlags]

/-! ### Flags of a division -/

/-- The relation of two PSWs stays when DZ takes the same value in both. -/
theorem Flags.setDz {p q : Word} {c v n z clamped : Bool} (h : Flags p q c v n z clamped) (b : Bool) :
    Flags (Machine.putBit p 4 b) (setDz q b) c v n z clamped := by
  obtain ⟨hc, hv, hn, hz, hs, hrest⟩ := h
  have hbit := fun w i => getLsbD_putBit w b (by decide : 4 < 32) i
  refine ⟨(hbit q 0).trans hc, (hbit q 1).trans hv, (hbit q 2).trans hn, (hbit q 3).trans hz, ?_, fun k hk hne => ?_⟩
  · rw [Machine.setDz, hbit, hbit]
    exact hs
  · rw [Machine.setDz, hbit, hbit, hrest k hk hne]

/-- The PSW after a division with quotient `q`, DZ set to `dz` (R117). -/
def divFlags (p q : Word) (dz : Bool) : Word := setZN (setDz (setV (setC p false) false) dz) q

theorem flags_divFlags (p q : Word) (dz : Bool) :
    Flags (putBit p 4 dz) (divFlags p q dz) false false (q.getLsbD 31) (q == 0) false :=
  ((((Flags.refl p).setC false).setV false).setDz dz).setZN q

/-- A division clears C and V, sets DZ, and changes no bit above. -/
theorem divFlags_bits (p q : Word) (dz : Bool) :
    fV (divFlags p q dz) = false ∧ fC (divFlags p q dz) = false ∧ (divFlags p q dz).getLsbD 4 = dz ∧
      ∀ k, 5 ≤ k → (divFlags p q dz).getLsbD k = p.getLsbD k := by
  obtain ⟨hc, hv, -, -, hs, hrest⟩ := flags_divFlags p q dz
  have hbit := fun i => getLsbD_putBit p dz (by decide : 4 < 32) i
  refine ⟨hv, hc, by rw [hrest 4 (by decide) (by decide), hbit, if_pos rfl], fun k hk => ?_⟩
  by_cases h5 : k = 5
  · rw [h5, hs, hbit, if_neg (by decide), Bool.or_false]
  · rw [hrest k (by omega) h5, hbit, if_neg (by omega)]

theorem fTrapDz_divFlags (p q : Word) (dz : Bool) : fTrapDz (divFlags p q dz) = fTrapDz p := by
  obtain ⟨-, -, -, hrest⟩ := divFlags_bits p q dz
  exact hrest 9 (by decide)

/-! ### Quotient and remainder -/

/-- Division truncates toward zero, and its remainder has the dividend's sign (R59). -/
theorem divOp_eq {a b : Word} (p : Word) (hb : b ≠ 0) (hover : ¬(a = 0x80000000 ∧ b = 0xFFFFFFFF)) :
    divOp p a b = (a.sdiv b, a.srem b, divFlags p (a.sdiv b) false) := by
  have hquot : BitVec.ofInt 32 (a.toInt.tdiv b.toInt) = a.sdiv b :=
    BitVec.eq_of_toInt_eq (by rw [BitVec.toInt_ofInt, BitVec.toInt_sdiv])
  have hrem : BitVec.ofInt 32 (a.toInt.tmod b.toInt) = a.srem b := by rw [← BitVec.toInt_srem, BitVec.ofInt_toInt]
  rw [divOp, if_neg hb, if_neg (by simpa using hover), hquot, hrem, divFlags]

/-- The quotient of a division by zero is the largest integer of the dividend's sign (R59). -/
theorem divOp_zero (p a : Word) :
    divOp p a 0 = (if a.getLsbD 31 then 0x80000000 else 0x7FFFFFFF, a,
      divFlags p (if a.getLsbD 31 then 0x80000000 else 0x7FFFFFFF) true) := rfl

theorem divuOp_eq {b : Word} (p a : Word) (hb : b ≠ 0) : divuOp p a b = (a / b, a % b, divFlags p (a / b) false) := by
  have hquot : word (a.toNat / b.toNat) = a / b := by rw [word, ← BitVec.toNat_udiv, BitVec.ofNat_toNat, BitVec.setWidth_eq]
  have hrem : word (a.toNat % b.toNat) = a % b := by rw [word, ← BitVec.toNat_umod, BitVec.ofNat_toNat, BitVec.setWidth_eq]
  simp only [divuOp, if_neg hb, hquot, hrem, beq_false_of_ne hb, divFlags]

theorem divuOp_zero (p a : Word) : divuOp p a 0 = (0xFFFFFFFF, a, divFlags p 0xFFFFFFFF true) := rfl

/-! ### The commands -/

/-- A Cupola core always traps a division by zero (R149). -/
theorem fTrapDz_pswRead (e : Nat) (x : Engine) : fTrapDz (pswRead e x) = (isSafe e || fTrapDz x.psw) := by
  cases h : isSafe e <;> simp [pswRead, fTrapDz, h]

/-- A divide that does not trap writes its register pair and the PSW, and completes. -/
theorem OnlyEngine.divide {s t : State} {e : Eng} {y : Engine} {b p : Word} (h : OnlyEngine s t e y) (c : Code) (d : Fin 8)
    (q r : Word) (hquiet : b = 0 → (isSafe e || fTrapDz p) = false) :
    OnlyEngine s (Machine.divide e c d b q r p t) e
      (({ y with d := (y.d.set d q).set (pairOf d) r, psw := p } : Engine).finish 1) := by
  have hwritten := ((h.setD d q).setD (pairOf d) r).setPsw p
  simp only [Machine.divide, hwritten.1, fTrapDz_pswRead]
  rw [if_neg (by simpa using hquiet)]
  exact hwritten.finish 1

/-- A command whose body divides and does not trap puts quotient and remainder into the register pair. -/
theorem makes_of_divide {i : Instr} {s : State} {e : Eng} {c : Code} {body : State → State} {d : Fin 8} {b q r : Word} {dz : Bool}
    (hexec : exec i s = .next (s.issue e c body)) (hcode : instrCode? i = some (e, c)) (h : IssuesCmd s e i)
    (hquiet : b = 0 → fTrapDz (pswRead e (s.eng e)) = false)
    (hbody : body (issued s e) = divide e c d b q r (divFlags (s.psw e) q dz) (issued s e)) :
    Makes i s e (done (s.eng e)
      { s.eng e with d := ((s.eng e).d.set d q).set (pairOf d) r, psw := divFlags (s.psw e) q dz } 1) := by
  refine makes_of_body hexec hcode h (hbody ▸ (onlyEngine_issued s e).divide c d q r fun hb => ?_)
  rw [fTrapDz_divFlags]
  exact (fTrapDz_pswRead e (s.eng e)).symm.trans (hquiet hb)

section
variable {s : State} {e : Eng} {d r : Fin 8} {q rem p : Word}

theorem iDiv_issued (h : divOp (s.psw e) (s.dreg e d) (s.dreg e r) = (q, rem, p)) :
    iDiv e d (.d r) (issued s e) = divide e (cAlu 11 d (.d r)) d (s.dreg e r) q rem p (issued s e) := by
  simp only [iDiv, State.dOnly, psw_issued, dreg_issued, h]

theorem iDivu_issued (h : divuOp (s.psw e) (s.dreg e d) (s.dreg e r) = (q, rem, p)) :
    iDivu e d (.d r) (issued s e) = divide e (cAlu 12 d (.d r)) d (s.dreg e r) q rem p (issued s e) := by
  simp only [iDivu, State.dOnly, psw_issued, dreg_issued, h]
end

theorem multiplyDivideValues : MultiplyDivideResults := by
  intro s e d r a b x
  refine ⟨fun h => ?mul, fun h hb hover => ?div, fun h hb => ?divu⟩
  case mul => exact putsD_of_arith rfl rfl h (by simp only [iMul, State.dOnly, mulOp_eq, psw_issued, dreg_issued, a, b]) rfl
  case div =>
    exact ⟨_, flags_divFlags (s.psw e) (a.sdiv b) false,
      makes_of_divide rfl rfl h (fun h0 => absurd h0 hb) (iDiv_issued (divOp_eq _ hb hover))⟩
  case divu =>
    exact ⟨_, flags_divFlags (s.psw e) (a / b) false,
      makes_of_divide rfl rfl h (fun h0 => absurd h0 hb) (iDivu_issued (divuOp_eq _ _ hb))⟩

theorem pairOf_val (d : Fin 8) : (pairOf d).val = d.val ^^^ 1 := by
  revert d
  decide

theorem divideByZeroValues : DivideByZeroValues := by
  intro s e d r
  refine ⟨pairOf_val d, fun hzero htrap => ⟨fun h => ?div, fun h => ?divu⟩⟩
  case div =>
    obtain ⟨hv, hc, hdz, hrest⟩ := divFlags_bits (s.psw e) (if (s.dreg e d).getLsbD 31 then 0x80000000 else 0x7FFFFFFF) true
    exact ⟨_, hv, hc, hdz, hrest,
      makes_of_divide rfl rfl h (fun _ => htrap) (iDiv_issued (by rw [hzero, divOp_zero]))⟩
  case divu =>
    obtain ⟨hv, hc, hdz, hrest⟩ := divFlags_bits (s.psw e) 0xFFFFFFFF true
    exact ⟨_, hv, hc, hdz, hrest,
      makes_of_divide rfl rfl h (fun _ => htrap) (iDivu_issued (by rw [hzero, divuOp_zero]))⟩

/-- Settles O50: the values for divisors other than 0 (`multiplyDivideValues`) and for 0 (`divideByZeroValues`). -/
theorem multiplyDivideResults : Obligations.MultiplyDivideResults := ⟨multiplyDivideValues, divideByZeroValues⟩

end Sys2Proof.Claims
end

section
/-! # Accumulator reads and control registers (R51, R54, R62-R64, R129, R130) -/

set_option autoImplicit false

namespace Sys2Proof.Claims

open Sys2Proof Sys2Proof.Machine

/-! ### Reads of an accumulator -/

/-- The saturating read (R51). -/
theorem satRead_eq (c : Acc) : satRead c = (wrapOrClamp true c.toInt, !in32 c.toInt) := by
  have hlow : c.truncate 32 = BitVec.ofInt 32 c.toInt := (BitVec.signExtend_eq_setWidth_of_le c (by decide)).symm
  rw [satRead, wrapOrClamp, hlow]
  cases in32 c.toInt <;> rfl

/-- An end-around addition keeps the residue of one's-complement arithmetic. -/
theorem foldOnce_mod (n : Nat) : foldOnce n % 65535 = n % 65535 := by
  unfold foldOnce
  omega

theorem foldOnce_eq_zero (n : Nat) : foldOnce n = 0 ↔ n = 0 := by
  unfold foldOnce
  omega

/-- Three end-around additions leave 16 bits of a 48-bit value (R54): the second leaves at most one carry, the third takes it in. -/
theorem foldOnce_three_lt {n : Nat} (h : n < 2 ^ 48) : foldOnce (foldOnce (foldOnce n)) < 65536 := by
  unfold foldOnce
  omega

/-! ### Control registers -/

@[simp] theorem evPending_issued (s : State) (e : Nat) : (issued s e).evPending e = s.evPending e := by
  have hlevels : (issued s e).ev0 e = s.ev0 e ∧ (issued s e).ev2 e = s.ev2 e ∧ (issued s e).ev3 e = s.ev3 e := ⟨rfl, rfl, rfl⟩
  obtain ⟨h0, h2, h3⟩ := hlevels
  simp only [State.evPending, State.eng_updEng_same, h0, h2, h3]

/-- SYS_Ete_PC is no control register. -/
@[simp] theorem crRead_issued (s : State) (e y : Nat) : (issued s e).crRead e y = s.crRead e y := by
  simp only [State.crRead, State.eng_updEng_same, evPending_issued]
  rfl

theorem crWrite_lastPc (x : Engine) (e y : Nat) (v : Word) (pc : PWord) :
    ({ x with lastPc := pc } : Engine).crWrite e y v = { x.crWrite e y v with lastPc := pc } := by
  unfold Engine.crWrite
  split <;> rfl

/-- A result for D[d] with N and Z by it, every other flag kept. -/
theorem putsD_of_setZN {i : Instr} {s : State} {e : Eng} {c : Code} {body : State → State} {d : Fin 8} {n : Nat} {r : Word}
    (hexec : exec i s = .next (s.issue e c body)) (hcode : instrCode? i = some (e, c)) (h : IssuesCmd s e i)
    (hbody : body (issued s e) = (issued s e).result e c d r (setZN (s.psw e) r)) (hlen : c.len = n) :
    PutsD i s e n d r (cOf s e) (vOf s e) false :=
  putsD_of_result hexec hcode h hbody hlen ((Flags.refl _).setZN r)

/-- Settles O6: the truncated, upper and folded reads and MFC set N and Z alone; the saturating read sets V and S too; MTC is one
update of its processor. -/
theorem accumulatorReadsAndControlRegisters : Obligations.AccumulatorReadsAndControlRegisters := by
  intro s e d n y c clamped
  refine ⟨fun h => ?truncated, fun h => ?saturated, fun h => ?upper, fun h => ?folded, fun hcr h => ?mtc, fun hcr h => ?mfc⟩
  case truncated => exact putsD_of_setZN rfl rfl h (by simp only [iAcr, accu_issued, psw_issued]; rfl) rfl
  case saturated =>
    refine putsD_of_result rfl rfl h ?_ rfl ((((Flags.refl (s.psw e)).setV clamped).stickS clamped).setZN _)
    simp only [iAcr, accu_issued, psw_issued, satRead_eq]
    rfl
  case upper => exact putsD_of_setZN rfl rfl h (by simp only [iAcr, accu_issued, psw_issued]; rfl) rfl
  case folded =>
    refine ⟨foldOnce (foldOnce (foldOnce c.toNat)), foldOnce_three_lt c.isLt, ?_, ?_,
      putsD_of_setZN rfl rfl h (by simp only [iAcr, accu_issued, psw_issued]; rfl) rfl⟩
    · simp only [foldOnce_mod]
    · rw [foldOnce_eq_zero, foldOnce_eq_zero, foldOnce_eq_zero, ← BitVec.toNat_inj]
      rfl
  case mtc =>
    refine makes_of_body rfl rfl h ?_
    rw [iMtc, hcr, if_neg Bool.false_ne_true, dreg_issued, done, ← crWrite_lastPc]
    exact ((onlyEngine_issued s e).updEng _).finish 1
  case mfc =>
    refine putsD_of_setZN rfl rfl h ?_ rfl
    rw [iMfc, hcr, if_neg Bool.false_ne_true, crRead_issued, psw_issued]

end Sys2Proof.Claims
end

section
/-! # Objects of the exchange region (R39, R451-R464)

Mailboxes and latest-value slots share one layout and lie, like the semaphores and the epochs, outside the agents' pages; a ring and
the status of a consume change registers inside the pages only. What each operation leaves in an object is therefore read off the few
writes it makes to that object. -/

set_option autoImplicit false

namespace Sys2Proof.Claims

open Sys2Proof Sys2Proof.Machine

/-! ### One-bit fields of a register -/

section
variable (s : State) (a : Nat) (f g : Fld) (b : Bool)

theorem flag_setFlag_same (hwidth : f.width = 1) (hlo : f.lo < 32) : (s.setFlag a f b).flag a f = b := by
  rw [State.flag, State.fld, State.reg_setFlag_same, Fld.get_put_same f (by omega), hwidth]
  cases b <;> rfl

theorem flag_setFlag_other (hwidth : f.lo + f.width ≤ 32) (hapart : g.lo + g.width ≤ f.lo ∨ f.lo + f.width ≤ g.lo) :
    (s.setFlag a f b).flag a g = s.flag a g := by
  rw [State.flag, State.fld, State.reg_setFlag_same, Fld.get_put_other f g hwidth hapart, State.flag, State.fld]

variable {s a}

theorem flag_of_reg {t : State} (h : t.reg a = s.reg a) : t.flag a f = s.flag a f := by simp only [State.flag, State.fld, h]

/-- Setting one flag clears no flag, in whatever register. -/
theorem flag_setFlag_true {c : Nat} (hf : f.width = 1 ∧ f.lo < 32) (hg : g.width = 1) (h : s.flag a g = true) :
    (s.setFlag c f true).flag a g = true := by
  obtain ⟨hwidth, hlo⟩ := hf
  by_cases hreg : a = c
  · subst hreg
    by_cases heq : f = g
    · subst heq
      exact flag_setFlag_same s a f true hwidth hlo
    · have hne : f.lo ≠ g.lo := fun hl => heq (by cases f; cases g; simp_all)
      rw [flag_setFlag_other s a f g true (by omega) (by omega), h]
  · rw [flag_of_reg g (s.reg_setFlag_other f true hreg), h]
end

/-! ### Rings (R39, R454) -/

/-- Message events concern the host's message state only. -/
theorem msixEvents_eq (s : State) (m : Word) : ∃ h, s.msixEvents m = { s with host := h } := by
  refine List.foldlRecOn (motive := fun t : State => ∃ h, t = { s with host := h }) _ _ ⟨s.host, rfl⟩ fun t ht v _ => ?_
  obtain ⟨h, rfl⟩ := ht
  split
  · unfold State.msixEvent
    dsimp only
    split
    · exact ⟨h, rfl⟩
    · split <;> exact ⟨_, rfl⟩
  · exact ⟨h, rfl⟩

/-- A ring sets the agent's pending register; the rest of it is for the host's messages and the bridge's interrupt. -/
theorem ring_eq (s : State) {a : Nat} (b : Nat) (ha : a < 36) :
    ∃ w h q, s.ring a b = { s.setReg (XCH_A_DB_PEND a) w with host := h, irqReq := q } := by
  unfold State.ring
  rw [if_pos ha]
  refine ⟨s.reg (XCH_A_DB_PEND a) ||| word (2 ^ (b % 32)), ?_⟩
  dsimp only
  split
  · exact (msixEvents_eq _ _).imp fun h hmsix => ⟨s.irqReq, hmsix⟩
  · split <;> exact ⟨s.host, _, rfl⟩

/-- Agents other than the host and the bridge have their pending register only. -/
theorem ring_of_agent (s : State) {a : Nat} (b : Nat) (ha : a < 36) (hhost : a ≠ 0) (hbridge : a ≠ 3) :
    s.ring a b = s.setReg (XCH_A_DB_PEND a) (s.reg (XCH_A_DB_PEND a) ||| word (2 ^ (b % 32))) := by
  simp only [State.ring, if_pos ha, if_neg hhost, if_neg hbridge]

/-- Addresses outside the pages of the 36 agents (R453). -/
def OffPages (a : Nat) : Prop := a < 0x60100000 ∨ 0x60118000 ≤ a

section
variable (s : State) (en : Bool) (a b : Nat)

@[simp] theorem ringIf_fields : (s.ringIf en a b).mem = s.mem ∧ (s.ringIf en a b).engines = s.engines ∧
    (s.ringIf en a b).cmdq = s.cmdq ∧ (s.ringIf en a b).rspq = s.rspq := by
  unfold State.ringIf
  split
  · by_cases ha : a < 36
    · obtain ⟨w, h, q, hring⟩ := ring_eq s b ha
      simp [hring]
    · simp [State.ring, ha]
  · simp

/-- Rings stay within the agents' pages. -/
theorem reg_ringIf {c : Nat} (hc : OffPages c) : (s.ringIf en a b).reg c = s.reg c := by
  unfold State.ringIf
  split
  · by_cases ha : a < 36
    · obtain ⟨w, h, q, hring⟩ := ring_eq s b ha
      have hne : c ≠ XCH_A_DB_PEND a := by unfold OffPages at hc; unfold XCH_A_DB_PEND; omega
      rw [hring]
      exact s.reg_setReg_other w hne
    · simp [State.ring, ha]
  · rfl
end

/-! ### Post and consume of an object (R456, R457, R460, R461) -/

/-- The object's status and word are two registers outside the pages. -/
structure OffPageObject (o : XObj) : Prop where
  stat : OffPages o.stat
  peek : OffPages o.peek
  ne : o.peek ≠ o.stat

theorem offPageObject_mbx (n : Nat) : OffPageObject (mbx n) := by
  constructor <;> simp only [OffPages, mbx, XCH_MBX_STAT, XCH_MBX_PEEK] <;> omega

theorem offPageObject_lvs (n : Nat) : OffPageObject (lvs n) := by
  constructor <;> simp only [OffPages, lvs, XCH_LVS_STAT, XCH_LVS_PEEK] <;> omega

section
variable (s : State) (o : XObj) (v : Word)

@[simp] theorem store_fields : (s.store o v).mem = s.mem ∧ (s.store o v).engines = s.engines ∧ (s.store o v).cmdq = s.cmdq ∧
    (s.store o v).rspq = s.rspq := by
  simp [State.store]

theorem reg_store_other {c : Nat} (hc : OffPages c) (hpeek : c ≠ o.peek) (hstat : c ≠ o.stat) :
    (s.store o v).reg c = s.reg c := by
  simp only [State.store, reg_ringIf _ _ _ _ hc, State.reg_setFlag_other _ _ _ hstat, State.reg_setReg_other _ _ hpeek]

variable {o}

theorem reg_peek_store (ho : OffPageObject o) : (s.store o v).reg o.peek = v := by
  simp only [State.store, reg_ringIf _ _ _ _ ho.peek, State.reg_setFlag_other _ _ _ ho.ne, State.reg_setReg_same]

/-- The flags that a post leaves. -/
theorem flags_store (ho : OffPageObject o) : (s.store o v).full o = true ∧ (s.store o v).flag o.stat XCH_MBX_STAT_STALE = false ∧
    (s.store o v).flag o.stat XCH_MBX_STAT_ORPHAN = false := by
  have hring := fun (t : State) en a b f => flag_of_reg f (reg_ringIf t en a b ho.stat)
  refine ⟨?full, ?stale, ?orphan⟩ <;> simp only [State.full, State.store, hring]
  case full =>
    rw [flag_setFlag_other _ _ _ _ _ (by decide) (by decide), flag_setFlag_other _ _ _ _ _ (by decide) (by decide),
      flag_setFlag_same _ _ _ _ rfl (by decide)]
  case stale => rw [flag_setFlag_other _ _ _ _ _ (by decide) (by decide), flag_setFlag_same _ _ _ _ rfl (by decide)]
  case orphan => exact flag_setFlag_same _ _ _ _ rfl (by decide)

variable (o) (a num kind : Nat)

@[simp] theorem take_fields : (s.take a o num kind).2.mem = s.mem ∧ (s.take a o num kind).2.engines = s.engines ∧
    (s.take a o num kind).2.cmdq = s.cmdq ∧ (s.take a o num kind).2.rspq = s.rspq := by
  unfold State.take
  dsimp only
  split <;> simp

/-- The word that a consume gives. -/
theorem take_word : (s.take a o num kind).1 = if s.full o then s.reg o.peek else 0 := by
  unfold State.take
  dsimp only
  split <;> rfl

variable {a}

theorem reg_setReg_lastst (w : Word) (ha : a < 36) {c : Nat} (hc : OffPages c) : (s.setReg (XCH_A_LASTST a) w).reg c = s.reg c :=
  s.reg_setReg_other w (by unfold OffPages at hc; unfold XCH_A_LASTST; omega)

theorem reg_take_other (ha : a < 36) {c : Nat} (hc : OffPages c) (hstat : c ≠ o.stat) :
    (s.take a o num kind).2.reg c = s.reg c := by
  unfold State.take
  dsimp only
  split
  · simp only [reg_ringIf _ _ _ _ hc, State.reg_setFlag_other _ _ _ hstat, reg_setReg_lastst _ _ ha hc]
  · exact reg_setReg_lastst _ _ ha hc

variable {o}

/-- Whatever the object held, it is empty after a consume. -/
theorem full_take (ho : OffPageObject o) (ha : a < 36) : (s.take a o num kind).2.full o = false := by
  unfold State.take
  dsimp only
  split
  · rw [State.full, flag_of_reg _ (reg_ringIf _ _ _ _ ho.stat), flag_setFlag_other _ _ _ _ _ (by decide) (by decide),
      flag_setFlag_same _ _ _ _ rfl (by decide)]
  · next hempty =>
    rw [State.full, flag_of_reg _ (reg_setReg_lastst _ _ ha ho.stat)]
    simpa [State.full] using hempty

/-- A consume of a posted word clears COL (R461). -/
theorem col_take (ho : OffPageObject o) (hfull : s.full o = true) :
    (s.take a o num kind).2.flag o.stat XCH_MBX_STAT_COL = false := by
  unfold State.take
  rw [if_pos hfull, flag_of_reg _ (reg_ringIf _ _ _ _ ho.stat), flag_setFlag_same _ _ _ _ rfl (by decide)]
end

/-! ### The Keep's side of MBX0 and MBX1 (R193, R194) -/

section
variable (s : State)

@[simp] theorem showQueues_fields : s.showQueues.mem = s.mem ∧ s.showQueues.engines = s.engines ∧ s.showQueues.cmdq = s.cmdq ∧
    s.showQueues.rspq = s.rspq := by
  simp [State.showQueues]

theorem reg_showQueues {c : Nat} (hc : c ≠ PLM_STAT) : s.showQueues.reg c = s.reg c := by
  simp only [State.showQueues, State.reg_setFld_other _ _ _ hc]

@[simp] theorem keepRead_fields : s.keepRead.mem = s.mem ∧ s.keepRead.engines = s.engines := by
  unfold State.keepRead
  split <;> simp

/-- A command read touches MBX0's status and PLM_STAT, and pages. -/
theorem reg_keepRead {c : Nat} (hc : OffPages c) (hplm : c ≠ PLM_STAT) (hstat : c ≠ (mbx 0).stat) :
    s.keepRead.reg c = s.reg c := by
  unfold State.keepRead
  split
  · rw [reg_showQueues _ hplm]
    exact reg_take_other s (mbx 0) 0 0 (by decide) hc hstat
  · rfl

/-- A ready Keep takes the posted command. -/
theorem keepRead_of_ready (hready : s.flag PLM_STAT PLM_STAT_READY = true) (hcmd : s.cmdq.length < 8)
    (hrsp : s.rspq.length < 32) (hfull : s.full (mbx 0) = true) :
    s.keepRead.cmdq = s.cmdq ++ [s.reg (mbx 0).peek] ∧ s.keepRead.full (mbx 0) = false := by
  have hreads : (s.flag PLM_STAT PLM_STAT_READY && Nat.blt s.cmdq.length 8 && Nat.blt s.rspq.length 32 && s.full (mbx 0)) = true := by
    simp [hready, hcmd, hrsp, hfull]
  unfold State.keepRead
  rw [if_pos hreads]
  refine ⟨by simp [take_word, hfull], ?_⟩
  rw [State.full, flag_of_reg _ (reg_showQueues _ (by decide))]
  exact full_take s 0 0 (offPageObject_mbx 0) (by decide)

@[simp] theorem deliver_fields : s.deliver.mem = s.mem ∧ s.deliver.engines = s.engines := by
  unfold State.deliver
  split
  · simp
  · split <;> simp

/-- A response post touches MBX1's word and status and PLM_STAT, and pages. -/
theorem reg_deliver {c : Nat} (hc : OffPages c) (hplm : c ≠ PLM_STAT) (hpeek : c ≠ (mbx 1).peek) (hstat : c ≠ (mbx 1).stat) :
    s.deliver.reg c = s.reg c := by
  unfold State.deliver
  split
  · rfl
  · split
    · rfl
    · rw [reg_showQueues _ hplm, reg_store_other _ _ _ hc hpeek hstat]
      rfl
end

/-! ### Accesses through a page -/

/-- Agents are numbered below 36. -/
theorem agent_lt_of_pageOk {i : Init} {p : Nat} (h : pageOk i p = true) : p < 36 := by
  have hagent : agentOf i = some p := by simpa using (Bool.and_eq_true_iff.1 h).1
  cases i <;> simp only [agentOf, Option.some.injEq, reduceCtorEq] at hagent <;> omega

section
variable {c : Instr} {s t : State} {i : Init} {a : Nat} {f : State → State}

/-- A command that is an access through an open gate, with `t` after it: what `t` answers decides whether it is reported. -/
theorem exec_of_open (hexec : exec c s = .next (s.gate i a f)) (hopen : s.regShut i a = false) (hf : f s = t) :
    exec c s = .next (t.reported i a) := by
  rw [hexec, s.gate_open f hopen, hf]

theorem exec_of_good (hexec : exec c s = .next (s.gate i a f)) (hopen : s.regShut i a = false) (hf : f s = t)
    (ht : t.resp ≠ .busError) : exec c s = .next t := by
  rw [exec_of_open hexec hopen hf, t.reported_good i a ht]
end

section
variable {s : State} {i : Init} {p n : Nat} {v : Word}

theorem mailboxPost_accepted (hok : pageOk i p = true) (hsnd : s.sender (mbx n) = p) (hfull : s.full (mbx n) = false) :
    mailboxPost i p n v s = (s.store (mbx n) v).keepRead.answer .ok := by
  simp [mailboxPost, hok, hsnd, hfull]

theorem mailboxPost_full (hok : pageOk i p = true) (hsnd : s.sender (mbx n) = p) (hfull : s.full (mbx n) = true) :
    mailboxPost i p n v s = (s.countSat XCH_MBXREJ 1).answer .busError := by
  simp [mailboxPost, hok, hsnd, hfull]

theorem mailboxPost_refused (h : pageOk i p = false ∨ s.sender (mbx n) ≠ p) : mailboxPost i p n v s = s.answer .busError := by
  obtain h | h := h <;> simp [mailboxPost, h]

theorem mailboxConsume_refused (h : pageOk i p = false ∨ s.receiver (mbx n) ≠ p) :
    mailboxConsume i p n s = s.answer .busError := by
  obtain h | h := h <;> simp [mailboxConsume, h]

/-- The receiver's consume of a mailbox that the Keep does not read. -/
theorem mailboxConsume_accepted (hok : pageOk i p = true) (hrcv : s.receiver (mbx n) = p) (hn : n ≠ 0) :
    mailboxConsume i p n s = (s.take p (mbx n) n 0).2.deliver.keepRead.answerWord (s.take p (mbx n) n 0).1 := by
  simp [mailboxConsume, hok, hrcv, hn]

/-- The status of a mailbox other than MBX0 and MBX1 is none of the Keep's registers. -/
theorem reg_keepRead_deliver_stat (hlt : n < 128) (h0 : n ≠ 0) (h1 : n ≠ 1) :
    s.deliver.keepRead.reg (mbx n).stat = s.reg (mbx n).stat := by
  have hoff := (offPageObject_mbx n).stat
  have hplm : (mbx n).stat ≠ PLM_STAT := by simp only [mbx, XCH_MBX_STAT, PLM_STAT]; omega
  have hpeek : (mbx n).stat ≠ (mbx 1).peek := by simp only [mbx, XCH_MBX_STAT, XCH_MBX_PEEK]; omega
  have hstat {k : Nat} (hk : n ≠ k) : (mbx n).stat ≠ (mbx k).stat := by simp only [mbx, XCH_MBX_STAT]; omega
  rw [reg_keepRead _ hoff hplm (hstat h0), reg_deliver _ hoff hplm hpeek (hstat h1)]

/-- A consume by the receiver empties the mailbox and gives its word, or 0 where it was empty. -/
theorem mailboxConsume_effect (hok : pageOk i p = true) (hrcv : s.receiver (mbx n) = p) (hlt : n < 128) (h0 : n ≠ 0)
    (h1 : n ≠ 1) :
    let t := mailboxConsume i p n s
    t.resp = .data (toBytes (if s.full (mbx n) then s.reg (mbx n).peek else 0).toNat 4) ∧ t.full (mbx n) = false ∧
      t.mem = s.mem ∧ t.engines = s.engines := by
  intro t
  have ht : t = _ := mailboxConsume_accepted hok hrcv h0
  rw [ht]
  refine ⟨by rw [← take_word s (mbx n) p n 0]; rfl, ?_, by simp, by simp⟩
  rw [State.full, (State.answerWord_reads _ _).2.2.1, flag_of_reg _ (reg_keepRead_deliver_stat hlt h0 h1)]
  exact full_take s n 0 (offPageObject_mbx n) (agent_lt_of_pageOk hok)

/-- A post by the sender to a mailbox that the Keep does not read. -/
theorem mailboxPost_effect (hok : pageOk i p = true) (hsnd : s.sender (mbx n) = p) (hfull : s.full (mbx n) = false) (h0 : n ≠ 0) :
    let t := mailboxPost i p n v s
    t.resp = .ok ∧ t.full (mbx n) = true ∧ t.reg (mbx n).peek = v ∧ t.flag (mbx n).stat XCH_MBX_STAT_STALE = false ∧
      t.flag (mbx n).stat XCH_MBX_STAT_ORPHAN = false ∧ t.mem = s.mem ∧ t.engines = s.engines := by
  intro t
  have ht : t = _ := mailboxPost_accepted (v := v) hok hsnd hfull
  have hc := offPageObject_mbx n
  have hstat : (s.store (mbx n) v).keepRead.reg (mbx n).stat = (s.store (mbx n) v).reg (mbx n).stat :=
    reg_keepRead _ hc.stat (by simp only [mbx, XCH_MBX_STAT, PLM_STAT]; omega) (by simp only [mbx, XCH_MBX_STAT]; omega)
  have hpeek : (s.store (mbx n) v).keepRead.reg (mbx n).peek = (s.store (mbx n) v).reg (mbx n).peek :=
    reg_keepRead _ hc.peek (by simp only [mbx, XCH_MBX_PEEK, PLM_STAT]; omega)
      (by simp only [mbx, XCH_MBX_PEEK, XCH_MBX_STAT]; omega)
  obtain ⟨hf, hstale, horphan⟩ := flags_store s v hc
  rw [ht]
  exact ⟨rfl, (flag_of_reg _ hstat).trans hf, hpeek.trans (reg_peek_store s v hc), (flag_of_reg _ hstat).trans hstale,
    (flag_of_reg _ hstat).trans horphan, by simp, by simp⟩

/-- A command posted to MBX0 enters the queue of a ready Keep within the post (R193). -/
theorem mailboxPost_command (hok : pageOk i p = true) (hsnd : s.sender (mbx n) = p) (hfull : s.full (mbx n) = false)
    (h0 : n = 0) (hready : s.flag PLM_STAT PLM_STAT_READY = true) (hcmd : s.cmdq.length < 8) (hrsp : s.rspq.length < 32) :
    let t := mailboxPost i p n v s
    t.resp = .ok ∧ t.full (mbx n) = false ∧ t.cmdq = s.cmdq ++ [v] ∧ t.mem = s.mem ∧ t.engines = s.engines := by
  subst h0
  intro t
  have ht : t = _ := mailboxPost_accepted (v := v) hok hsnd hfull
  have hc := offPageObject_mbx 0
  have hplm : (s.store (mbx 0) v).reg PLM_STAT = s.reg PLM_STAT :=
    reg_store_other s (mbx 0) v (.inl (by decide)) (by decide) (by decide)
  obtain ⟨hcmdq, hempty⟩ := keepRead_of_ready (s.store (mbx 0) v) ((flag_of_reg _ hplm).trans hready) (by simpa using hcmd)
    (by simpa using hrsp) (flags_store s v hc).1
  rw [ht]
  exact ⟨rfl, hempty, by simpa [reg_peek_store s v hc] using hcmdq, by simp, by simp⟩
end

section
variable {s : State} {i : Init} {p n : Nat} {v : Word}

theorem lvsPost_empty (hok : pageOk i p = true) (hsnd : s.sender (lvs n) = p) (hfull : s.full (lvs n) = false) :
    lvsPost i p n v s = (s.store (lvs n) v).answer .ok := by
  simp [lvsPost, hok, hsnd, hfull]

theorem lvsPost_full (hok : pageOk i p = true) (hsnd : s.sender (lvs n) = p) (hfull : s.full (lvs n) = true) :
    lvsPost i p n v s =
      (((s.setFlag (lvs n).stat XCH_MBX_STAT_COL true).countSat XCH_LVSCOL 1).store (lvs n) v).answer .ok := by
  simp [lvsPost, hok, hsnd, hfull]

theorem lvsConsume_accepted (hok : pageOk i p = true) (hrcv : s.receiver (lvs n) = p) :
    lvsConsume i p n s = (s.take p (lvs n) n 1).2.answerWord (s.take p (lvs n) n 1).1 := by
  simp [lvsConsume, hok, hrcv]

theorem semTestAndSet_free (hok : pageOk i p = true) (hfree : s.flag (XCH_SEM_STAT n) XCH_SEM_STAT_HELD = false) :
    semTestAndSet i p n s = (s.setReg (XCH_SEM_STAT n) (word (1 + p * 2 ^ 8))).answerWord
      (if s.flag (XCH_SEM_STAT n) XCH_SEM_STAT_ABND then 2 else 0) := by
  simp [semTestAndSet, State.semValue, hok, hfree]

theorem semTestAndSet_held (hok : pageOk i p = true) (hheld : s.flag (XCH_SEM_STAT n) XCH_SEM_STAT_HELD = true) :
    semTestAndSet i p n s = s.answerWord (word (1 + s.fld (XCH_SEM_STAT n) XCH_SEM_STAT_OWNER * 256)) := by
  simp [semTestAndSet, State.semValue, hok, hheld]

theorem semRelease_holder (hok : pageOk i p = true) (hheld : s.flag (XCH_SEM_STAT n) XCH_SEM_STAT_HELD = true)
    (howner : s.fld (XCH_SEM_STAT n) XCH_SEM_STAT_OWNER = p) :
    semRelease i p n s = (s.setReg (XCH_SEM_STAT n) 0).answer .ok := by
  simp [semRelease, hok, hheld, howner]

theorem semRelease_refused
    (h : s.flag (XCH_SEM_STAT n) XCH_SEM_STAT_HELD = false ∨ s.fld (XCH_SEM_STAT n) XCH_SEM_STAT_OWNER ≠ p) :
    semRelease i p n s = s.answer .busError := by
  obtain h | h := h <;> simp [semRelease, h]

theorem doorbellRing_agent (hok : doorOk i p = true) (ha : XCH_A_DB_RING_AGENT.get v < 36) (hhost : XCH_A_DB_RING_AGENT.get v ≠ 0)
    (hbridge : XCH_A_DB_RING_AGENT.get v ≠ 3) :
    let a := XCH_A_DB_RING_AGENT.get v
    doorbellRing i p v s = (s.setReg (XCH_A_DB_PEND a)
      (s.reg (XCH_A_DB_PEND a) ||| word (2 ^ (XCH_A_DB_RING_BIT.get v % 32)))).answer .ok := by
  simp [doorbellRing, hok, Nat.not_le.2 ha, ring_of_agent s _ ha hhost hbridge]

theorem doorbellRing_nobody (ha : 36 ≤ XCH_A_DB_RING_AGENT.get v) : doorbellRing i p v s = s.answer .busError := by
  simp [doorbellRing, ha]

theorem doorbellClear_agent {ev : Word} (hok : doorOk i p = true) (hhost : p ≠ 0) (hbridge : p ≠ 3) :
    doorbellClear i p v ev s = (s.setReg (XCH_A_DB_PEND p) ((s.reg (XCH_A_DB_PEND p) &&& ~~~v) ||| ev)).answer .ok := by
  simp [doorbellClear, hok, hhost, hbridge]

theorem doorbellMaskWrite_agent (hok : doorOk i p = true) (hhost : p ≠ 0) (hbridge : p ≠ 3) :
    doorbellMaskWrite i p v s = (s.setReg (XCH_A_DB_MASK p) v).answer .ok := by
  simp [doorbellMaskWrite, hok, hhost, hbridge]
end

/-! ### Advance of an epoch (R451, R452) -/

/-- A fold of steps that keep `I` and keep `Q`, one of which turns `I` into `Q`, ends in `Q`. -/
theorem foldl_establishes {I Q : State → Prop} {f : State → Nat → State} {l : List Nat} {k : Nat} {s : State} (hk : k ∈ l)
    (hI : ∀ t, I t → ∀ n ∈ l, I (f t n)) (hQ : ∀ t, Q t → ∀ n ∈ l, Q (f t n)) (hset : ∀ t, I t → Q (f t k)) (hs : I s) :
    Q (l.foldl f s) := by
  obtain ⟨before, rest, rfl⟩ := List.append_of_mem hk
  rw [List.foldl_append, List.foldl_cons]
  have hbefore : I (before.foldl f s) :=
    List.foldlRecOn _ _ hs fun t ht n hn => hI t ht n (List.mem_append_left _ hn)
  exact List.foldlRecOn _ _ (hset _ hbefore) fun t ht n hn =>
    hQ t ht n (List.mem_append_right _ (List.mem_cons_of_mem _ hn))

section
variable (s : State) (a cfg stat n : Nat)

@[simp] theorem markStale_fields : (s.markStale a cfg stat).mem = s.mem ∧ (s.markStale a cfg stat).engines = s.engines := by
  unfold State.markStale
  dsimp only
  split_ifs <;> simp

theorem reg_markStale_other {c : Nat} (hc : c ≠ stat) : (s.markStale a cfg stat).reg c = s.reg c := by
  unfold State.markStale
  dsimp only
  split_ifs <;> simp only [State.reg_setFlag_other _ _ _ hc]

/-- Marking an object clears no flag. -/
theorem flag_markStale {c : Nat} {f : Fld} (hf : f.width = 1) (h : s.flag c f = true) :
    (s.markStale a cfg stat).flag c f = true := by
  have hstale {t : State} (ht : t.flag c f = true) : (t.setFlag stat XCH_MBX_STAT_STALE true).flag c f = true :=
    flag_setFlag_true _ f ⟨rfl, by decide⟩ hf ht
  have horphan {t : State} (ht : t.flag c f = true) : (t.setFlag stat XCH_MBX_STAT_ORPHAN true).flag c f = true :=
    flag_setFlag_true _ f ⟨rfl, by decide⟩ hf ht
  unfold State.markStale
  dsimp only
  split_ifs
  exacts [horphan (hstale h), hstale h, horphan h, h, h]

variable {s a cfg stat}

theorem stale_markStale (hfull : s.flag stat XCH_MBX_STAT_FULL = true) (hrcv : s.fld cfg XCH_MBX_CFG_RCV = a) :
    (s.markStale a cfg stat).flag stat XCH_MBX_STAT_STALE = true := by
  have hset : (s.setFlag stat XCH_MBX_STAT_STALE true).flag stat XCH_MBX_STAT_STALE = true :=
    flag_setFlag_same _ _ _ _ rfl (by decide)
  simp only [State.markStale, if_pos hfull, if_pos hrcv]
  split_ifs
  · exact flag_setFlag_true _ _ ⟨rfl, by decide⟩ rfl hset
  · exact hset

theorem orphan_markStale (hne : cfg ≠ stat) (hfull : s.flag stat XCH_MBX_STAT_FULL = true)
    (hsnd : s.fld cfg XCH_MBX_CFG_SND = a) : (s.markStale a cfg stat).flag stat XCH_MBX_STAT_ORPHAN = true := by
  have hsnd' : (if s.fld cfg XCH_MBX_CFG_RCV = a then s.setFlag stat XCH_MBX_STAT_STALE true else s).fld cfg
      XCH_MBX_CFG_SND = a := by
    split_ifs
    · rw [State.fld, State.reg_setFlag_other _ _ _ hne]
      exact hsnd
    · exact hsnd
  simp only [State.markStale, if_pos hfull, if_pos hsnd']
  exact flag_setFlag_same _ _ _ _ rfl (by decide)

variable (s a)

@[simp] theorem abandonSem_fields : (s.abandonSem a n).mem = s.mem ∧ (s.abandonSem a n).engines = s.engines := by
  unfold State.abandonSem
  split <;> simp

theorem reg_abandonSem_other {c : Nat} (hc : c ≠ XCH_SEM_STAT n) : (s.abandonSem a n).reg c = s.reg c := by
  unfold State.abandonSem
  split
  · exact s.reg_setReg_other _ hc
  · rfl

/-- A semaphore free and abandoned stays so. -/
theorem reg_abandonSem_two {c : Nat} (h : s.reg c = 2) : (s.abandonSem a n).reg c = 2 := by
  unfold State.abandonSem
  split
  · by_cases hc : c = XCH_SEM_STAT n
    · rw [hc, State.reg_setReg_same]
    · rw [State.reg_setReg_other _ _ hc, h]
  · exact h

variable {n} in
/-- A semaphore held by the agent is free and abandoned. -/
theorem reg_abandonSem_held (hheld : s.flag (XCH_SEM_STAT n) XCH_SEM_STAT_HELD = true)
    (howner : s.fld (XCH_SEM_STAT n) XCH_SEM_STAT_OWNER = a) : (s.abandonSem a n).reg (XCH_SEM_STAT n) = 2 := by
  simp [State.abandonSem, hheld, howner]
end

/-- What every step of a fold keeps, the fold keeps. -/
theorem foldl_keeps {α : Type} (g : State → α) {f : State → Nat → State} {l : List Nat} (s : State)
    (hstep : ∀ t, ∀ n ∈ l, g (f t n) = g t) : g (l.foldl f s) = g s :=
  List.foldlRecOn (motive := fun t => g t = g s) _ _ rfl fun t ht n hn => (hstep t n hn).trans ht

/-- The first `k` objects of a kind are marked for agent `a`. -/
def markAll (a : Nat) (o : Nat → XObj) (k : Nat) (s : State) : State :=
  (List.range k).foldl (fun s n => s.markStale a (o n).cfg (o n).stat) s

/-- The semaphores are freed for agent `a`. -/
def abandonAll (a : Nat) (s : State) : State := (List.range 64).foldl (fun s n => s.abandonSem a n) s

/-- The epoch has advanced and no doorbell of the agent is pending. -/
def epochBegun (a : Nat) (s : State) : State :=
  let t := (s.setReg (XCH_EPOCH a) (word (((s.reg (XCH_EPOCH a)).toNat + 1) % 65536))).setReg (XCH_A_DB_PEND a) 0
  if a = 0 then t.msixSettle else t

theorem advanceEpoch_eq (s : State) (a : Nat) :
    s.advanceEpoch a = abandonAll a (markAll a lvs 64 (markAll a mbx 128 (epochBegun a s))) := rfl

section
variable (s : State) (a : Nat) (o : Nat → XObj) (k : Nat)

@[simp] theorem markAll_fields : (markAll a o k s).mem = s.mem ∧ (markAll a o k s).engines = s.engines :=
  ⟨foldl_keeps State.mem s fun t _ _ => (markStale_fields t a _ _).1,
    foldl_keeps State.engines s fun t _ _ => (markStale_fields t a _ _).2⟩

variable {k} in
theorem reg_markAll_other {c : Nat} (hc : ∀ n, n < k → c ≠ (o n).stat) : (markAll a o k s).reg c = s.reg c :=
  foldl_keeps (State.reg · c) s fun t n hn => reg_markStale_other t a _ _ (hc n (List.mem_range.1 hn))

theorem flag_markAll {c : Nat} {f : Fld} (hf : f.width = 1) (h : s.flag c f = true) : (markAll a o k s).flag c f = true :=
  List.foldlRecOn (motive := fun t : State => t.flag c f = true) _ _ h fun t ht _ _ => flag_markStale t a _ _ hf ht

variable {s a o k} {j : Nat} (hj : j < k) (hcfg : ∀ n, n < k → (o j).cfg ≠ (o n).stat) (hfull : s.full (o j) = true)
include hj hcfg hfull

/-- STALE where the receiver was reset. -/
theorem stale_markAll (hrcv : s.fld (o j).cfg XCH_MBX_CFG_RCV = a) :
    (markAll a o k s).flag (o j).stat XCH_MBX_STAT_STALE = true := by
  refine foldl_establishes (I := fun t => t.full (o j) = true ∧ t.fld (o j).cfg XCH_MBX_CFG_RCV = a) (List.mem_range.2 hj)
    (fun t ht n hn => ⟨flag_markStale t a _ _ rfl ht.1, ?_⟩) (Q := fun t => t.flag (o j).stat XCH_MBX_STAT_STALE = true)
    (fun t ht n _ => flag_markStale t a _ _ rfl ht) (fun t ht => stale_markStale ht.1 ht.2) ⟨hfull, hrcv⟩
  rw [State.fld, reg_markStale_other t a _ _ (hcfg n (List.mem_range.1 hn))]
  exact ht.2

/-- ORPHAN where the sender was reset. -/
theorem orphan_markAll (hsnd : s.fld (o j).cfg XCH_MBX_CFG_SND = a) :
    (markAll a o k s).flag (o j).stat XCH_MBX_STAT_ORPHAN = true := by
  refine foldl_establishes (I := fun t => t.full (o j) = true ∧ t.fld (o j).cfg XCH_MBX_CFG_SND = a) (List.mem_range.2 hj)
    (fun t ht n hn => ⟨flag_markStale t a _ _ rfl ht.1, ?_⟩) (Q := fun t => t.flag (o j).stat XCH_MBX_STAT_ORPHAN = true)
    (fun t ht n _ => flag_markStale t a _ _ rfl ht) (fun t ht => orphan_markStale (hcfg j hj) ht.1 ht.2) ⟨hfull, hsnd⟩
  rw [State.fld, reg_markStale_other t a _ _ (hcfg n (List.mem_range.1 hn))]
  exact ht.2
end

section
variable (s : State) (a : Nat)

@[simp] theorem abandonAll_fields : (abandonAll a s).mem = s.mem ∧ (abandonAll a s).engines = s.engines :=
  ⟨foldl_keeps State.mem s fun t n _ => (abandonSem_fields t a n).1,
    foldl_keeps State.engines s fun t n _ => (abandonSem_fields t a n).2⟩

theorem reg_abandonAll_other {c : Nat} (hc : ∀ n, n < 64 → c ≠ XCH_SEM_STAT n) : (abandonAll a s).reg c = s.reg c :=
  foldl_keeps (State.reg · c) s fun t n hn => reg_abandonSem_other t a n (hc n (List.mem_range.1 hn))

variable {s a}

theorem reg_abandonAll_held {j : Nat} (hj : j < 64) (hheld : s.flag (XCH_SEM_STAT j) XCH_SEM_STAT_HELD = true)
    (howner : s.fld (XCH_SEM_STAT j) XCH_SEM_STAT_OWNER = a) : (abandonAll a s).reg (XCH_SEM_STAT j) = 2 := by
  have hset {t : State} (ht : t.reg (XCH_SEM_STAT j) = s.reg (XCH_SEM_STAT j)) :
      (t.abandonSem a j).reg (XCH_SEM_STAT j) = 2 :=
    reg_abandonSem_held t a ((flag_of_reg _ ht).trans hheld) (by rw [State.fld, ht]; exact howner)
  refine foldl_establishes (I := fun t => t.reg (XCH_SEM_STAT j) = s.reg (XCH_SEM_STAT j) ∨ t.reg (XCH_SEM_STAT j) = 2)
    (Q := fun t => t.reg (XCH_SEM_STAT j) = 2) (List.mem_range.2 hj) (fun t ht n _ => ?_)
    (fun t ht n _ => reg_abandonSem_two t a n ht) (fun t ht => ht.elim hset (reg_abandonSem_two t a j)) (.inl rfl)
  obtain ht | ht := ht
  · by_cases hn : n = j
    · subst hn
      exact .inr (hset ht)
    · exact .inl ((reg_abandonSem_other t a n (by unfold XCH_SEM_STAT; omega)).trans ht)
  · exact .inr (reg_abandonSem_two t a n ht)
end

section
variable (s : State) (a : Nat)

@[simp] theorem epochBegun_fields : (epochBegun a s).mem = s.mem ∧ (epochBegun a s).engines = s.engines := by
  unfold epochBegun
  dsimp only
  split <;> simp [State.msixSettle]

theorem reg_epochBegun (c : Nat) : (epochBegun a s).reg c =
    ((s.setReg (XCH_EPOCH a) (word (((s.reg (XCH_EPOCH a)).toNat + 1) % 65536))).setReg (XCH_A_DB_PEND a) 0).reg c := by
  unfold epochBegun
  dsimp only
  split <;> rfl

/-- The flags and owners of objects and semaphores are those before the epoch's advance. -/
theorem reg_epochBegun_other (ha : a < 36) {c : Nat} (hc : OffPages c) (hepoch : c ≠ XCH_EPOCH a) :
    (epochBegun a s).reg c = s.reg c := by
  have hpend : c ≠ XCH_A_DB_PEND a := by unfold OffPages at hc; unfold XCH_A_DB_PEND; omega
  rw [reg_epochBegun, State.reg_setReg_other _ _ hpend, State.reg_setReg_other _ _ hepoch]

@[simp] theorem advanceEpoch_fields : (s.advanceEpoch a).mem = s.mem ∧ (s.advanceEpoch a).engines = s.engines := by
  simp [advanceEpoch_eq]

/-- Beyond the new epoch and the doorbells, an advance writes status registers of objects and semaphores. -/
theorem reg_advanceEpoch_other {c : Nat} (hmbx : ∀ n, n < 128 → c ≠ (mbx n).stat) (hlvs : ∀ n, n < 64 → c ≠ (lvs n).stat)
    (hsem : ∀ n, n < 64 → c ≠ XCH_SEM_STAT n) : (s.advanceEpoch a).reg c = (epochBegun a s).reg c := by
  rw [advanceEpoch_eq, reg_abandonAll_other _ _ hsem, reg_markAll_other _ _ _ hlvs, reg_markAll_other _ _ _ hmbx]

variable {a}

theorem epoch_advanceEpoch (ha : a < 36) :
    (s.advanceEpoch a).reg (XCH_EPOCH a) = word (((s.reg (XCH_EPOCH a)).toNat + 1) % 65536) := by
  have hpend : XCH_EPOCH a ≠ XCH_A_DB_PEND a := by unfold XCH_EPOCH XCH_A_DB_PEND; omega
  rw [reg_advanceEpoch_other, reg_epochBegun, State.reg_setReg_other _ _ hpend, State.reg_setReg_same] <;>
    intro n hn <;> simp only [mbx, lvs, XCH_EPOCH, XCH_MBX_STAT, XCH_LVS_STAT, XCH_SEM_STAT] <;> omega

theorem pend_advanceEpoch : (s.advanceEpoch a).reg (XCH_A_DB_PEND a) = 0 := by
  rw [reg_advanceEpoch_other, reg_epochBegun, State.reg_setReg_same] <;>
    intro n hn <;> simp only [mbx, lvs, XCH_A_DB_PEND, XCH_MBX_STAT, XCH_LVS_STAT, XCH_SEM_STAT] <;> omega

variable {s} {k : Nat}

/-- What the first round makes of a mailbox stays. -/
theorem flag_advanceEpoch_mbx (hk : k < 128) {f : Fld} (hf : f.width = 1)
    (h : (markAll a mbx 128 (epochBegun a s)).flag (mbx k).stat f = true) : (s.advanceEpoch a).flag (mbx k).stat f = true := by
  have hsem (n : Nat) (_ : n < 64) : (mbx k).stat ≠ XCH_SEM_STAT n := by simp only [mbx, XCH_MBX_STAT, XCH_SEM_STAT]; omega
  rw [advanceEpoch_eq, flag_of_reg f (reg_abandonAll_other _ a hsem)]
  exact flag_markAll _ a lvs 64 hf h

theorem mbx_cfg_ne_stat (hk : k < 128) (n : Nat) : (mbx k).cfg ≠ (mbx n).stat := by
  simp only [mbx, XCH_MBX_CFG, XCH_MBX_STAT]; omega

theorem reg_epochBegun_mbx (ha : a < 36) (hk : k < 128) : (epochBegun a s).reg (mbx k).stat = s.reg (mbx k).stat ∧
    (epochBegun a s).reg (mbx k).cfg = s.reg (mbx k).cfg := by
  constructor <;> apply reg_epochBegun_other s a ha <;>
    simp only [OffPages, mbx, XCH_MBX_CFG, XCH_MBX_STAT, XCH_EPOCH] <;> omega

theorem stale_advanceEpoch (ha : a < 36) (hk : k < 128) (hfull : s.full (mbx k) = true)
    (hrcv : s.fld (mbx k).cfg XCH_MBX_CFG_RCV = a) : (s.advanceEpoch a).flag (mbx k).stat XCH_MBX_STAT_STALE = true := by
  obtain ⟨hstat, hcfg⟩ := reg_epochBegun_mbx (s := s) ha hk
  exact flag_advanceEpoch_mbx hk rfl (stale_markAll hk (fun n _ => mbx_cfg_ne_stat hk n) ((flag_of_reg _ hstat).trans hfull)
    (by rw [State.fld, hcfg]; exact hrcv))

theorem orphan_advanceEpoch (ha : a < 36) (hk : k < 128) (hfull : s.full (mbx k) = true)
    (hsnd : s.fld (mbx k).cfg XCH_MBX_CFG_SND = a) : (s.advanceEpoch a).flag (mbx k).stat XCH_MBX_STAT_ORPHAN = true := by
  obtain ⟨hstat, hcfg⟩ := reg_epochBegun_mbx (s := s) ha hk
  exact flag_advanceEpoch_mbx hk rfl (orphan_markAll hk (fun n _ => mbx_cfg_ne_stat hk n) ((flag_of_reg _ hstat).trans hfull)
    (by rw [State.fld, hcfg]; exact hsnd))

theorem abandoned_advanceEpoch (ha : a < 36) (hk : k < 64) (hheld : s.flag (XCH_SEM_STAT k) XCH_SEM_STAT_HELD = true)
    (howner : s.fld (XCH_SEM_STAT k) XCH_SEM_STAT_OWNER = a) : (s.advanceEpoch a).reg (XCH_SEM_STAT k) = 2 := by
  have hsem : (markAll a lvs 64 (markAll a mbx 128 (epochBegun a s))).reg (XCH_SEM_STAT k) = s.reg (XCH_SEM_STAT k) := by
    rw [reg_markAll_other, reg_markAll_other, reg_epochBegun_other s a ha]
    · unfold OffPages XCH_SEM_STAT; omega
    · unfold XCH_SEM_STAT XCH_EPOCH; omega
    · intro n hn; simp only [mbx, XCH_MBX_STAT, XCH_SEM_STAT]; omega
    · intro n hn; simp only [lvs, XCH_LVS_STAT, XCH_SEM_STAT]; omega
  rw [advanceEpoch_eq]
  exact reg_abandonAll_held hk ((flag_of_reg _ hsem).trans hheld) (by rw [State.fld, hsem]; exact howner)
end

/-! ### The obligation -/

/-- Settles O30: each access through a page is its function behind the gate; posts and consumes are read off `mailboxPost_effect`,
`mailboxConsume_effect`, `mailboxPost_command` (the Keep reads MBX0 within the post) and their like, an epoch's advance off its
three rounds. -/
theorem exchangeObjects : Obligations.ExchangeObjects := by
  intro s i p n m v ev
  refine ⟨fun hopen => ⟨?post, ?command, ?postFull, ?postRefused, ?consume, ?consumeEmpty, ?consumeRefused⟩,
    fun hopen hok => ⟨?lvsPost, ?lvsOverwrite, ?lvsConsume⟩, fun hopen hok => ⟨?acquire, ?busy, ?release, ?releaseRefused⟩,
    fun hopen => ⟨?force, ?forceRefused⟩, fun hopen hok => ⟨?ring, ?ringNobody⟩, ?clear, ?mask, ?epoch⟩
  case post =>
    intro hok hsnd hfull h0
    have heffect := mailboxPost_effect (v := v) hok hsnd hfull h0
    exact ⟨_, exec_of_good rfl hopen rfl (by simp [heffect.1]), heffect⟩
  case command =>
    intro hok hsnd hfull h0 hready hcmd hrsp
    have heffect := mailboxPost_command (v := v) hok hsnd hfull h0 hready hcmd hrsp
    exact ⟨_, exec_of_good rfl hopen rfl (by simp [heffect.1]), heffect⟩
  case postFull => exact fun hok hsnd hfull => exec_of_open rfl hopen (mailboxPost_full hok hsnd hfull)
  case postRefused => exact fun h => exec_of_open rfl hopen (mailboxPost_refused h)
  case consume =>
    intro hok hrcv hfull h0 h1
    have heffect := mailboxConsume_effect hok hrcv n.isLt h0 h1
    rw [hfull] at heffect
    exact ⟨_, exec_of_good rfl hopen rfl (by simp [heffect.1]), heffect⟩
  case consumeEmpty =>
    intro hok hrcv hfull h0 h1
    obtain ⟨hresp, -, hframe⟩ := mailboxConsume_effect hok hrcv n.isLt h0 h1
    rw [hfull] at hresp
    exact ⟨_, exec_of_good rfl hopen rfl (by simp [hresp]), hresp, hframe⟩
  case consumeRefused => exact fun h => exec_of_open rfl hopen (mailboxConsume_refused h)
  case lvsPost => exact fun hsnd hfull => exec_of_good rfl hopen (lvsPost_empty hok hsnd hfull) (by simp)
  case lvsOverwrite => exact fun hsnd hfull => exec_of_good rfl hopen (lvsPost_full hok hsnd hfull) (by simp)
  case lvsConsume =>
    intro hrcv hfull
    have ho := offPageObject_lvs m
    have hword : (s.take p (lvs m) m 1).1 = s.reg (lvs m).peek := by rw [take_word, if_pos hfull]
    exact ⟨_, exec_of_good rfl hopen (lvsConsume_accepted hok hrcv) (by simp [State.answerWord]), by rw [hword]; rfl,
      full_take s m 1 ho (agent_lt_of_pageOk hok), col_take s m 1 ho hfull, by simp, by simp⟩
  case acquire => exact fun hfree => exec_of_good rfl hopen (semTestAndSet_free hok hfree) (by simp [State.answerWord])
  case busy => exact fun hheld => exec_of_good rfl hopen (semTestAndSet_held hok hheld) (by simp [State.answerWord])
  case release => exact fun hheld howner => exec_of_good rfl hopen (semRelease_holder hok hheld howner) (by simp)
  case releaseRefused => exact fun h => exec_of_open rfl hopen (semRelease_refused h)
  case force => exact fun hkeep => exec_of_good rfl hopen (by simp [semForceRelease, hkeep]) (by simp)
  case forceRefused => exact fun hother => exec_of_open rfl hopen (by simp [semForceRelease, hother])
  case ring => exact fun ha hhost hbridge => exec_of_good rfl hopen (doorbellRing_agent hok ha hhost hbridge) (by simp)
  case ringNobody => exact fun ha => exec_of_open rfl hopen (doorbellRing_nobody ha)
  case clear =>
    exact fun hopen hok hhost hbridge => exec_of_good rfl hopen (doorbellClear_agent hok hhost hbridge) (by simp)
  case mask =>
    exact fun hopen hok hhost hbridge => exec_of_good rfl hopen (doorbellMaskWrite_agent hok hhost hbridge) (by simp)
  case epoch =>
    intro hopen hok
    have hbump : hostEpochBump i s = (s.advanceEpoch 0).answer .ok := by simp [hostEpochBump, hok]
    refine ⟨_, exec_of_good rfl hopen hbump (by simp), rfl, ?_⟩
    simp only [State.reg_answer, (State.answer_reads _ _).2.2.1, State.answer_fields]
    exact ⟨epoch_advanceEpoch s (by decide), pend_advanceEpoch s,
      fun k hk => stale_advanceEpoch (by decide) hk, fun k hk => orphan_advanceEpoch (by decide) hk,
      fun k hk => abandoned_advanceEpoch (by decide) hk, by simp, by simp⟩

end Sys2Proof.Claims
end
